-- ==== Sys2Proof/Word.lean ====
section
/-! DEFINITION. The word types of the model: bytes and words of the hardware window, mailboxes and DIAG maps
(Tables 3.4 to 3.16), and the exact numbers that stand for the physical quantities of the configuration (R8). -/
namespace Sys2Proof

/-- One byte of a frame, an image or a record. -/
abbrev Byte := BitVec 8
/-- A 16-bit field: event codes (R580), angles (R7). -/
abbrev Half := BitVec 16
/-- A 32-bit register of the window (Table 3.4) or word of a DIAG map. -/
abbrev Word := BitVec 32
/-- A 64-bit counter: drive time (R9), log indexes (R527). -/
abbrev DWord := BitVec 64
/-- A physical quantity. The spec gives quantities as binary32 (R8); the model computes with exact numbers and rounds
only where a quantity leaves the block as bits (log entry 3). -/
abbrev Q := Rat

end Sys2Proof
end

