-- ==== Sys2Proof/Syntax.lean ====
section
/-! DEFINITION. The commands of the block: every row of the table of operations and events is a constructor of Instr.
The table gives no row any bits. A command's operands are what its sender must say (which axis, which slot) and what only
the world outside the block can know (a level on a ball, a conversion result, the outcome of a measurement). -/
namespace Sys2Proof

/-- The clocks that a monitor can declare lost (R18, R19, Table 1.5). -/
inductive ClockDomain where
  | xin | core | fabric | pwm | adc | can | position | halyard | backstay | aon
  deriving DecidableEq, Repr

/-- The sources of Safe Torque Off (R166, R167). -/
inductive StoSource where
  | chA | chB | internal
  deriving DecidableEq, Repr

/-- A shadow register of the compare path (R124): CMPA or CMPB of a leg, or the PERIOD. -/
inductive ShadowReg where
  | cmpA (leg : Fin 3) | cmpB (leg : Fin 3) | period
  deriving DecidableEq, Repr

/-- What the tests and measurements of a cast-on step found (Table 2.4). -/
structure CastOnFindings where
  /-- Step 5: memory BIST passed; step 6: logic BIST passed. -/
  memoryBist : Bool
  logicBist : Bool
  /-- Step 7: the group that failed part L, if one did, 0 to 63; comparators that failed part T, bit per comparator. -/
  partL : Option (Fin 64)
  partT : Nat
  /-- Step 13: converters whose self-calibration failed, bit per converter. -/
  badConverters : Nat
  /-- Step 13: mechanical speeds that the first phase-voltage measurement shows, per axis. -/
  speeds : Vector Q 4
  /-- Step 13: the levels of SI0 to SI15, and inputs that fail their pulse test (R442). -/
  siLevels : Nat
  badInputs : Nat
  /-- Step 13: the levels of A (bit 2i) and B (bit 2i + 1) of interface i as it starts. -/
  quadLevels : Nat
  /-- Units that fail a test of Table 2.6 other than part T and the test pulses, by unit number. -/
  badUnits : Nat
  deriving DecidableEq, Repr

/-- What the comparison of a pair shows in one CORE cycle (R372, R373): the delay stages whose parity fails, bit 3 ID1, bit 2 ID2, bit 1 OD1,
bit 0 OD2, with the slice; and the dual-rail wires of C1 and of C2 on the groups of the pair that are not 0b01 on both. -/
structure LockCycle where
  parity : Nat
  slice : Fin 32
  reports : List (Fin 32 × Fin 4 × Fin 4)
  deriving DecidableEq, Repr

/-- A frame of a serial absolute encoder as received (R246, R247): the data line was high at its start, the SERIAL_BITS bits
with the first one most significant, the parity bit, and whether the line went low and returned high in time after them. -/
structure SerialReply where
  startHigh : Bool
  word : Nat
  parity : Bool
  endGood : Bool
  deriving DecidableEq, Repr

/-- The memories under ECC (R394, Table 14.6). -/
inductive Memory where
  | sramBank (bank : Fin 8) | engine (eng : Fin 4) | canRam | capture (axis : Fin 4) | staging
  deriving DecidableEq, Repr

/-- A CAN frame as received without error (R460, R467). -/
structure CanFrame where
  /-- The identifier, extended or not. -/
  extended : Bool
  ident : Nat
  /-- Format: 0 classic, 1 CAN FD, 2 CAN XL. -/
  format : Nat
  data : List Byte
  /-- Bit-rate switch, error-state indicator, classic remote frame, XL SEC bit. -/
  brs : Bool
  esi : Bool
  rtr : Bool
  sec : Bool
  /-- XL only: acceptance field, SDU type and VCID. -/
  af : Nat
  sdt : Nat
  vcid : Nat
  /-- Timestamp counter and drive time at the SOF sample point (R472). -/
  stamp : Nat
  sof : Nat
  deriving DecidableEq, Repr

/-- A write of word 0 of a buffer descriptor (Table 17.4): the buffer, and the bits written 1 of those that a 1 clears: 29 NEW of an RX buffer; 26 SENT,
25 EXPIRED and 24 CANCELLED of a TX buffer. -/
structure DescWrite where
  buf : Nat
  clear : Nat
  deriving DecidableEq, Repr

/-- The header of a Halyard frame as received (R487): source position, hops, sequence number, and its CRC. -/
structure FrameHead where
  src : Nat
  hops : Nat
  seq : Nat
  crcOk : Bool
  deriving DecidableEq, Repr

/-- A SYNC frame (R490): drive time, EPOCH, the master's position, the devices seen, and the summed delays of the links before
the last one, in 0.25 ns units. -/
structure SyncFrame where
  time : Nat
  epoch : Nat
  master : Nat
  devices : Nat
  path : Nat
  deriving DecidableEq, Repr

/-- A SHARE frame (R494, R496): the group, run flag, currents and safe-state selection of the sender, and from the master the group
reference, none while its buffer is not VALID. -/
structure ShareFrame where
  group : Fin 4
  run : Bool
  id : Q
  iq : Q
  asc : Bool
  reference : Option Q
  deriving DecidableEq, Repr

/-- The commands of the block: one constructor for each row of the table of operations and events. -/
inductive Instr where
  /-- Release of PORST_N, or of the supply monitors, ends reset and starts cast-on at step 1. (R38) -/
  | porstNRelease
  /-- PORST_N low puts the device in reset from any mode; BOOT follows at release. (R30) -/
  | porstNLow
  /-- A supply falling below its reset threshold returns the device to reset with every output high-impedance. (R53) -/
  | supplyBelowReset (supply : Nat) (volts : Q)
  /-- A supply outside its operating range for 10 µs sets latched trips on every axis and latches SAFE. (R396) -/
  | supplyOutOfRange (supply : Nat) (volts : Q)
  /-- VBAT below 1.70 V for 1 ms raises VBAT_LOW. (R396) -/
  | vbatLow (volts : Q)
  /-- XIN not qualified within 10 ms halts cast-on. (R44) -/
  | xinStartFail
  /-- Completion of a timed cast-on step starts the next step of Table 2.4. (R38) -/
  | castOnStepDone (found : CastOnFindings)
  /-- Cast-on reaches step 15, once EARLY_N has released, and sets MODE to IDLE. (R38) -/
  | castOnDone
  /-- EARLY_N low continuously for 10 ms releases the output drivers. (R54) -/
  | earlyNQualified
  /-- EARLY_N going high tri-states every output and latches SAFE with every axis in FREEWHEEL. (R55) -/
  | earlyRemoval
  /-- A low STO channel that passes its filter forces every gate output low at level 1 and removes GDEN. The operand is how long the low has lasted, in ticks of 10 ns. (R166) -/
  | stoEngaged (src : StoSource) (ticks : Nat)
  /-- A channel high for 5 ms after its filter counts as released. (R168) -/
  | stoReleased (src : StoSource)
  /-- The STO channels differ for 20 ms and the outputs stay locked off. (R169) -/
  | stoDiscrepancy
  /-- FAULT_N low forces the leg or axis off, records FLT_SIDE and sets a latched trip. (R155) -/
  | driverFault (axis : Fin 4) (leg : Fin 3)
  /-- A fast comparator crossing outside blanking takes its REPORT, CBC, LATCH or PATTERN action. The operand is the voltage at its input. (R153) -/
  | cmpTrip (cmp : Fin 24) (volts : Q)
  /-- A delta-sigma fast flag crossing HIGH or LOW takes its action through a clock-free latch. The operand is the fast-filter output. (R154) -/
  | dsfTrip (ch : Fin 16) (value : Q)
  /-- A level-2 latch whose source has been inactive for HANDOVER is released into level 3. (R162) -/
  | handover (axis : Fin 4) (cmps dsfs flts : Nat)
  /-- The missing-edge detector forces every main gate output off within 100 ns of the last PWM clock edge. (R144) -/
  | pwmClockLoss
  /-- A clock monitor declares a clock lost, and the device reacts as Table 1.5 gives. (R19) -/
  | clockLoss (domain : ClockDomain)
  /-- No Backstay liveness toggle for 5 µs removes gate enable on every axis. (R23) -/
  | livenessLoss
  /-- At a valley or peak reload, the pending set transfers, CBC sources are sampled and triggers are raised. (R115) -/
  | carrierReload (axis : Fin 4) (peak : Bool) (cmps dsfs : Nat)
  /-- WD_LIMIT carrier periods without a COMMIT set a latched trip with the safe pattern. (R128) -/
  | pwmWatchdog (axis : Fin 4)
  /-- COMMIT taken from the FABRIC to PWM FIFO snapshots the shadow registers into the pending set. (R124) -/
  | commit (axis : Fin 4) (atReload : Bool)
  /-- A loop engine writes a compare value into the shadow registers. (R124) -/
  | shadowWrite (axis : Fin 4) (reg : ShadowReg) (value : Nat)
  /-- A group member reports its shadow set written for the dispatch. (R227) -/
  | shadowDone (axis : Fin 4)
  /-- The safe-state context writes the axis safe pattern into SAFEPAT. (R141) -/
  | safepatWrite (axis : Fin 4) (pattern : Nat)
  /-- A firmware trip request taken from the FIFO sets a latched trip with the safe pattern. (R149) -/
  | firmwareTripRequest (axis : Fin 4) (cause : Nat)
  /-- The end of an H-edge measurement window produces an edge record with the measured error. The operands are what the sense input showed: its
  level at the H edge, and the taps after it at which that level changed, the fixed input delay taken off. (R131) -/
  | edgeRecord (axis : Fin 4) (leg : Fin 3) (start : Bool) (toggles : List Nat)
  /-- A trigger starts the injected slots carrying its code, aborting or holding conversions as needed. (R178) -/
  | injectedTrigger (code : Nat)
  /-- A completed conversion sends its result record to the consuming engines. On ADC7, `check` says that it was one of the check channels
  (R193). (R182) -/
  | sarResult (conv : Fin 8) (code : Nat) (check : Bool)
  /-- At the first modulator clock edge after a trigger, the sinc3 filter output is sent as a record. `bits` is the channel's data, the newest
  bit first; without a trigger the output is a decimated one for the status word. (R184) -/
  | deltaSigmaEvaluation (ch : Fin 16) (bits : List Bool) (triggered : Bool)
  /-- A missing or off-frequency modulator clock, or an over-long data run, faults the channels; `begins` is false where that cause ends.
  (R185) -/
  | dsModulatorFault (clock : Option (Fin 4)) (ch : Fin 16) (begins : Bool)
  /-- On arrival of its samples, the current-loop context runs its stages and commits a compare set. (R203) -/
  | currentLoopDispatch (axis : Fin 4)
  /-- At the sample deadline with results missing, the context recommits the previous set. (R191) -/
  | sampleMissing (axis : Fin 4)
  /-- Completion of a 1,024-sample zero average updates Z or raises CURRENT_OFFSET_FAULT. (R187) -/
  | currentZeroCalibration (axis : Fin 4) (leg : Fin 3)
  /-- After LS_SETTLE in a conduction interval, ADC7 converts a low-side current pair. The command stands at the second hold instant. (R193) -/
  | lowSidePair (axis : Fin 4) (codeU codeV : Nat)
  /-- Every 1 ms Pair A compares the check-channel results of all converters. (R196) -/
  | plausibilityEvaluation
  /-- A filtered A or B change counts the position up or down and evaluates compare hits. The operands are the levels that A and B have taken,
  in MODES 2 and 4 those of the comparators of COS and SIN, the half of the 10 ns tick, and for how many POSITION clocks they have held.
  (R238) -/
  | quadratureEdge (ifc : Fin 4) (a b half : Bool) (clocks : Nat)
  /-- A qualified index references the interface, or is checked against INDEX_POS and snaps it. The operands are the level that Z has taken and
  for how many POSITION clocks it has held. (R250) -/
  | index (ifc : Fin 4) (rising : Bool) (clocks : Nat)
  /-- A debounced reference-switch edge latches P, or m, and can be a referencing event. The command comes with the edge at the ball; `held` is how
  long the level then holds, in 10 ns. (R252) -/
  | refswLatch (sw : Fin 4) (rising : Bool) (held : Nat)
  /-- A completed serial absolute frame updates the count or counts a frame error. (R246) -/
  | serialFrame (ifc : Fin 4) (reply : SerialReply)
  /-- The position context demodulates a sine/cosine or resolver sample and writes an estimate. (R245) -/
  | positionContextDispatch (ifc : Fin 4)
  /-- At a carrier trigger, the interface latches and sends a five-word snapshot. (R257) -/
  | positionSnapshot (ifc : Fin 4)
  /-- Primary and secondary differing beyond XCHECK_LIMIT for XCHECK_TIME make the secondary ineligible. (R261) -/
  | sourceDisagree (axis : Fin 4)
  /-- Every 100 µs the rotation monitor derives E_line, speed and angle from the phase voltages. (R270) -/
  | monitorRun (axis : Fin 4)
  /-- After COMMIT, the observer updates its back-EMF, injection and PLL estimate. (R276) -/
  | observerDispatch (axis : Fin 4)
  /-- Expiry of RECAPTURE sets a latched trip and hands the axis to the safe-state rule. (R284) -/
  | observerRecaptureFailed (axis : Fin 4)
  /-- At 1 kHz, the tracking context updates the resistance and flux estimates and T_ILIM. (R229) -/
  | trackingRun (axis : Fin 4)
  /-- At each monitor run of a catch, steps 1 to 5 acquire, check and decide whether to wait or synchronise. (R286) -/
  | catchStep (axis : Fin 4)
  /-- Completion of injection and polarity pulses decides the standstill angle or refuses the catch. (R288) -/
  | standstillIdentification (axis : Fin 4) (iPos iNeg : Q)
  /-- End of step 7 releases the axis into its run state or returns it to OFF. (R292) -/
  | settleAndRelease (axis : Fin 4)
  /-- Expiry of CATCH_TIMEOUT during a direction wait returns the axis to OFF. (R290) -/
  | catchTimeout (axis : Fin 4)
  /-- 5 ms after acceptance, AXIS.START is answered while the axis is still in CATCH. (R294) -/
  | axisStartResponse (axis : Fin 4)
  /-- The safe-state context selects FREEWHEEL or ASC and writes SAFEPAT at each dispatch. (R403) -/
  | safeStateRun (axis : Fin 4)
  /-- Every 1 ms Pair A checks a type-a SS1 stop against its envelope and standstill. (R409) -/
  | ss1EnvelopeCheck (axis : Fin 4)
  /-- Expiry of STOP_TIME ends STOPPING in OFF or in ASC with a latched trip. (R410) -/
  | stopDeadlineMissed (axis : Fin 4)
  /-- Speed above 1.05 × SLS_LIMIT for 10 ms, or not reached within STOP_TIME, performs SS1. (R411) -/
  | slsExceeded (axis : Fin 4)
  /-- End of BRAKE_RELEASE_TIME releases the held torque after the brake output switches on. (R413) -/
  | brakeReleaseTime (axis : Fin 4)
  /-- End of BRAKE_ENGAGE_TIME at standstill lets the axis go to OFF with the brake engaged. (R414) -/
  | brakeEngageTime (axis : Fin 4)
  /-- Every 250 µs the Backstay evaluates each axis by its methods against its window. (R417) -/
  | backstayEvaluation
  /-- 20 µs after removal, the gate enable is released into level 3. (R422) -/
  | backstayGateRelease (axis : Fin 4)
  /-- A forbidden gate-ball pattern in SAFE_STATE removes gate enable until a power cycle. `balls` are the levels that the Backstay's
  synchronisers show on UH, UL, VH, VL, WH and WL, bit 0 first: a ball may be held from outside. (R423) -/
  | backstayPattern (axis : Fin 4) (balls : Nat)
  /-- A window frame from Pair A is taken by the Backstay and accepted or rejected. (R418) -/
  | windowFrame (bytes : List Byte)
  /-- No accepted frame for 2.5 ms (1 s with BENCH) takes every axis to its safe state and latches SAFE. (R421) -/
  | backstayFeedLost
  /-- U_dc falling below 60 V ends a resistor or winding discharge. (R427) -/
  | dischargeDone
  /-- U_dc not below 60 V within DISCH_DEADLINE is logged. (R429) -/
  | dischargeTimeout
  /-- A thermal context charges losses and steps the junction networks of its leg. (R353) -/
  | thermalStep (axis : Fin 4) (leg : Fin 3)
  /-- A chain entry in range for 1 s is used again. (R356) -/
  | sensorRestored (axis : Fin 4) (entry : Fin 3)
  /-- Every 1 ms Pair A sets each axis reef level from its causes. (R360) -/
  | reefEvaluation (axis : Fin 4)
  /-- The profile context shapes references and runs the speed and position regulators. (R321) -/
  | profileDispatch (axis : Fin 4)
  /-- The position error held within POS_WINDOW for SETTLE_TIME completes the move. (R328) -/
  | moveDone (axis : Fin 4)
  /-- An auxiliary bridge comparator crossing after BLANK starts the fixed off-time decay. (R335) -/
  | chopperCrossing (bridge : Fin 2) (volts : Q)
  /-- A drive phase lasting OPEN_TIME without a crossing de-energises the channel. (R336) -/
  | auxOpenLoad (bridge : Fin 2)
  /-- The PWM domain issues the next microstep of an auxiliary move. (R338) -/
  | auxMicrostep
  /-- Standstill for HOLD_DELAY reduces the stepper current to I_HOLD. (R337) -/
  | holdDelay
  /-- Standstill for IDLE_OFF de-energises the auxiliary channel. (R339) -/
  | idleOff
  /-- PARK not reached within PARK_TIME de-energises the channel anyway. (R344) -/
  | auxParkIncomplete
  /-- Completion of the capture write-out to the store raises CAPTURE_FROZEN. (R171) -/
  | captureFrozen (axis : Fin 4)
  /-- Both comparators report a mismatch; a failed Pair A leads to the Backstay safe state, a failed Pair B to SS1. (R377) -/
  | coreMismatch (pairB : Bool) (cycle : LockCycle)
  /-- A delay-stage parity failure fails its pair as for CORE_MISMATCH. (R376) -/
  | delayParity (pairB : Bool) (cycle : LockCycle)
  /-- Exactly one comparator reports a mismatch; SS1 on all axes and a run inhibit follow. (R379) -/
  | comparatorDisagree (pairB : Bool) (cycle : LockCycle)
  /-- Every 100 ms one compare group is tested on the spare lanes. (R381) -/
  | runInjection (reports : List (Fin 4 × Fin 4))
  /-- Every 10 ms each lockstep pair stores its registers to the compare-only range. (R382) -/
  | registerSignature (pairB : Bool)
  /-- No completed register signature for 30 ms reacts as COMPARATOR_TEST_FAIL. (R382) -/
  | regsigLate (pairB : Bool)
  /-- At the next 1 ms boundary Pair A takes over the tasks and Pair B comparators are disabled. (R384) -/
  | pairBSplit
  /-- At the boundary after a successful rejoin, the tasks return to Pair B. (R386) -/
  | pairBRejoined
  /-- A debugger halting a core breaks the lockstep of its pair. (R389) -/
  | dbgSplit (pairB : Bool)
  /-- A double-bit memory error reacts as Table 14.6 gives for its memory. (R394) -/
  | eccUncorrectable (mem : Memory) (address : Nat) (ctxs : List Nat) (single : Bool)
  /-- A completed scrub pass can make a Rigger-pool trip source inactive. (R394) -/
  | scrubPass (corrected : List Nat) (stillBad : List Nat)
  /-- Pair A checks each engine's SELFTEST signature and declares failed engines. (R309) -/
  | engineSelftestCheck (bad : Nat)
  /-- A dispatch reaching its worst-case cycle count is aborted. (R302) -/
  | contextOverrun (eng : Fin 4) (ctx : Nat)
  /-- At Tm, the moved contexts dispatch on their new engines and shed axes perform SS1. (R311) -/
  | contextMigrated (badMirrors : Nat)
  /-- A requester waiting beyond STARVE_LIMIT raises FABRIC_STARVED. (R316) -/
  | fabricStarved (requester cycles : Nat)
  /-- An access to an absent unit, a read-only region or an unmapped address is discarded or reads 0. (R317) -/
  | fabricAccessFault (requester : Nat) (address : Nat)
  /-- At Ts, each unit changes to the new set at its boundary and the tack completes. (R103) -/
  | tackSwap
  /-- Completion of the twin copy leaves both slots CURRENT. (R100) -/
  | twinCopyDone
  /-- No heartbeat within the timeout performs SS1 and refuses starts. (R80) -/
  | hostHeartbeatLost
  /-- A Host SPI write to a window register without a row of its own, with its frame checks. (R61) -/
  | registerWrite (opcode : Nat) (address : Nat) (data : List Byte)
  /-- A host write into a mailbox slot, discarded unless the slot is FREE. (R67) -/
  | mailboxWrite (address : Nat) (data : List Byte)
  /-- Writing a DOORBELL_IN bit posts the slot in ring order. (R68) -/
  | doorbellRing (mask : Nat)
  /-- Clearing a DOORBELL_OUT DONE bit returns the slot to FREE. (R67) -/
  | doneClear (mask : Nat)
  /-- W1C of a FAULTSUM bit clears it unless it is set in the same cycle. (R65) -/
  | faultsumClear (mask setNow : Nat)
  /-- W1C of a DOORBELL_OUT source bit updates HOST_ATTN_N. (R64) -/
  | doorbellOutClear (mask setNow : Nat)
  /-- An incomplete segmented MBP-2 frame is discarded 10 ms after its first segment. (R78) -/
  | segmentTimeout
  /-- The end of a 1 s rate-limit window raises the event once with its count. (R586) -/
  | rateLimitWindowEnd (code inst : Nat)
  /-- Returns MODE, FAULTSUM, drive time, reef and generation. (R82) -/
  | sysStatus (slot : Nat)
  /-- Returns the firmware and ROM versions, UNITS and ID. (R82) -/
  | sysVersion (slot : Nat)
  /-- Accepted outside RUN with the confirmation word, it schedules a reset. (R30) -/
  | sysReset (slot : Nat)
  /-- 1 ms after the response of SYS.RESET or a life-cycle advance, the device resets and casts on. (R30) -/
  | resetFollows
  /-- After an authenticated unlock, IDLE moves to SERVICE when its conditions hold. (R540) -/
  | sysServiceEnter (slot : Nat)
  /-- SERVICE exits to IDLE, or to a cast-on when a pair is split. (R392) -/
  | sysServiceExit (slot : Nat)
  /-- Accepted in IDLE, it starts the bind-off sequence. (R46) -/
  | sysBindOff (slot : Nat)
  /-- After the log flush and safe outputs off, PMIC_EN goes low and the device enters SLEEP. (R47) -/
  | bindOffDone
  /-- WAKE_N or the CAN0 wake pattern in SLEEP asserts PMIC_EN and records the cause. (R48) -/
  | wake (can : Bool)
  /-- A wake latched during bind-off reasserts PMIC_EN 10 ms after it went low. (R49) -/
  | wakeLatchedReassert
  /-- Returns drive time and RTC. (R82) -/
  | sysTime (slot : Nat)
  /-- Returns and removes entries from the host event queue. (R81) -/
  | sysEvents (slot : Nat)
  /-- Delivers the host heartbeat on a transport. (R80) -/
  | sysHeartbeat (slot : Nat)
  /-- Erases a configuration slot before it is written. (R84) -/
  | cfgWriteBegin (slot : Nat)
  /-- Writes image data into the slot. (R82) -/
  | cfgWriteData (slot : Nat)
  /-- Checks the written image and leaves the slot CURRENT, PENDING or INVALID. (R90) -/
  | cfgWriteEnd (slot : Nat)
  /-- Returns the generation, digest and difference class of a set or slot. (R89) -/
  | cfgDigest (slot : Nat)
  /-- Loads a PENDING slot into the shadow set through all load checks and placement. (R99) -/
  | cfgStage (slot : Nat)
  /-- Accepts a tack of the shadow set and fixes Ts, or starts a ring tack at the master. (R101) -/
  | cfgTack (slot : Nat)
  /-- Deletes the shadow set and starts a twin copy into the PENDING slot. (R99) -/
  | cfgDiscard (slot : Nat)
  /-- Starts an OFF axis into CATCH, or changes the run state of a running axis. (R591) -/
  | axisStart (slot : Nat)
  /-- AXIS.STOP kind 0 takes the axis to STOPPING along the follower or torque ramp. (R330) -/
  | axisStopRamp (slot : Nat)
  /-- AXIS.STOP kind 1 requests SS1 on the axis. (R407) -/
  | axisStopSs1 (slot : Nat)
  /-- Sets the torque reference of a RUN_TORQUE axis whose source is the host. (R219) -/
  | axisTorque (slot : Nat)
  /-- Replaces the speed reference of a RUN_SPEED axis. (R324) -/
  | axisSpeed (slot : Nat)
  /-- Plans a move, or replaces the target of a running one. (R326) -/
  | axisMove (slot : Nat)
  /-- Plans a move to the target of a held move. (R333) -/
  | axisResume (slot : Nat)
  /-- Returns the axis state, reef and measured quantities. (R82) -/
  | axisStatus (slot : Nat)
  /-- Arms a referencing event from the index or a REFSW latch, claiming the resource. (R110) -/
  | axisReference (slot : Nat)
  /-- Sets the auxiliary target, clearing a fault and energising the channel. (R338) -/
  | auxMove (slot : Nat) (overActive : Bool)
  /-- Stops the auxiliary move and holds it. (R341) -/
  | auxStop (slot : Nat)
  /-- Continues a held auxiliary move. (R341) -/
  | auxResume (slot : Nat) (overActive : Bool)
  /-- Returns the auxiliary position, remaining distance and referencing. (R82) -/
  | auxStatus (slot : Nat)
  /-- Returns the device from SAFE to IDLE when its conditions hold. (R33) -/
  | safeClear (slot : Nat)
  /-- Clears the latched trip of an axis or group when every source is inactive. (R164) -/
  | safeClearTrip (slot : Nat) (clocksGood suppliesGood : Nat)
  /-- Returns the safety functions, safe outputs and Backstay status. (R436) -/
  | safeStatus (slot : Nat)
  /-- Returns the safe-input levels and the active functions. (R82) -/
  | safeInputs (slot : Nat)
  /-- Restarts a light-curtain function whose pair is healthy. (R448) -/
  | safeRestart (slot : Nat)
  /-- Starts a DC-link discharge through the DISCH output. (R427) -/
  | safeDischargeResistor (slot : Nat)
  /-- Starts a DC-link discharge through the windings of an axis. (R428) -/
  | safeDischargeWindings (slot : Nat)
  /-- Returns the newest, oldest and exported indexes and the gaps. (R82) -/
  | logInfo (slot : Nat)
  /-- Returns retained records and starts or continues an export. (R537) -/
  | logRead (slot : Nat)
  /-- Sets the exported index. (R537) -/
  | logExported (slot : Nat)
  /-- Returns the checkpoint of the closed block holding an index. (R529) -/
  | logCheckpoint (slot : Nat)
  /-- Returns the live counters of an axis. (R536) -/
  | logCounters (slot : Nat)
  /-- Returns the controller state, error counts and expiry count. (R82) -/
  | canStatus (slot : Nat)
  /-- Starts bus-off recovery of a host-recovered controller. (R474) -/
  | canRecover (slot : Nat)
  /-- Runs the internal loop-back test of a controller. (R479) -/
  | canSelftestInternal (slot : Nat) (good : Bool)
  /-- Runs the external loop-back test, claiming the balls of the controller. (R479) -/
  | canSelftestExternal (slot : Nat) (good : Bool)
  /-- Returns the ring membership and per-device state. (R82) -/
  | linkStatus (slot : Nat)
  /-- Joins the device to its ring, or refuses with a reason. (R503) -/
  | linkJoin (slot : Nat)
  /-- Ramps the group axes to zero, sends LEAVE and frees the carriers. (R504) -/
  | linkLeave (slot : Nat)
  /-- Returns PASSED, FAILED or SKIPPED per unit number. (R45) -/
  | diagSelftest (slot : Nat)
  /-- Returns words of a DIAG map. (R82) -/
  | diagMapRead (slot : Nat)
  /-- Writes a writable DIAG word in SERVICE, such as a counter clear or compare arming. (R82) -/
  | diagMapWrite (slot : Nat)
  /-- Returns data from the fault-capture store. (R171) -/
  | diagCapture (slot : Nat)
  /-- Requests a split of Pair B with task takeover by Pair A. (R384) -/
  | diagPairBSplit (slot : Nat) (load : Nat)
  /-- Starts the rejoin of Pair B into lockstep. (R386) -/
  | diagPairBRejoin (slot : Nat)
  /-- Issues a nonce of a purpose, replacing any unused one. (R525) -/
  | secChallenge (slot : Nat)
  /-- Verifies a signed nonce to permit SERVICE, open debug or advance to FIELD_RETURN. (R539) -/
  | secUnlock (slot : Nat)
  /-- Clears LOCK and, after ERASE, generates a new log key. (R523) -/
  | secClearLock (slot : Nat)
  /-- Installs a limit certificate after its checks. (R517) -/
  | secCert (slot : Nat)
  /-- Returns LIFECYCLE and the tamper flags. (R82) -/
  | secStatus (slot : Nat)
  /-- The ROM loader erases the named firmware slot. (R83) -/
  | sysLoaderBegin (slot : Nat)
  /-- The ROM loader writes firmware data. (R83) -/
  | sysLoaderData (slot : Nat)
  /-- The ROM loader checks the signature and rollback rules of the written image. (R83) -/
  | sysLoaderEnd (slot : Nat)
  /-- A received frame is filtered and stored to a buffer or FIFO, with E2E checks. (R467) -/
  | canRxFrame (ctl : Fin 4) (frame : CanFrame) (taken : Nat)
  /-- Firmware writes TXREQ to request transmission of a TX buffer. (R470) -/
  | txreq (ctl : Fin 4) (write : DescWrite)
  /-- Firmware requests withdrawal of a TX buffer. (R470) -/
  | cancelReq (ctl : Fin 4) (write : DescWrite) (sending : Bool)
  /-- Firmware sets or clears LOCK of an RX buffer; a clear swaps in a waiting shadow frame. (R468) -/
  | rxLock (ctl : Fin 4) (write : DescWrite) (lock : Bool)
  /-- A frame completes end of frame and its buffer is marked SENT. (R470) -/
  | canTxComplete (ctl : Fin 4) (buf : Nat) (stamp sof : Nat)
  /-- A bus error updates TEC and REC and the confinement state. (R473) -/
  | canBusError (ctl : Fin 4) (transmitter : Bool) (first : Bool) (kind : Nat) (buf : Nat)
  /-- 128 recessive sequences complete bus-off recovery. (R474) -/
  | canRecovered (ctl : Fin 4)
  /-- A pending buffer past its lifetime is withdrawn. (R471) -/
  | txExpired (ctl : Fin 4) (buf : Nat) (sending : Bool)
  /-- No accepted SAFETY frame within TIMEOUT requests SS1 on its axes. (R477) -/
  | e2eTimeout (ctl : Fin 4) (buf : Nat)
  /-- A port completes training and enters UP. (R488) -/
  | linkUp (port : Fin 2)
  /-- Code errors or a missing comma set a port DOWN and can open or split the ring. (R488) -/
  | linkDown (port : Fin 2) (reach : Nat)
  /-- A received TRIP ordered set whose origin bit rises sets a HALYARD latched trip. (R497) -/
  | tripOrderedSet (port : Fin 2) (source mask : Nat)
  /-- A SYNC frame loads drive time on a follower, corrected by the link delays. (R490) -/
  | sync (port : Fin 2) (head : FrameHead) (frame : SyncFrame)
  /-- A neighbour delay request is answered with timestamps. (R490) -/
  | delayReq (port : Fin 2) (head : FrameHead)
  /-- A delay response completes a link-delay measurement. (R490) -/
  | delayRsp (port : Fin 2) (head : FrameHead) (delay : Nat)
  /-- A DIGEST frame is compared with the master digest. (R498) -/
  | digest (port : Fin 2) (head : FrameHead) (generation : Nat) (digest : List Byte) (divergent : Bool)
  /-- A SHARE frame updates the group reference, run weights and balance means. (R494) -/
  | share (port : Fin 2) (head : FrameHead) (frame : ShareFrame)
  /-- No master SHARE frame for SHARE_TIMEOUT ramps the fraction to zero. (R494) -/
  | shareStale
  /-- A follower checks its shadow set and answers TACK_ACK. (R500) -/
  | tackPrepare (port : Fin 2) (head : FrameHead) (generation : Nat) (digest : List Byte)
  /-- The master collects the follower answers and commits or aborts. (R500) -/
  | tackAck (port : Fin 2) (head : FrameHead) (reason : Nat)
  /-- A follower fixes Ts from the named carrier count. (R500) -/
  | tackCommit (port : Fin 2) (head : FrameHead) (carrier : Nat)
  /-- A follower drops its pending ring tack. (R501) -/
  | tackAbort (port : Fin 2) (head : FrameHead)
  /-- An answer missing at 20 ms makes the master abort the ring tack. (R501) -/
  | ringTackTimeout
  /-- 40 ms after its answer without a commit, a follower drops its pending tack. (R501) -/
  | followerTackDrop
  /-- ELECT frames choose the timing master by PRIORITY and UID. (R489) -/
  | elect (port : Fin 2) (head : FrameHead) (priority uid : Nat) (ended : Bool)
  /-- A JOIN frame from a device entering the ring. (R503) -/
  | join (port : Fin 2) (head : FrameHead) (uid : Nat)
  /-- A LEAVE frame removes a device from the ring. (R504) -/
  | leave (port : Fin 2) (head : FrameHead)
  /-- A best-effort SERVICE frame for drive-firmware Halyard services. (R487) -/
  | serviceFrame (port : Fin 2) (head : FrameHead) (payload : List Byte)
  /-- A filtered safe-input change makes a function active or healthy. The command is the sample of SI0 to SI15 every 10 µs, by the first and the
  second sampler path. (R438, R443) -/
  | safeInputSample (a b : Nat)
  /-- Channels differing for DISCREPANCY lock the function active. (R443) -/
  | siDiscrepancy (fn : Fin 8) (button2 : Bool)
  /-- A TP pulse tests its assigned inputs for shorts: its start, or the end of its window. (R440) -/
  | testPulse (pulse : Fin 4) (ends : Bool)
  /-- A second button later than 0.5 s withholds the permission. (R447) -/
  | twoHandSync (fn : Fin 8)
  /-- Every 1 ms Pair A recomputes the functions and compares them with the unit; `agree` is what it finds. (R441) -/
  | safeInCrossCheck (agree : Bool)
  /-- Once per second each output that is on is switched off for PULSE: the start or the end of the pulse. (R451) -/
  | soPulse (out : Fin 4) (ends : Bool)
  /-- A readback not matching within its window switches the output off permanently. The command is a look at the ball SOFBn. (R451) -/
  | soReadbackFail (out : Fin 4) (level : Bool)
  /-- A committed record is written from the staging RAM to the log region; the operands are the seconds that an erase and the program take. (R531) -/
  | logFlush (erase program : Q)
  /-- No accepted store write for STALL_TIME applies LOCK. (R532) -/
  | logStall
  /-- Completion of a block checkpoint signature writes CKPT_R and CKPT_S. (R529) -/
  | checkpointSigned
  /-- A COUNTERS record is written every COUNTER_PERIOD. (R536) -/
  | countersRecord
  /-- 10 s without LOG.READ or LOG.EXPORTED ends the export. (R538) -/
  | exportTimeout
  /-- A mesh sample mismatching in 2 samples performs ERASE: one sample of a mesh. (R520) -/
  | tamperMesh (mesh1 differs : Bool)
  /-- The die light sensor performs ERASE. (R520) -/
  | tamperLight
  /-- An enclosure switch open for 4 samples applies LOCK or ERASE. (R520) -/
  | tamperEnclosure (enc1 level : Bool)
  /-- A die temperature out of range in 2 samples applies LOCK. (R520) -/
  | tamperTemperature (celsius : Q)
  /-- A supply or clock glitch suspends the keys, trips every axis and latches SAFE. (R521) -/
  | tamperGlitch (clock : Bool)
  /-- Once every axis is in FREEWHEEL or discharged, the security controller resets the device. (R521) -/
  | glitchReset
  /-- A debugger halt request is served, deferred for SS1 or preceded by takeover. (R390) -/
  | debugHalt (pairB : Bool) (load : Nat)
  /-- A PLL not locked within 1 ms of XIN qualification, or a clock monitor failing its forced test, halts cast-on with CLOCK_LOSS. (R44) -/
  | pllLockTimeout
  /-- A STO channel going high after its filter starts the 5 ms qualification and switches GDEN_A and GDEN_B on again. (R168) -/
  | stoQualifying (src : StoSource)
  /-- A driver fault input returning high clears its DRVFLT bit and starts the inactivity that HANDOVER and the clear test need. (R155) -/
  | faultNHigh (axis : Fin 4) (leg : Fin 3)
  /-- A DOWN Halyard port that sees 64 consecutive valid commas enters TRAINING. (R488) -/
  | linkTraining (port : Fin 2)
  /-- 11 consecutive recessive bits end protocol exception, self-test or RAM-fault stop, and bring a controller onto the bus. (R460) -/
  | busIntegration (ctl : Fin 4)
  /-- A current-loop reservation that has not started 1 µs after the sample deadline declares its engine failed. (R309) -/
  | reservationNotStarted (eng : Fin 4)
  /-- Completion of part L on the Pair B groups during a rejoin lets the rejoin go on, or ends it with COMPARATOR_TEST_FAIL. (R387) -/
  | rejoinPartL (failed : Option (Fin 32))
  /-- The debugger releases a halted core, which resumes unchecked until rejoin or cast-on. (R392) -/
  | debugRelease (pairB : Bool)
  /-- End of BLANK in an auxiliary drive phase checks I_TRIP for overcurrent and starts the decay at once if the comparator is already active. (R336) -/
  | blankEnd (bridge : Fin 2) (volts : Q)
  /-- End of the fixed off-time TOFF starts the next drive phase of an auxiliary bridge. (R335) -/
  | toffEnd (bridge : Fin 2)
  /-- In MODE 2, the run time of an AUX.MOVE running out stops the DC actuator. (R342) -/
  | auxRunTimeEnd
  /-- T_PULL after a solenoid is switched on, its current drops from I_RUN to I_HOLD. (R343) -/
  | tPullElapsed (solenoid : Fin 2)
  /-- A long mailbox command, such as a slot erase, verification, stage or join, completes, sends its response and releases the later commands of its group. (R73) -/
  | longCommandComplete (slot : Nat)
  /-- After 1,024 crystal cycles within ±2 % of 32.768 kHz, the AON domain changes from the RC oscillator to the X32 crystal. (R562) -/
  | x32CrystalSwitch
  /-- VBAT and VDD18 both out of range lose the staging RAM and key-register retention, which the canary finds at the next cast-on. (R562) -/
  | vbatLoss
  /-- A fuse write through the open debug port advances LIFECYCLE to PRODUCTION or SCRAPPED, blowing the identity key at SCRAPPED. (R509) -/
  | lifecycleFuseWrite (scrapped : Bool)
  deriving DecidableEq, Repr

end Sys2Proof
end

