-- ==== Sys2Proof/Machine/Bits.lean ====
section
/-! DEFINITION. Bit fields, little-endian bytes (R60, R71) and the binary32 format (R8). -/
namespace Sys2Proof.Machine
open Sys2Proof

/-- The number of a flag. -/
def ofFlag (b : Bool) : Nat := if b then 1 else 0

/-- Bits `lo` to `lo + width - 1` of a number. -/
def bitsOf (v lo width : Nat) : Nat := (v >>> lo) % 2 ^ width

/-- Bit `n` of a number. -/
def bitAt (v n : Nat) : Bool := v.testBit n

/-- The number with value `x` placed in the field of `width` bits at `lo`; a value too wide is cut to the field. -/
def place (x lo width : Nat) : Nat := (x % 2 ^ width) <<< lo

/-- A saturating counter of `width` bits (R173, R147: counters saturate). -/
def satInc (width n : Nat) : Nat := if n + 1 < 2 ^ width then n + 1 else 2 ^ width - 1

/-- The mask with bit `n` set or clear as `b` says. -/
def setBit (mask n : Nat) (b : Bool) : Nat :=
  if b then mask ||| (1 <<< n) else mask &&& ((2 ^ (max mask.log2 n + 1) - 1) ^^^ (1 <<< n))

/-- The low `k` bytes of a number, little-endian. -/
def leBytes : Nat → Nat → List Byte
  | 0, _ => []
  | k + 1, v => BitVec.ofNat 8 v :: leBytes k (v / 256)

/-- The number that little-endian bytes spell. -/
def leNat : List Byte → Nat
  | [] => 0
  | b :: bs => b.toNat + 256 * leNat bs

/-- The number that big-endian bytes spell (ECDSA r and s, R88). -/
def beNat (bs : List Byte) : Nat := leNat bs.reverse

/-- `k` bytes of a number, big-endian. -/
def beBytes (k v : Nat) : List Byte := (leBytes k v).reverse

/-- `n` bytes from offset `off`; bytes beyond the end are not there. -/
def slice (bs : List Byte) (off n : Nat) : List Byte := (bs.drop off).take n

/-- `n` bytes from offset `off`, with zeros for bytes beyond the end. -/
def sliceZ (bs : List Byte) (off n : Nat) : List Byte :=
  let t := slice bs off n
  t ++ List.replicate (n - t.length) 0

/-- The unsigned little-endian field of `n` bytes at `off`. -/
def fieldU (bs : List Byte) (off n : Nat) : Nat := leNat (slice bs off n)

/-- A number of `bits` bits read as two's complement. -/
def signedOf (bits v : Nat) : Int := if v % 2 ^ bits < 2 ^ (bits - 1) then ((v % 2 ^ bits : Nat) : Int) else ((v % 2 ^ bits : Nat) : Int) - ((2 ^ bits : Nat) : Int)

/-- The two's complement bits of an integer. -/
def unsignedOf (bits : Nat) (i : Int) : Nat := (i % ((2 ^ bits : Nat) : Int)).toNat

/-- The signed little-endian field of `n` bytes at `off`. -/
def fieldI (bs : List Byte) (off n : Nat) : Int := signedOf (8 * n) (fieldU bs off n)

/-- A power of two with an integer exponent. -/
def pow2 (e : Int) : Q := if 0 ≤ e then ((2 ^ e.toNat : Nat) : Q) else 1 / ((2 ^ (-e).toNat : Nat) : Q)

/-- The value of binary32 bits; none for an infinity or a NaN (R8, R87). -/
def f32Value (w : Nat) : Option Q :=
  let sign : Q := if bitAt w 31 then -1 else 1
  let ex := bitsOf w 23 8
  let man := bitsOf w 0 23
  if ex = 255 then none
  else if ex = 0 then some (sign * (man : Q) * pow2 (-149))
  else some (sign * ((man + 2 ^ 23 : Nat) : Q) * pow2 ((ex : Int) - 150))

/-- A binary32 value is subnormal (R87). -/
def f32Subnormal (w : Nat) : Bool := bitsOf w 23 8 == 0 && bitsOf w 0 23 != 0

/-- The binary32 field at `off`, 0 where it holds no number. -/
def fieldF (bs : List Byte) (off : Nat) : Q := (f32Value (fieldU bs off 4)).getD 0

/-- The nearest whole number, a half rounded to even. -/
def roundEven (q : Q) : Int :=
  let f := q.floor
  let r := q - (f : Q)
  if r < 1 / 2 then f else if 1 / 2 < r then f + 1 else if f % 2 = 0 then f else f + 1

/-- The nearest whole number, a half rounded away from zero downwards of the floor of `q + 1/2`. -/
def roundHalfUp (q : Q) : Int := (q + 1 / 2).floor

/-- The absolute value of a quantity. -/
def qabs (q : Q) : Q := if q < 0 then -q else q

/-- The larger and the smaller of two quantities. -/
def qmax (a b : Q) : Q := if a < b then b else a
def qmin (a b : Q) : Q := if b < a then b else a

/-- A quantity held between two bounds. -/
def qclamp (lo hi x : Q) : Q := qmax lo (qmin hi x)

/-- A quantity held within ±`m`. -/
def qlimit (m x : Q) : Q := qclamp (-m) m x

/-- The sign of a quantity, 0 at zero. -/
def qsign (q : Q) : Q := if q < 0 then -1 else if 0 < q then 1 else 0

/-- The exponent of a positive quantity: the e with 2^e ≤ q < 2^(e+1). -/
def qlog2 (q : Q) : Int :=
  let e : Int := (q.num.natAbs.log2 : Int) - (q.den.log2 : Int)
  if q < pow2 e then e - 1 else if pow2 (e + 1) ≤ q then e + 1 else e

/-- The binary32 bits nearest to a quantity (IEEE 754 round to nearest even; overflow gives the infinity). -/
def f32Bits (q : Q) : Nat :=
  if q = 0 then 0 else
  let s := if q < 0 then 2 ^ 31 else 0
  let a := qabs q
  let e := max (qlog2 a) (-126)
  let m := (roundEven (a / pow2 (e - 23))).toNat
  let raw := if m < 2 ^ 23 then m else (e + 126).toNat * 2 ^ 23 + m
  s + min raw (255 * 2 ^ 23)

/-- A quantity as four bytes of a payload. -/
def f32Bytes (q : Q) : List Byte := leBytes 4 (f32Bits q)

/-- A quantity as the binary32 nearest to it. -/
def f32Round (q : Q) : Q := (f32Value (f32Bits q)).getD q

/-- Writes bytes over the bytes at `off`, growing the list with zeros where it is short. -/
def overlay (base : List Byte) (off : Nat) (bs : List Byte) : List Byte :=
  let base' := base ++ List.replicate (off - base.length) 0
  base'.take off ++ bs ++ base'.drop (off + bs.length)

/-- Updates one entry of a fixed group of units. -/
def vupd {α : Type} {n : Nat} (v : Vector α n) (i : Fin n) (f : α → α) : Vector α n := v.set i.val (f v[i.val]) i.isLt

/-- Updates entry `i` of a list, where it has one. -/
def lupd {α : Type} : List α → Nat → (α → α) → List α
  | [], _, _ => []
  | a :: as, 0, f => f a :: as
  | a :: as, i + 1, f => a :: lupd as i f

/-- An element put before the first one that it does not come after. -/
def insertBy {α : Type} (le : α → α → Bool) (a : α) : List α → List α
  | [] => [a]
  | x :: xs => if le a x then a :: x :: xs else x :: insertBy le a xs

/-- A list in order; elements of one place keep theirs. -/
def sortBy {α : Type} (le : α → α → Bool) (xs : List α) : List α := xs.foldr (insertBy le) []

end Sys2Proof.Machine
end

