-- ==== Sys2Proof/Machine/Checksum.lean ====
section
/-! DEFINITION. The check codes of the mailbox frames (R70, Table 3.16) and SHA-256 (FIPS 180-4), by which images,
records and certificates are digested (R89, R512, R515, R527). -/
namespace Sys2Proof.Machine
open Sys2Proof

/-- Bits of one byte, shifted into the CRC-16/CCITT register. -/
def crc16Bits : Nat → Half → Half
  | 0, c => c
  | k + 1, c => crc16Bits k (if c.msb then (c <<< 1) ^^^ 0x1021#16 else c <<< 1)

/-- CRC-16/CCITT of MBP-1 (Table 3.16): polynomial 0x1021, initial 0xFFFF, not reflected. -/
def crc16 (bs : List Byte) : Half :=
  bs.foldl (fun c b => crc16Bits 8 (c ^^^ ((b.setWidth 16 : Half) <<< 8))) 0xFFFF#16

/-- Bits of one byte, shifted out of a reflected CRC register. -/
def crc32Bits (poly : Word) : Nat → Word → Word
  | 0, c => c
  | k + 1, c => crc32Bits poly k (if c.getLsbD 0 then (c >>> 1) ^^^ poly else c >>> 1)

/-- CRC-32C of MBP-2 (Table 3.16): polynomial 0x1EDC_6F41 reflected, initial and final XOR all ones. -/
def crc32c (bs : List Byte) : Word :=
  bs.foldl (fun c b => crc32Bits 0x82F63B78#32 8 (c ^^^ (b.setWidth 32 : Word))) 0xFFFFFFFF#32 ^^^ 0xFFFFFFFF#32

/-- The round constants of SHA-256 (FIPS 180-4, section 4.2.2). -/
def shaK : List Word :=
  [0x428a2f98#32, 0x71374491#32, 0xb5c0fbcf#32, 0xe9b5dba5#32, 0x3956c25b#32, 0x59f111f1#32, 0x923f82a4#32, 0xab1c5ed5#32,
   0xd807aa98#32, 0x12835b01#32, 0x243185be#32, 0x550c7dc3#32, 0x72be5d74#32, 0x80deb1fe#32, 0x9bdc06a7#32, 0xc19bf174#32,
   0xe49b69c1#32, 0xefbe4786#32, 0x0fc19dc6#32, 0x240ca1cc#32, 0x2de92c6f#32, 0x4a7484aa#32, 0x5cb0a9dc#32, 0x76f988da#32] ++
  [0x983e5152#32, 0xa831c66d#32, 0xb00327c8#32, 0xbf597fc7#32, 0xc6e00bf3#32, 0xd5a79147#32, 0x06ca6351#32, 0x14292967#32,
   0x27b70a85#32, 0x2e1b2138#32, 0x4d2c6dfc#32, 0x53380d13#32, 0x650a7354#32, 0x766a0abb#32, 0x81c2c92e#32, 0x92722c85#32,
   0xa2bfe8a1#32, 0xa81a664b#32, 0xc24b8b70#32, 0xc76c51a3#32, 0xd192e819#32, 0xd6990624#32, 0xf40e3585#32, 0x106aa070#32] ++
  [0x19a4c116#32, 0x1e376c08#32, 0x2748774c#32, 0x34b0bcb5#32, 0x391c0cb3#32, 0x4ed8aa4a#32, 0x5b9cca4f#32, 0x682e6ff3#32,
   0x748f82ee#32, 0x78a5636f#32, 0x84c87814#32, 0x8cc70208#32, 0x90befffa#32, 0xa4506ceb#32, 0xbef9a3f7#32, 0xc67178f2#32]

/-- The eight working words of SHA-256. -/
structure ShaWords where
  a : Word
  b : Word
  c : Word
  d : Word
  e : Word
  f : Word
  g : Word
  h : Word
  deriving DecidableEq, Repr

/-- The initial hash value of SHA-256 (FIPS 180-4, section 5.3.3). -/
def shaInit : ShaWords :=
  { a := 0x6a09e667#32, b := 0xbb67ae85#32, c := 0x3c6ef372#32, d := 0xa54ff53a#32
    e := 0x510e527f#32, f := 0x9b05688c#32, g := 0x1f83d9ab#32, h := 0x5be0cd19#32 }

/-- The next word of the message schedule, from the sixteen words before it (newest first). -/
def shaNextW (ws : List Word) : Word :=
  let w (i : Nat) : Word := ws.getD i 0#32
  let s0 := (w 14).rotateRight 7 ^^^ (w 14).rotateRight 18 ^^^ (w 14 >>> 3)
  let s1 := (w 1).rotateRight 17 ^^^ (w 1).rotateRight 19 ^^^ (w 1 >>> 10)
  w 15 + s0 + w 6 + s1

/-- One round of SHA-256. -/
def shaRound (k w : Word) (v : ShaWords) : ShaWords :=
  let s1 := v.e.rotateRight 6 ^^^ v.e.rotateRight 11 ^^^ v.e.rotateRight 25
  let ch := (v.e &&& v.f) ^^^ (~~~v.e &&& v.g)
  let t1 := v.h + s1 + ch + k + w
  let s0 := v.a.rotateRight 2 ^^^ v.a.rotateRight 13 ^^^ v.a.rotateRight 22
  let mj := (v.a &&& v.b) ^^^ (v.a &&& v.c) ^^^ (v.b &&& v.c)
  { a := t1 + (s0 + mj), b := v.a, c := v.b, d := v.c, e := v.d + t1, f := v.e, g := v.f, h := v.g }

/-- The rounds over the constants that remain: `ahead` holds message words not used yet, `back` the last sixteen. -/
def shaRounds : List Word → List Word → List Word → ShaWords → ShaWords
  | [], _, _, v => v
  | k :: ks, w :: ahead, back, v => shaRounds ks ahead (w :: back) (shaRound k w v)
  | k :: ks, [], back, v =>
    let w := shaNextW back
    shaRounds ks [] (w :: back.take 15) (shaRound k w v)

/-- The sixteen big-endian words of one block. -/
def shaBlockWords : Nat → List Byte → List Word
  | 0, _ => []
  | k + 1, bs => BitVec.ofNat 32 (beNat (bs.take 4)) :: shaBlockWords k (bs.drop 4)

/-- One 64-byte block taken into the hash value. -/
def shaBlock (v : ShaWords) (bs : List Byte) : ShaWords :=
  let r := shaRounds shaK (shaBlockWords 16 bs) [] v
  { a := v.a + r.a, b := v.b + r.b, c := v.c + r.c, d := v.d + r.d, e := v.e + r.e, f := v.f + r.f, g := v.g + r.g, h := v.h + r.h }

/-- All blocks of a padded message, with their number as fuel. -/
def shaBlocks : Nat → List Byte → ShaWords → ShaWords
  | 0, _, v => v
  | k + 1, bs, v => shaBlocks k (bs.drop 64) (shaBlock v (bs.take 64))

/-- The message with the padding of FIPS 180-4, section 5.1.1. -/
def shaPad (bs : List Byte) : List Byte :=
  let n := bs.length
  bs ++ [0x80#8] ++ List.replicate ((119 - n % 64) % 64) 0#8 ++ beBytes 8 (8 * n)

/-- SHA-256, 32 bytes. -/
def sha256 (bs : List Byte) : List Byte :=
  let p := shaPad bs
  let v := shaBlocks (p.length / 64) p shaInit
  [v.a, v.b, v.c, v.d, v.e, v.f, v.g, v.h].flatMap fun w => beBytes 4 w.toNat

end Sys2Proof.Machine
end

