-- ==== Sys2Proof/Machine/Ecdsa.lean ====
section
/-! DEFINITION. ECDSA on P-256 as the security controller verifies and makes it (FIPS 186-5, RFC 6979: R88, R512, R588). -/
namespace Sys2Proof.Machine
open Sys2Proof

/-- The prime, the order and the curve constant of P-256 (FIPS 186-5; named by the spec, not printed in it: log entry 4). -/
def p256P : Nat := 0xffffffff00000001000000000000000000000000ffffffffffffffffffffffff
def p256N : Nat := 0xffffffff00000000ffffffffffffffffbce6faada7179e84f3b9cac2fc632551
def p256B : Nat := 0x5ac635d8aa3a93e7b3ebbd55769886bc651d06b0cc53b0f63bce3c3e27d2604b

/-- A point of the curve; none is the point at infinity. -/
abbrev CurvePoint := Option (Nat × Nat)

/-- The base point. -/
def p256G : CurvePoint :=
  some (0x6b17d1f2e12c4247f8bce6e563a440f277037d812deb33a0f4a13945d898c296, 0x4fe342e2fe1a7f9b8ee7eb4a7c0f9e162bce33576b315ececbb6406837bf51f5)

/-- `b ^ e mod m`, over the `k` low bits of `e` (square and multiply). -/
def modPow (m : Nat) : Nat → Nat → Nat → Nat
  | 0, _, _ => 1 % m
  | k + 1, b, e => (if e % 2 = 1 then b else 1) * modPow m k (b * b % m) (e / 2) % m

/-- The inverse modulo a prime of 256 bits. -/
def modInv (m a : Nat) : Nat := modPow m 256 (a % m) (m - 2)

/-- Subtraction modulo `m`. -/
def modSub (m a b : Nat) : Nat := (a % m + (m - b % m)) % m

/-- Addition of two points. -/
def pointAdd (p q : CurvePoint) : CurvePoint :=
  match p, q with
  | none, q => q
  | p, none => p
  | some (x1, y1), some (x2, y2) =>
    if x1 = x2 ∧ (y1 + y2) % p256P = 0 then none else
    let l := if x1 = x2 then (modSub p256P (3 * x1 * x1) 3) * modInv p256P (2 * y1) % p256P
      else modSub p256P y2 y1 * modInv p256P (modSub p256P x2 x1) % p256P
    let x3 := modSub p256P (l * l) (x1 + x2)
    some (x3, modSub p256P (l * modSub p256P x1 x3) y1)

/-- A multiple of a point, over the `k` low bits of the factor. -/
def pointMul : Nat → Nat → CurvePoint → CurvePoint
  | 0, _, _ => none
  | k + 1, n, p => let r := pointMul k (n / 2) (pointAdd p p); if n % 2 = 1 then pointAdd p r else r

/-- The point that a 64-byte public key names, where it lies on the curve (x then y, R512). -/
def pubPoint (key : List Byte) : CurvePoint :=
  let x := beNat (slice key 0 32)
  let y := beNat (slice key 32 32)
  if x < p256P ∧ y < p256P ∧ (y * y) % p256P = (x * x * x + (p256P - 3) * x + p256B) % p256P then some (x, y) else none

/-- A 64-byte signature (r then s, big-endian) over a 32-byte digest verifies under a public key. -/
def ecdsaVerify (key digest sig : List Byte) : Bool :=
  let r := beNat (slice sig 0 32)
  let s := beNat (slice sig 32 32)
  let z := beNat digest
  match pubPoint key with
  | none => false
  | some q =>
    if sig.length = 64 ∧ 0 < r ∧ r < p256N ∧ 0 < s ∧ s < p256N then
      let w := modInv p256N s
      match pointAdd (pointMul 256 (z * w % p256N) p256G) (pointMul 256 (r * w % p256N) (some q)) with
      | none => false
      | some (x, _) => x % p256N == r
    else false

/-- The curve points of an x coordinate, if it has any: p is 3 modulo 4, so a square root is a power. -/
def liftX (x : Nat) : List (Nat × Nat) :=
  if p256P ≤ x then [] else
  let c := (x * x * x + (p256P - 3) * x + p256B) % p256P
  let y := modPow p256P 256 c ((p256P + 1) / 4)
  if y * y % p256P = c then [(x, y), (x, (p256P - y) % p256P)] else []

/-- Every public key under which a signature of a digest verifies. A key of which only the hash is known (the return key, R542) has
signed where one of these has that hash. -/
def ecdsaKeys (digest sig : List Byte) : List (List Byte) :=
  let r := beNat (slice sig 0 32)
  let s := beNat (slice sig 32 32)
  if sig.length = 64 ∧ 0 < r ∧ r < p256N ∧ 0 < s ∧ s < p256N then
    let w := modInv p256N r
    let base := pointMul 256 ((p256N - beNat digest % p256N) * w % p256N) p256G
    (liftX r ++ liftX (r + p256N)).filterMap fun q =>
      (pointAdd base (pointMul 256 (s * w % p256N) (some q))).map fun k => beBytes 32 k.1 ++ beBytes 32 k.2
  else []

/-- The public key of a private key, 64 bytes. -/
def ecdsaPub (d : Nat) : List Byte :=
  match pointMul 256 d p256G with
  | none => List.replicate 64 0
  | some (x, y) => beBytes 32 x ++ beBytes 32 y

/-- HMAC with SHA-256, for a key of at most 64 bytes. -/
def hmac (key msg : List Byte) : List Byte :=
  let k := key ++ List.replicate (64 - key.length) 0
  sha256 (k.map (· ^^^ 0x5C#8) ++ sha256 (k.map (· ^^^ 0x36#8) ++ msg))

/-- RFC 6979, section 3.2, step h: the signature of the first value in range, over at most `fuel` values. -/
def rfc6979Try (d z : Nat) : Nat → List Byte → List Byte → List Byte
  | 0, _, _ => List.replicate 64 0
  | fuel + 1, k, v =>
    let v1 := hmac k v
    let n := beNat v1
    let again := fun (_ : Unit) => let k' := hmac k (v1 ++ [0#8]); rfc6979Try d z fuel k' (hmac k' v1)
    if 0 < n ∧ n < p256N then
      match pointMul 256 n p256G with
      | none => again ()
      | some (x, _) =>
        let r := x % p256N
        let s := modInv p256N n * (z + r * d) % p256N
        if r = 0 ∨ s = 0 then again () else beBytes 32 r ++ beBytes 32 s
    else again ()

/-- The deterministic signature of a digest (R588, RFC 6979 with SHA-256): 64 bytes, r then s. -/
def ecdsaSign (d : Nat) (digest : List Byte) : List Byte :=
  let z := beNat digest % p256N
  let x := beBytes 32 d ++ beBytes 32 z
  let v0 := List.replicate 32 (1#8)
  let k1 := hmac (List.replicate 32 0#8) (v0 ++ [0#8] ++ x)
  let v1 := hmac k1 v0
  let k2 := hmac k1 (v1 ++ [1#8] ++ x)
  rfc6979Try d z 64 k2 (hmac k2 v1)

end Sys2Proof.Machine
end

