-- ==== Sys2Proof/Machine/Events.lean ====
section
/-! DEFINITION. The code space of release 3.2 (R580, Table 22.1) and the severities (R581). -/
namespace Sys2Proof.Machine
open Sys2Proof

def evCastOnDone : Nat := 0x0101
def evBistFail : Nat := 0x0102
def evFwSlotFallback : Nat := 0x0103
def evNoValidFirmware : Nat := 0x0104
def evXinStartFail : Nat := 0x0105
def evNoValidConfig : Nat := 0x0106
def evEarlyRemoval : Nat := 0x0107
def evUncleanShutdown : Nat := 0x0108
def evBindOffDone : Nat := 0x0109
def evWake : Nat := 0x010A
def evMotionAtWake : Nat := 0x010B
def evCrcError : Nat := 0x0110
def evBadLength : Nat := 0x0111
def evUnknownCommand : Nat := 0x0112
def evFrameTooLong : Nat := 0x0113
def evTagInUse : Nat := 0x0114
def evModeRefused : Nat := 0x0115
def evUnitAbsent : Nat := 0x0116
def evBadParameter : Nat := 0x0117
def evAuthRequired : Nat := 0x0118
def evHostHeartbeatLost : Nat := 0x0119
def evEventQueueOverflow : Nat := 0x011A
def evHspiFrameError : Nat := 0x011B
def evImageInvalid : Nat := 0x011C
def evCfgBadFormat : Nat := 0x0201
def evCfgBadSignature : Nat := 0x0202
def evCfgNotCanonical : Nat := 0x0203
def evCfgUnitAbsent : Nat := 0x0204
def evCfgRange : Nat := 0x0205
def evCfgConsistency : Nat := 0x0206
def evCfgLimitRaised : Nat := 0x0207
def evResourceConflict : Nat := 0x0208
def evResourceBusy : Nat := 0x0209
def evCfgGeneration : Nat := 0x020A
def evCfgDiffLatent : Nat := 0x020B
def evCfgDiffLive : Nat := 0x020C
def evCfgSlotInvalid : Nat := 0x020D
def evTackDone : Nat := 0x020E
def evTackRefused : Nat := 0x020F
def evTackAborted : Nat := 0x0210
def evTwinCopyDone : Nat := 0x0211
def evLateCommit : Nat := 0x0301
def evCommitOverrun : Nat := 0x0302
def evPeriodClamped : Nat := 0x0303
def evEdgeMissing : Nat := 0x0304
def evSenseNoisy : Nat := 0x0305
def evPwmWatchdog : Nat := 0x0306
def evCbcTrip : Nat := 0x0307
def evCbcEscalated : Nat := 0x0308
def evCmpTrip : Nat := 0x0309
def evCmpReport : Nat := 0x030A
def evDsfTrip : Nat := 0x030B
def evDriverFault : Nat := 0x030C
def evHalyardTrip : Nat := 0x030D
def evStoEngaged : Nat := 0x030E
def evStoDiscrepancy : Nat := 0x030F
def evStoReleased : Nat := 0x0310
def evClearRefusedSourceActive : Nat := 0x0311
def evTripCleared : Nat := 0x0312
def evCaptureFrozen : Nat := 0x0313
def evSampleMissing : Nat := 0x0401
def evSampleLost : Nat := 0x0402
def evConverterImplausible : Nat := 0x0403
def evCheckUnresolved : Nat := 0x0404
def evCurrentSum : Nat := 0x0405
def evCurrentOverrange : Nat := 0x0406
def evCurrentOffsetFault : Nat := 0x0407
def evDsModulatorFault : Nat := 0x0408
def evLegCurrentMismatch : Nat := 0x0409
def evAbnormalKe : Nat := 0x0501
def evWrongMotor : Nat := 0x0502
def evRsImplausible : Nat := 0x0503
def evFwExhausted : Nat := 0x0504
def evCurrentTracking : Nat := 0x0505
def evCatchOverspeed : Nat := 0x0506
def evCatchSourceConflict : Nat := 0x0507
def evCatchTimeout : Nat := 0x0508
def evCatchNoAngle : Nat := 0x0509
def evCatchComplete : Nat := 0x050A
def evObserverLost : Nat := 0x050B
def evObserverRecaptured : Nat := 0x050C
def evObserverRecaptureFailed : Nat := 0x050D
def evMotionWithoutSensor : Nat := 0x050E
def evMoveDone : Nat := 0x050F
def evFollowingError : Nat := 0x0510
def evMoveHeld : Nat := 0x0511
def evMoveDiscarded : Nat := 0x0512
def evNotReferenced : Nat := 0x0513
def evAuxMoveDone : Nat := 0x0514
def evAuxOvercurrent : Nat := 0x0515
def evAuxOpenLoad : Nat := 0x0516
def evAuxReferenced : Nat := 0x0517
def evAuxPositionLost : Nat := 0x0518
def evAuxParkIncomplete : Nat := 0x0519
def evAuxMoveDiscarded : Nat := 0x051A
def evIndexReferenced : Nat := 0x0601
def evIndexOutOfWindow : Nat := 0x0602
def evIndexMissing : Nat := 0x0603
def evSincosAmplitude : Nat := 0x0604
def evSerialFrameError : Nat := 0x0605
def evPositionFault : Nat := 0x0606
def evPositionSourceNone : Nat := 0x0607
def evSourceDisagree : Nat := 0x0608
def evSourceRestored : Nat := 0x0609
def evCompareOverrun : Nat := 0x060A
def evEmuOverspeed : Nat := 0x060B
def evReefChange : Nat := 0x0701
def evSensorIgnored : Nat := 0x0702
def evSensorRestored : Nat := 0x0703
def evSensorChainExhausted : Nat := 0x0704
def evOvertempStop : Nat := 0x0705
def evLowTempLimit : Nat := 0x0706
def evColdInhibit : Nat := 0x0707
def evWarmupDone : Nat := 0x0708
def evCoreMismatch : Nat := 0x0801
def evDelayParity : Nat := 0x0802
def evComparatorDisagree : Nat := 0x0803
def evComparatorTestFail : Nat := 0x0804
def evRegsigLate : Nat := 0x0805
def evPairBSplit : Nat := 0x0806
def evPairBRejoined : Nat := 0x0807
def evDbgSplit : Nat := 0x0808
def evEccCorrected : Nat := 0x0809
def evEccUncorrectable : Nat := 0x080A
def evClockLoss : Nat := 0x080B
def evSupplyOutOfRange : Nat := 0x080C
def evVbatLow : Nat := 0x080D
def evSs1RampViolation : Nat := 0x0901
def evStopDeadlineMissed : Nat := 0x0902
def evSlsExceeded : Nat := 0x0903
def evSdiViolation : Nat := 0x0904
def evBackstayViolation : Nat := 0x0905
def evBackstayFeedLost : Nat := 0x0906
def evBackstayFrameRejected : Nat := 0x0907
def evBackstayPattern : Nat := 0x0908
def evBackstayBlind : Nat := 0x0909
def evSafeStateDegraded : Nat := 0x090A
def evAscHandover : Nat := 0x090B
def evIdleOverspeed : Nat := 0x090C
def evDischargeDone : Nat := 0x090D
def evDischargeTimeout : Nat := 0x090E
def evSiDemand : Nat := 0x0A01
def evSiReleased : Nat := 0x0A02
def evSiDiscrepancy : Nat := 0x0A03
def evSiTestFail : Nat := 0x0A04
def evTwoHandSync : Nat := 0x0A05
def evRestartRequired : Nat := 0x0A06
def evSafeInFault : Nat := 0x0A07
def evSoReadbackFail : Nat := 0x0A08
def evCanErrorPassive : Nat := 0x0B01
def evCanBusOff : Nat := 0x0B02
def evCanRecovered : Nat := 0x0B03
def evTxExpired : Nat := 0x0B04
def evFifoOverflow : Nat := 0x0B05
def evProtocolException : Nat := 0x0B06
def evE2eCrcFail : Nat := 0x0B07
def evE2eCounterFail : Nat := 0x0B08
def evE2eTimeout : Nat := 0x0B09
def evCanRamFault : Nat := 0x0B0A
def evCanSelftestFail : Nat := 0x0B0B
def evLinkUp : Nat := 0x0C01
def evLinkDown : Nat := 0x0C02
def evRingOpen : Nat := 0x0C03
def evMasterElected : Nat := 0x0C04
def evRingJoined : Nat := 0x0C05
def evRingLeft : Nat := 0x0C06
def evJoinRefused : Nat := 0x0C07
def evIsolated : Nat := 0x0C08
def evDivergent : Nat := 0x0C09
def evDivergentCleared : Nat := 0x0C0A
def evShareStale : Nat := 0x0C0B
def evHalyardFrameError : Nat := 0x0C0C
def evTamperMesh : Nat := 0x0D01
def evTamperLight : Nat := 0x0D02
def evTamperEnclosure : Nat := 0x0D03
def evTamperGlitch : Nat := 0x0D04
def evTamperTemperature : Nat := 0x0D05
def evAonClockLoss : Nat := 0x0D06
def evKeysErased : Nat := 0x0D07
def evLockCleared : Nat := 0x0D08
def evLogGap : Nat := 0x0D09
def evLogStall : Nat := 0x0D0A
def evCertInstalled : Nat := 0x0D0B
def evCertMissing : Nat := 0x0D0C
def evDebugUnlocked : Nat := 0x0D0D
def evLifecycleAdvanced : Nat := 0x0D0E
def evFwFloorRaised : Nat := 0x0D0F
def evStagingFault : Nat := 0x0D10
def evTamperAuth : Nat := 0x0D11
def evPlacementInfeasible : Nat := 0x0E01
def evContextOverrun : Nat := 0x0E02
def evEngineFailed : Nat := 0x0E03
def evContextMigrated : Nat := 0x0E04
def evAxisShed : Nat := 0x0E05
def evFabricStarved : Nat := 0x0E06
def evFabricAccessFault : Nat := 0x0E07

/-- The severity bytes (R581). -/
def sevInfo : Nat := 0
def sevWarn : Nat := 1
def sevReef : Nat := 2
def sevStop : Nat := 3
def sevSafe : Nat := 4
def sevAlarm : Nat := 5

/-- Group 0x01 of Table 22.1: code and severity; a response-only code is not listed (R581). -/
def sevGroup01 : List (Nat × Nat) :=
  [(0x0101, 0), (0x0102, 4), (0x0103, 1), (0x0104, 4), (0x0105, 4), (0x0106, 4), (0x0107, 4), (0x0108, 1), (0x0109, 0), (0x010A, 0), (0x010B, 1), (0x0118, 1), (0x0119, 3), (0x011A, 1), (0x011B, 1)]

/-- Group 0x02 of Table 22.1: code and severity; a response-only code is not listed (R581). -/
def sevGroup02 : List (Nat × Nat) :=
  [(0x0201, 1), (0x0202, 1), (0x0203, 1), (0x0204, 1), (0x0205, 1), (0x0206, 1), (0x0207, 1), (0x0208, 1), (0x020B, 1), (0x020C, 1), (0x020D, 1), (0x020E, 0), (0x0210, 1), (0x0211, 0)]

/-- Group 0x03 of Table 22.1: code and severity; a response-only code is not listed (R581). -/
def sevGroup03 : List (Nat × Nat) :=
  [(0x0301, 0), (0x0302, 0), (0x0303, 1), (0x0304, 4), (0x0305, 1), (0x0306, 4), (0x0307, 0), (0x0308, 4), (0x0309, 4), (0x030A, 1), (0x030B, 4), (0x030C, 4), (0x030D, 4), (0x030E, 4), (0x030F, 4), (0x0310, 0), (0x0312, 0), (0x0313, 0)]

/-- Group 0x04 of Table 22.1: code and severity; a response-only code is not listed (R581). -/
def sevGroup04 : List (Nat × Nat) :=
  [(0x0401, 1), (0x0402, 4), (0x0403, 4), (0x0404, 4), (0x0405, 4), (0x0406, 4), (0x0407, 4), (0x0408, 4), (0x0409, 3)]

/-- Group 0x05 of Table 22.1: code and severity; a response-only code is not listed (R581). -/
def sevGroup05 : List (Nat × Nat) :=
  [(0x0501, 2), (0x0502, 2), (0x0503, 1), (0x0504, 1), (0x0505, 4), (0x0506, 1), (0x0507, 1), (0x0508, 1), (0x0509, 1), (0x050A, 0), (0x050B, 1), (0x050C, 0), (0x050D, 4), (0x050E, 1), (0x050F, 0), (0x0510, 3), (0x0511, 0), (0x0512, 1), (0x0514, 0), (0x0515, 1), (0x0516, 1), (0x0517, 0), (0x0518, 1), (0x0519, 1), (0x051A, 1)]

/-- Group 0x06 of Table 22.1: code and severity; a response-only code is not listed (R581). -/
def sevGroup06 : List (Nat × Nat) :=
  [(0x0601, 0), (0x0602, 1), (0x0603, 1), (0x0604, 1), (0x0605, 1), (0x0606, 1), (0x0607, 3), (0x0608, 1), (0x0609, 0), (0x060A, 1), (0x060B, 1)]

/-- Group 0x07 of Table 22.1: code and severity; a response-only code is not listed (R581). -/
def sevGroup07 : List (Nat × Nat) :=
  [(0x0701, 2), (0x0702, 1), (0x0703, 0), (0x0704, 1), (0x0705, 3), (0x0706, 2), (0x0707, 1), (0x0708, 0)]

/-- Group 0x08 of Table 22.1: code and severity; a response-only code is not listed (R581). -/
def sevGroup08 : List (Nat × Nat) :=
  [(0x0801, 4), (0x0802, 4), (0x0803, 3), (0x0804, 3), (0x0805, 3), (0x0806, 0), (0x0807, 0), (0x0808, 1), (0x0809, 0), (0x080A, 1), (0x080B, 4), (0x080C, 4), (0x080D, 1)]

/-- Group 0x09 of Table 22.1: code and severity; a response-only code is not listed (R581). -/
def sevGroup09 : List (Nat × Nat) :=
  [(0x0901, 4), (0x0902, 4), (0x0903, 3), (0x0904, 3), (0x0905, 4), (0x0906, 4), (0x0907, 1), (0x0908, 4), (0x0909, 3), (0x090A, 1), (0x090B, 0), (0x090C, 4), (0x090D, 0), (0x090E, 1)]

/-- Group 0x0A of Table 22.1: code and severity; a response-only code is not listed (R581). -/
def sevGroup0A : List (Nat × Nat) :=
  [(0x0A01, 0), (0x0A02, 0), (0x0A03, 1), (0x0A04, 1), (0x0A05, 1), (0x0A06, 0), (0x0A07, 4), (0x0A08, 4)]

/-- Group 0x0B of Table 22.1: code and severity; a response-only code is not listed (R581). -/
def sevGroup0B : List (Nat × Nat) :=
  [(0x0B01, 1), (0x0B02, 1), (0x0B03, 0), (0x0B04, 1), (0x0B05, 1), (0x0B06, 0), (0x0B07, 1), (0x0B08, 1), (0x0B09, 3), (0x0B0A, 1), (0x0B0B, 1)]

/-- Group 0x0C of Table 22.1: code and severity; a response-only code is not listed (R581). -/
def sevGroup0C : List (Nat × Nat) :=
  [(0x0C01, 0), (0x0C02, 1), (0x0C03, 1), (0x0C04, 0), (0x0C05, 0), (0x0C06, 0), (0x0C08, 1), (0x0C09, 3), (0x0C0A, 0), (0x0C0B, 1), (0x0C0C, 1)]

/-- Group 0x0D of Table 22.1: code and severity; a response-only code is not listed (R581). -/
def sevGroup0D : List (Nat × Nat) :=
  [(0x0D01, 5), (0x0D02, 5), (0x0D03, 5), (0x0D04, 5), (0x0D05, 5), (0x0D06, 5), (0x0D07, 5), (0x0D08, 0), (0x0D09, 1), (0x0D0A, 5), (0x0D0B, 0), (0x0D0C, 1), (0x0D0D, 1), (0x0D0E, 0), (0x0D0F, 0), (0x0D10, 1), (0x0D11, 5)]

/-- Group 0x0E of Table 22.1: code and severity; a response-only code is not listed (R581). -/
def sevGroup0E : List (Nat × Nat) :=
  [(0x0E01, 1), (0x0E02, 1), (0x0E03, 1), (0x0E04, 0), (0x0E05, 3), (0x0E06, 1), (0x0E07, 1)]

/-- Every code that has a severity, with it. A code with two severities is listed with SAFE (R582). -/
def severities : List (Nat × Nat) :=
  sevGroup01 ++ sevGroup02 ++ sevGroup03 ++ sevGroup04 ++ sevGroup05 ++ sevGroup06 ++ sevGroup07 ++ sevGroup08 ++ sevGroup09 ++ sevGroup0A ++ sevGroup0B ++ sevGroup0C ++ sevGroup0D ++ sevGroup0E

/-- The severity of an event code; none for a response-only or unknown code (R580, R581). -/
def severityOf (code : Nat) : Option Nat := severities.lookup code

end Sys2Proof.Machine
end

