-- ==== Sys2Proof/Machine/Image.lean ====
section
/-! DEFINITION. Configuration images (R85 to R89): header, sections and fields as Tables 4.2 to 4.4 lay them out. -/
namespace Sys2Proof.Machine
open Sys2Proof

/-- Section identifiers (Table 4.4). -/
def secSystem : Nat := 0x01
def secHost : Nat := 0x02
def secOwnership : Nat := 0x03
def secLimits : Nat := 0x04
def secOdometry : Nat := 0x05
def secSecurity : Nat := 0x06
def secLog : Nat := 0x07
def secPwm : Nat := 0x10
def secTrip : Nat := 0x11
def secSense : Nat := 0x12
def secControl : Nat := 0x13
def secPosition : Nat := 0x14
def secSensorless : Nat := 0x15
def secThermal : Nat := 0x16
def secProfile : Nat := 0x17
def secConverters : Nat := 0x18
def secSafety : Nat := 0x20
def secSafeIn : Nat := 0x21
def secSafeOut : Nat := 0x22
def secAux : Nat := 0x23
def secCan : Nat := 0x30
def secRing : Nat := 0x31
def secContexts : Nat := 0x32

/-- Body lengths of FORMAT 0x0302, as the owning chapters give them; none for an ID not in Table 4.4. The OWNERSHIP body
has a length of its own (R106). -/
def bodyLength (id : Nat) : Option Nat :=
  [(secSystem, 16), (secHost, 24), (secLimits, 32), (secOdometry, 32), (secSecurity, 144), (secLog, 48), (secPwm, 80),
   (secTrip, 160), (secSense, 120), (secControl, 8464), (secPosition, 128), (secSensorless, 64), (secThermal, 688),
   (secProfile, 64), (secConverters, 176), (secSafety, 288), (secSafeIn, 160), (secSafeOut, 48), (secAux, 80),
   (secCan, 5952), (secRing, 256), (secContexts, 2096)].lookup id

/-- A section of an image (Table 4.3). -/
structure Section where
  id : Nat
  inst : Nat
  /-- The two bytes at offset 2, which must be 0. -/
  reserved : Nat
  body : List Byte
  deriving DecidableEq, Repr

/-- The header fields of an image (Table 4.2). -/
def imgMagic (img : List Byte) : Nat := fieldU img 0 4
def imgFormat (img : List Byte) : Nat := fieldU img 4 2
def imgCount (img : List Byte) : Nat := fieldU img 6 2
def imgGeneration (img : List Byte) : Nat := fieldU img 8 4
def imgSize (img : List Byte) : Nat := fieldU img 12 4
def imgNeeds (img : List Byte) : Nat := fieldU img 16 4
def imgCertKeyHash (img : List Byte) : List Byte := sliceZ img 32 32

/-- The image of a slot is its first SIZE bytes (R90). -/
def imgOf (slot : List Byte) : List Byte := slot.take (imgSize slot)

/-- The sections that fill the given bytes exactly, each with the LENGTH its ID requires; none where they do not (check 1
of R90). `fuel` bounds the number of sections. -/
def parseSections : Nat → List Byte → Option (List Section)
  | _, [] => some []
  | 0, _ :: _ => none
  | fuel + 1, bs =>
    let id := fieldU bs 0 1
    let len := fieldU bs 4 4
    let want := if id = secOwnership then some (8 + 8 * fieldU bs 8 2) else bodyLength id
    if bs.length < 8 ∨ want ≠ some (len - 8) ∨ len < 8 ∨ bs.length < len then none
    else (parseSections fuel (bs.drop len)).map
      (⟨id, fieldU bs 1 1, fieldU bs 2 2, slice bs 8 (len - 8)⟩ :: ·)

/-- The sections of an image, empty where its layout is not that of check 1. -/
def imgSections (img : List Byte) : List Section :=
  (parseSections 32768 (slice img 64 (imgSize img - 128))).getD []

/-- The body of a section, where the image has it. -/
def imgBody (img : List Byte) (id inst : Nat) : Option (List Byte) :=
  ((imgSections img).find? fun x => x.id == id && x.inst == inst).map (·.body)

/-- The digest of an image (R89). -/
def imgDigest (img : List Byte) : List Byte := sha256 (img.take (imgSize img - 64))

/-- A section as bytes, header and body, and its digest (R89). -/
def sectionBytes (x : Section) : List Byte :=
  [BitVec.ofNat 8 x.id, BitVec.ofNat 8 x.inst] ++ leBytes 2 x.reserved ++ leBytes 4 (8 + x.body.length) ++ x.body
def sectionDigest (x : Section) : List Byte := sha256 (sectionBytes x)

end Sys2Proof.Machine
end

