-- ==== Sys2Proof/Config.lean ====
section
/-! DEFINITION. What an implementation fixes and the spec does not print: the functions of real analysis that its formulas
name, and the free values. None has a body, so that no proof can use a value of it. -/
namespace Sys2Proof.Config
open Sys2Proof

/-- A value that the spec leaves open, fresh for each count of State.free (log entry 5). -/
opaque freeQ : Nat → Q
/-- A number that the spec leaves open, fresh for each count of State.free (log entry 5). -/
opaque freeNat : Nat → Nat
/-- Bytes of the true random generator (R511, R525), by the count and their number. -/
opaque freeByte : Nat → Nat → Byte

/-- The ROM version that SYS.VERSION answers (Table 3.18). -/
opaque romVersion : Nat

/-- atan2(y, x) in radians (R242, R277). Its values are not rational; the model leaves them to this function (log entry 3), as it does the
others below. -/
opaque atan2 : Q → Q → Q
/-- The square root of a quantity that is not negative (R214, R417). -/
opaque sqrt : Q → Q
/-- The exponential function (R229, R277, R353). -/
opaque exp : Q → Q
/-- The natural logarithm. -/
opaque ln : Q → Q
/-- π and √3, which no quantity equals exactly. -/
opaque pi : Q
opaque sqrt3 : Q

end Sys2Proof.Config
end

