-- ==== Sys2Proof/Machine/State.lean ====
section
/-! DEFINITION. The state of the block as plain data: everything chapters 1 to 22 give it, unit by unit, and the queue
of commands that wait. Registers the host reads whole (MODE, FAULTSUM, BOOTSTAT ...) are computed from these fields
by Machine/Ops.lean; what is stored here is each piece of state once. -/
namespace Sys2Proof.Machine
open Sys2Proof

/-- The faults that stop the block: none. Every command of the table either changes the state as the spec says or
leaves it unchanged (log entry 6); a refusal by the chip is an answer in a mailbox, not a stop. The constructor is
raised by no meaning; it is safe, since a stop hides no behaviour. -/
inductive Fault where
  /-- Raised by no meaning of this model. Safe. -/
  | none
  deriving DecidableEq, Repr

/-- The refusals: a command whose meaning has not been written. -/
inductive Refusal where
  /-- Answered by Machine/Dispatch.lean alone for a command without a meaning. Safe. -/
  | notModelled (mnemonic : String)
  deriving DecidableEq, Repr

/-- The major modes (R10, R29); the codes of MODE.MODE are those of Table 3.8. -/
inductive Mode where
  | boot | idle | run | safe | service | sleep
  deriving DecidableEq, Repr

/-- The axis states (R10, R36); the codes are those of AXSTATE in Table 3.8. -/
inductive AxState where
  | off | catching | runTorque | runSpeed | runPosition | stopping | axisSafe
  deriving DecidableEq, Repr

/-- The substates of an axis in its safe state (R10), with the codes of SAFESUB in Table 3.8; also the values of
SAFEPAT (R141). -/
inductive SafeSub where
  | freewheel | ascLow | ascHigh | discharge
  deriving DecidableEq, Repr

/-- The life-cycle states (R509, Table 19.1). -/
inductive Life where
  | blank | development | production | fieldReturn | scrapped
  deriving DecidableEq, Repr

/-- Supplies, reset, live insertion, bind-off and wake (R46 to R55, R396, R562). -/
structure Power where
  /-- PORST_N is high (R30). -/
  porstHigh : Bool
  /-- The supply monitors hold the device in reset (R53). -/
  supplyHold : Bool
  /-- The device is in reset: PORST_N low, or the supply monitors hold it (R17, R53). -/
  inReset : Bool
  /-- The cause that the next cast-on shows in BOOTSTAT.WAKE_CAUSE (Table 3.7). -/
  nextCause : Nat
  /-- EARLY_N is high (R54, R55). -/
  earlyHigh : Bool
  /-- EARLY_N has been low for 10 ms: the output drivers are released (R54). -/
  seated : Bool
  /-- PMIC_EN is high (R47, R48). -/
  pmicEn : Bool
  /-- A wake that arrived during bind-off, with its cause (R49). -/
  wakeLatched : Option Nat
  /-- The cause of a wake in SLEEP, recorded by the AON domain (R48). -/
  wakeCause : Option Nat
  /-- Supplies that have been outside their operating range and not yet in it for 10 ms as far as a clear has found, and those outside it now
  (OUT_NOW), in the layout of Table 14.9 word 11 (R396, R397). -/
  supplyBad : Nat
  supplyNow : Nat
  /-- Supplies below their reset threshold: bit 0 VCORE, 1 VDDA, 2 VDD18, 3 to 8 VDDIO0 to VDDIO5 (R53, R551). -/
  absent : Nat
  /-- VBAT is low (R396). -/
  vbatLow : Bool
  /-- The AON domain runs from the X32 crystal (R562). -/
  crystal : Bool
  /-- A reset that follows a response by 1 ms, with its cause (SYS.RESET, R542). -/
  resetDue : Option Nat
  /-- Bind-off is in progress (R47). -/
  bindOff : Bool
  /-- Drive time at the acceptance of bind-off: a frame whose SOF came by then completes (Table 2.7 step 2). -/
  bindAt : Nat
  /-- Transmit buffers discarded at step 2 of bind-off (Table 2.7). -/
  bindDiscarded : Nat
  /-- PARK was not reached within PARK_TIME (R344). -/
  parkShort : Bool
  /-- The last shutdown was by bind-off, so that the next cast-on writes no UNCLEAN_SHUTDOWN (R50). -/
  cleanShutdown : Bool
  /-- RTC at which SLEEP was entered (R51). -/
  sleepRtc : Nat
  deriving DecidableEq, Repr

/-- The clocks and the time bases (R9, R17, R18). -/
structure Clocks where
  /-- Model time in ticks of 10 ns since State.reset; it never stops. It stands for the FABRIC clock by which firmware
  measures its own intervals (R586). -/
  now : Nat
  /-- Drive time in 10 ns units, 64 bits (R9). -/
  drive : DWord
  /-- Drive time counts: the PWM PLL has locked and the PWM clock runs (R17). -/
  driveRuns : Bool
  /-- RTC in 1/32,768 s (R17). -/
  rtc : Nat
  /-- The part of an RTC unit counted so far, in 1/100,000,000 of a unit. -/
  rtcPart : Nat
  /-- Clock domains declared lost, bit by the number of Table 1.3 (R18). -/
  lost : Nat
  /-- Domains whose loss CLOCK_LOSS has declared since cast-on. -/
  declared : Nat
  /-- A clock monitor has been armed (cast-on step 3). -/
  monitorsArmed : Bool
  deriving DecidableEq, Repr

/-- Cast-on and what it found (R38 to R45, Tables 2.4 to 2.6). -/
structure Boot where
  /-- BOOTSTAT.PHASE: the step in progress (Table 2.4). -/
  phase : Nat
  /-- BOOTSTAT.HALT and HALT_CODE (R44, Table 2.5). -/
  halt : Bool
  haltCode : Nat
  /-- BOOTSTAT.FW_SLOT, FW_FALLBACK, CFG_SLOT and WAKE_CAUSE (Table 3.7). -/
  fwSlot : Bool
  fwFallback : Bool
  cfgSlot : Bool
  wakeCause : Nat
  /-- Drive time runs from here for the duration in the CAST_ON_DONE record (Table 2.8): `now` at the end of reset. -/
  startedAt : Nat
  /-- UNITS and LIFECYCLE have been latched and the window is readable: cast-on step 1 is complete (R59). -/
  windowOpen : Bool
  /-- VERSION, SEC_VERSION and ADVANCE_FLOOR of the firmware image that runs (R513). -/
  fwVersion : Nat
  fwSecVersion : Nat
  fwAdvance : Bool
  /-- Step 14 is complete: cast-on waits for step 15 (R54). -/
  step14 : Bool
  /-- Part L or part T of the comparator injection test failed: a run inhibit (R43). -/
  testFailed : Bool
  /-- The self-test result per unit number, 0 PASSED, 1 FAILED, 2 SKIPPED (R45, DIAG.SELFTEST). -/
  selftest : List Nat
  /-- The first phase-voltage measurement of step 13, as axis speeds; none before step 13 of this cast-on (R51). -/
  firstSpeeds : Option (Vector Q 4)
  /-- Events that hardware noted before firmware could raise them (R61, Table 19.8): code, unit, data. -/
  deferred : List (Nat × Nat × Nat)
  deriving DecidableEq, Repr

/-- The two firmware slots on XS0 (Table 4.1), as the bytes written from their start address. -/
structure Firmware where
  slotA : List Byte
  slotB : List Byte
  /-- A slot marked invalid by the loader (R83). -/
  invalidA : Bool
  invalidB : Bool
  /-- The slot named by SYS.LOADER_BEGIN and the size given (Table 3.20). -/
  loadSlot : Option Bool
  loadSize : Nat
  deriving DecidableEq, Repr

/-- One command taken from a mailbox slot: the slot is BUSY (R67). Slots 0 to 15 are MB0 to MB15; 16 is the MBP-1 slot
and 17 to 24 the MBP-2 tags of the CAN transport (R79). -/
structure Job where
  slot : Nat
  /-- The protocol: 1 or 2 (R66). -/
  proto : Nat
  code : Nat
  seq : Nat
  tag : Nat
  flags : Nat
  /-- The check code of the request, for R74. -/
  crc : Nat
  payload : List Byte
  /-- The command has started and runs in the background (R73). -/
  started : Bool
  /-- Model time of the acceptance. -/
  since : Nat
  deriving DecidableEq, Repr

/-- The last completed request of a slot or tag, with its stored response (R74). -/
structure Answered where
  /-- The slot (MBP-1), or 256 + tag on SPI and 512 + tag on CAN (MBP-2). -/
  key : Nat
  code : Nat
  seq : Nat
  crc : Nat
  response : List Byte
  deriving DecidableEq, Repr

/-- An entry of the host event queue (R81). -/
structure EventEntry where
  code : Nat
  severity : Nat
  unit : Nat
  time : DWord
  data : Nat
  /-- The time is marked invalid (R17). -/
  stale : Bool
  deriving DecidableEq, Repr

/-- A rate-limit window (R586): one for each instance of Table 22.2. -/
structure RateWindow where
  code : Nat
  instance_ : Nat
  /-- Occurrences counted and not raised. -/
  count : Nat
  /-- Unit number, the other fields of the data word, and the log EXTRA of the last counted occurrence. -/
  unit : Nat
  rest : Nat
  /-- Model time at which the window opened. -/
  opened : Nat
  deriving DecidableEq, Repr

/-- A segmented MBP-2 request being reassembled (R78). -/
structure Reassembly where
  tag : Nat
  next : Nat
  bytes : List Byte
  started : Nat
  deriving DecidableEq, Repr

/-- A frame of a response that waits at the host's CAN controller (R77 to R79): its identifier, whether it is a CAN XL frame or a CAN FD
frame, its data field, ENQ, and whether its lifetime has ended within an attempt (R471). -/
structure HostTx where
  extended : Bool
  ident : Nat
  xl : Bool
  data : List Byte
  enq : Nat
  due : Bool
  deriving DecidableEq, Repr

/-- The host interface: window registers, mailbox RAM, slots, events and heartbeat (R57 to R82). -/
structure HostPart where
  /-- FAULTSUM.LOG_GAP, CLOCK_LOSS and HSPI_ERR (W1C bits, Table 3.10). -/
  logGap : Bool
  clockLoss : Bool
  hspiErr : Bool
  /-- DOORBELL_OUT.SYSTEM, EVENT, FAULT and DONE (Table 3.12). -/
  outSystem : Bool
  outEvent : Bool
  outFault : Bool
  done : Nat
  /-- ATTN_MASK.SRC and DONE (Table 3.13). -/
  maskSrc : Nat
  maskDone : Nat
  /-- The mailbox RAM: addresses 0x1000 to 0x2FFF, an unlisted byte reads 0 (R69). -/
  ram : List Host.Cell
  /-- The slots rung and not yet taken, in ring order (R68). -/
  posted : List Nat
  /-- The commands taken and not yet answered, in ring order. -/
  jobs : List Job
  /-- The stored responses of R74. -/
  answered : List Answered
  /-- The frames of responses that wait at the host's CAN controller, oldest first (R79). -/
  canOut : List HostTx
  /-- What HSPI_SDO returned in the last frame: HSTAT, then the data bytes of a read (R60). -/
  sdo : List Byte
  /-- The host event queue, oldest first (R81). -/
  events : List EventEntry
  /-- The rate-limit windows that are open (R586). -/
  windows : List RateWindow
  /-- Model time of the last heartbeat over SPI and over CAN (R80). -/
  beatSpi : Nat
  beatCan : Nat
  /-- HOST_HEARTBEAT_LOST stands, and the transports that have not delivered since it (R80). -/
  beatLost : Bool
  owedSpi : Bool
  owedCan : Bool
  /-- The segments of an MBP-2 request on CAN (R78). -/
  reassembly : Option Reassembly
  deriving DecidableEq, Repr

/-- The state of a configuration slot (R85). An erased slot that nothing was written to is INVALID. A valid slot that differs from
the active set at cast-on and has not been written since is none of the four; it is the one R95 compares (log entry 50). -/
inductive SlotState where
  | current | pending | copying | invalid | differing
  deriving DecidableEq, Repr

/-- A configuration slot on XS0 (R84): its bytes from the start address, and its state. -/
structure CfgSlot where
  bytes : List Byte
  state : SlotState
  deriving DecidableEq, Repr

/-- The class of a difference between two images (R96). -/
inductive DiffClass where
  | same | latent | live
  deriving DecidableEq, Repr

/-- A tack accepted and not complete (R101 to R103). -/
structure Tack where
  /-- The swap instant in drive time, and the carrier count it belongs to (R102, R500). -/
  ts : Nat
  carrier : Nat
  /-- The tack is a ring tack (R500). -/
  ring : Bool
  deriving DecidableEq, Repr

/-- A run-time claim of a resource (R110, Table 4.13). -/
structure Claim where
  resource : Nat
  function : Nat
  owner : Nat
  deriving DecidableEq, Repr

/-- Configuration: the two slots, the active and the shadow set, the tack (R84 to R110). -/
structure CfgPart where
  slotA : CfgSlot
  slotB : CfgSlot
  /-- The image the units run from. -/
  active : Option (List Byte)
  /-- The shadow set, and the slot it was staged from (true: B). -/
  shadow : Option (List Byte)
  shadowSlot : Bool
  /-- The slot that CFG.WRITE_BEGIN opened (true: B) and the size it gave. -/
  writing : Option (Bool × Nat)
  /-- The difference outstanding between the slots and the active set (R97). -/
  diff : DiffClass
  /-- ID and INSTANCE of its first differing section. -/
  diffAt : Nat
  tack : Option Tack
  /-- The set before a swap, and the units that have not yet reached their boundary: bit n the PWM and trip parameters of AXn,
  bit 4 the Backstay (R103). -/
  prev : Option (List Byte)
  lag : Nat
  /-- The balls whose owner or SELECT the last tack changed, and the model time of its Ts (R559). -/
  movedBalls : List Nat
  movedAt : Nat
  claims : List Claim
  /-- A twin copy is to be restarted (R100). -/
  copyBroken : Bool
  deriving DecidableEq, Repr

/-- A compare set (R124): CMPA and CMPB of the legs U, V, W in taps, and the axis PERIOD in PWM clocks. -/
structure CompareSet where
  cmpA : Vector Nat 3
  cmpB : Vector Nat 3
  period : Nat
  deriving DecidableEq, Repr

/-- What governs the two switches of a leg (Table 1.6, R24). -/
inductive LegDrive where
  /-- The balls are high-impedance with their pull-downs (R4, R54, R551). -/
  | released
  /-- Level 1: STO. -/
  | sto
  /-- Level 2: a clock-free latch, the Backstay's gate enable, or the loss of the PWM clock. -/
  | latchedOff
  /-- Level 3: the safe pattern. -/
  | pattern (sub : SafeSub)
  /-- Level 4: a CBC block. -/
  | blocked
  /-- Level 5: the committed compare set. -/
  | switching
  /-- The axis does not switch and no pattern holds. -/
  | off
  deriving DecidableEq, Repr

/-- An H edge whose measurement window runs or has run (R131), or a dropped pulse whose record is due (R132). -/
structure EdgeWindow where
  rising : Bool
  /-- t_ref and the end of the window, in taps of model time. -/
  tref : Nat
  stop : Nat
  /-- The pulse that the edge ends was shorter than SN_MIN_ON, and so is the pulse that it opens: as planned, until that pulse ends (R136). -/
  short : Bool
  brief : Bool := false
  stretched : Bool
  /-- It was stretched under R123 and not as planned under R122. -/
  moved : Bool
  dropped : Bool
  /-- The edge ends a pulse that began with an issued edge and was not cut by a block (R133, R157). -/
  whole : Bool
  /-- Interval in taps of a dropped pulse. -/
  width : Nat
  /-- Carrier count of the period in which t_ref lies (Table 5.5). -/
  carrier : Nat
  deriving DecidableEq, Repr

/-- An edge record (Tables 5.4, 5.5) in the PWM to FABRIC FIFO. -/
structure EdgeRecord where
  leg : Fin 3
  rising : Bool
  valid : Bool
  noisy : Bool
  short : Bool
  stretched : Bool
  dropped : Bool
  /-- ERR in taps, or the width of a dropped pulse. -/
  err : Int
  carrier : Nat
  /-- As in EdgeWindow; the loop context knows it from the block status that the FIFO carries (R157). -/
  whole : Bool
  deriving DecidableEq, Repr

/-- One leg between its compare values and its two gate outputs (R114, R115, R120 to R123, Table 5.3). Instants are in taps of 78.125 ps
of model time. -/
structure GateLeg where
  /-- H after the minimum-pulse stage, and the instant of the issued edge that opened the present pulse; none where no issued edge did. -/
  h : Bool
  openAt : Option Nat
  /-- The pulse was short as its opening edge was issued, and is to be stretched (R122). -/
  planned : Bool
  /-- The closing edge has been moved to this instant (R122, R123). -/
  closeAt : Option Nat
  /-- The rise and the fall of the present period have passed: neither is repeated (R115). -/
  rose : Bool
  fell : Bool
  /-- The gate outputs of the high-side and the low-side switch. -/
  high : Bool
  low : Bool
  /-- The instants at which a requested switch turns on (R120, R121). -/
  dueHigh : Option Nat
  dueLow : Option Nat
  /-- The last turn-on and turn-off of each switch, and the last release or clear (R121, R152, R156). -/
  onHigh : Option Nat
  onLow : Option Nat
  offHigh : Option Nat
  offLow : Option Nat
  release : Option Nat
  /-- The last eight edges of the high-side gate output with the level each leads to, newest first: what a period of its carrier holds (R417). -/
  highEdges : List (Nat × Bool)
  /-- What governed the leg when its outputs were last set. -/
  drive : LegDrive
  /-- A trip or a block has governed it in the present period: the compare set makes edges from the next period start on (R26). -/
  held : Bool
  /-- Windows of the leg, oldest first, until EDGE_RECORD takes them. -/
  windows : List EdgeWindow
  deriving DecidableEq, Repr

/-- Edge bookkeeping of one leg (R131 to R139, R156). -/
structure PwmLeg where
  /-- Consecutive missing edges of the high-side and the low-side switch (R139). -/
  missH : Nat
  missL : Nat
  /-- The NOISY window: expected edges and NOISY records in it (R138). -/
  noisyEdges : Nat
  noisyCount : Nat
  /-- SENSE_NOISY is outstanding. -/
  noisy : Bool
  /-- EDGE_MISSING has marked the high-side or the low-side switch as unable to conduct (R404). -/
  markH : Bool
  markL : Bool
  /-- ERR of the last rising record, where it can be used for a pulse (R133), in taps. -/
  riseErr : Option Int
  /-- The pulses of the leg are SHORT (R136). -/
  short : Bool
  /-- The correction c and the carry, in seconds of H high time (R133, R134), and the sign of the last leg current. -/
  corr : Q
  carry : Q
  lastSign : Int
  deriving DecidableEq, Repr

/-- The PWM unit of one axis (R111 to R148). -/
structure Pwm where
  /-- STATUS.RUNNING: the carrier counter runs. -/
  running : Bool
  /-- Taps since the valley, up to the event that is due, and whether the peak of the period has passed (R111, R112). -/
  pos : Nat
  peaked : Bool
  /-- Taps since the event was reached that CARRIER_RELOAD has not yet brought: the next half period has run for so long. -/
  overTaps : Nat
  /-- The carrier counts down (STATUS.DIR). -/
  down : Bool
  shadow : CompareSet
  /-- The pending set; `late` is a set whose COMMIT was taken in a reload cycle and waits for that reload to pass. -/
  pending : Option CompareSet
  late : Option CompareSet
  deferred : Bool
  active : CompareSet
  /-- The set in force before the last reload, the drive time of that reload, and whether it was a peak (R188). -/
  before : CompareSet
  eventAt : Nat
  eventPeak : Bool
  /-- A group member has reported its shadow set written for the present dispatch (R227). -/
  shadowDone : Bool
  /-- The leader's COMMIT has arrived and waits for the SHADOW_DONE of a member (R227). -/
  commitHeld : Bool
  periodClamp : Bool
  memberCommit : Bool
  /-- CBC blocks in force per leg in the present period, and whether one of a source of this axis held at any instant of it (R157, R160). -/
  block : Vector Bool 3
  blockedPeriod : Bool
  /-- Periods without a COMMIT, and a COMMIT has come in the present one (R128). -/
  wdCount : Nat
  committed : Bool
  stretchCount : Nat
  lateCommit : Nat
  commitOverrun : Nat
  dropped : Nat
  stretched : Nat
  /-- SAFEPAT: pattern as written, sequence number, and no write in the last loop period (Table 5.16). -/
  safepat : Nat
  safeSeq : Nat
  safeHeld : Bool
  /-- A SAFEPAT write has come since the last reload. -/
  safeWritten : Bool
  /-- The carrier count (R116). -/
  carrier : Nat
  legs : Vector PwmLeg 3
  gates : Vector GateLeg 3
  /-- Edge records on their way to the current-loop context, oldest first: two words each in a FIFO of 64 (R132, Table 1.4). -/
  records : List EdgeRecord
  deriving DecidableEq, Repr

/-- The trip logic of one axis (R149 to R165, Tables 6.10 to 6.13). -/
structure Trip where
  /-- TRIPSRC, the latched sources in their bit positions (Table 6.10). -/
  src : Nat
  /-- Level-2 latches of latched trips: comparators 23:0, fast flags 15:0, driver faults 2:0. -/
  cmpLatch : Nat
  dsfLatch : Nat
  fltLatch : Nat
  /-- Level-2 latches of CBC sources, comparators and fast flags. -/
  cmpCbc : Nat
  dsfCbc : Nat
  /-- Comparator and fast-flag sources that have set the latched trip, by LATCH or by PATTERN (Table 6.4). -/
  cmpTrips : Nat
  dsfTrips : Nat
  /-- Comparator outputs after hysteresis and before blanking (R150, R152). -/
  cmpOut : Nat
  /-- Sources active now, after blanking and hysteresis; driver-fault inputs low now. -/
  cmpAct : Nat
  dsfAct : Nat
  fltLow : Nat
  /-- The tick at which each source became inactive last (R162). -/
  cmpGone : Vector Nat 24
  dsfGone : Vector Nat 16
  fltGone : Vector Nat 3
  /-- FLT_SIDE per leg U, V, W: 0 none, 1 H, 2 L, 3 UNKNOWN (R156). -/
  side : Vector Nat 3
  /-- Sources whose latch has been handed over once: no second handover takes place (R162). -/
  cmpHanded : Nat
  dsfHanded : Nat
  fltHanded : Nat
  /-- The CBC sources that escalated (Table 6.4). -/
  escCmp : Nat
  escDsf : Nat
  /-- CBC_CONSECUTIVE and CBC_TRIPS (Table 6.11). -/
  cbcConsec : Nat
  cbcTrips : Nat
  /-- A COMMIT has arrived since the watchdog trip (Table 6.4). -/
  commitSince : Bool
  /-- Domains whose loss has set a CLOCK trip since the last clear (Table 6.4). -/
  clockDomains : Nat
  /-- The event codes named as causes of FIRMWARE trips that are still to go (Table 6.4). -/
  fwCauses : List Nat
  deriving DecidableEq, Repr

/-- STO (R166 to R170, Table 6.14). -/
structure Sto where
  aLow : Bool
  bLow : Bool
  /-- STO_INT is set, with the functions that request it. -/
  intSet : Bool
  discrepancy : Bool
  /-- Both channels have been low together since the discrepancy (R169). -/
  bothLow : Bool
  /-- A channel counts as high: high for 5 ms after its filter (R168). -/
  aQual : Bool
  bQual : Bool
  qualifying : Bool
  /-- The ticks from which the channels have been high after their filters (R168), and from which one has been low and the other high (R169). -/
  aHighAt : Nat
  bHighAt : Nat
  differAt : Nat
  /-- Low pulses that the filters rejected (Table 6.14). -/
  aGlitch : Nat
  bGlitch : Nat
  /-- GDEN_A and GDEN_B are to be switched on once their readback shows off (R168). -/
  gdenWaits : Bool
  deriving DecidableEq, Repr

/-- One capture record (Table 6.7). -/
structure CapRecord where
  time : Nat
  iU : Q
  iV : Q
  iW : Q
  udc : Q
  angle : Nat
  flags : Nat
  ud : Q
  uq : Q
  deriving DecidableEq, Repr

/-- The capture ring of one axis, and its quarter of the store (R171, Table 6.6). -/
structure Capture where
  /-- STATE: 0 empty, 1 recording, 2 frozen, 3 written. -/
  state : Nat
  /-- The records, newest first, at most 8,190. -/
  ring : List CapRecord
  /-- A trip has occurred and this many records are still to be taken before the ring freezes. -/
  remaining : Option Nat
  tripTime : DWord
  tripSrc : Nat
  tripCarrier : Nat
  tripAt : Nat
  later : Nat
  tripCmp : Nat
  tripDsf : Nat
  /-- What was written to the store: header and records. -/
  store : List Byte
  deriving DecidableEq, Repr

/-- A SAR slot of a converter: its last result (Tables 7.3, 7.11). -/
structure SarSlot where
  code : Nat
  ain : Nat
  /-- A result exists since cast-on. -/
  valid : Bool
  ovr : Bool
  requeued : Bool
  /-- Drive time of the hold instant. -/
  time : Nat
  /-- The result before it: code, OVR, drive time (R192). -/
  before : Option (Nat × Bool × Nat)
  deriving DecidableEq, Repr

/-- One SAR converter (R174 to R182, R195 to R197, Table 7.11). -/
structure Converter where
  slots : Vector SarSlot 20
  calibrated : Bool
  /-- The regular slot being converted, if any, and the slots re-queued to run after the injected sequence (R177, R178). -/
  regular : Option Nat
  requeue : List Nat
  /-- The conversion in progress is that of a re-queued slot (R178). -/
  rerun : Bool
  /-- AIN39 is the next of the check channels AIN38 and AIN39, AIN37 the next of AIN36 and AIN37 on ADC7 (R177, R193). -/
  chkNext : Bool
  sharedNext : Bool
  /-- Injected slots still to run in the running sequence, and the trigger code held (R178). -/
  injected : List Nat
  heldCode : Option Nat
  aborts : Nat
  injOverrun : Nat
  ovrCount : Nat
  /-- Last check codes AIN38 and AIN39, and when each was converted (model time). -/
  chkHi : Nat
  chkLo : Nat
  chkHiAt : Option Nat
  chkLoAt : Option Nat
  /-- Plausibility: outlier, STALE, in the majority at the last evaluation, clean evaluations in a row (R196, R197). -/
  outlier : Bool
  stale : Bool
  majority : Bool
  clean : Nat
  deriving DecidableEq, Repr

/-- One delta-sigma channel (R183 to R185, Table 7.12). -/
structure DsChannel where
  /-- VALUE, as a fraction of full scale. -/
  value : Q
  ovr : Bool
  fault : Bool
  /-- The fault's cause stands, and model time since which the channel passes R185 again after it. -/
  failing : Bool
  clockOk : Bool
  time : Nat
  /-- A trigger of the channel's owner waits for its evaluation; the last decimated output (R184). -/
  due : Bool
  last : Q
  goodSince : Nat
  deriving DecidableEq, Repr

/-- The converters and the plausibility check (R195 to R197, Table 7.13). -/
structure Sensing where
  adc : Vector Converter 8
  sd : Vector DsChannel 16
  /-- Trigger codes raised and not yet taken in the ADC domain (R178, R181). -/
  raised : List Nat
  unresolved : Bool
  reference : Bool
  resolvedClean : Nat
  evaluations : Nat
  deriving DecidableEq, Repr

/-- Measured currents and voltages of one axis (R186 to R194). -/
structure SenseAxis where
  /-- The calibrated zeros of the current channels U, V, W, where calibrated (R187). -/
  zero : Vector (Option Q) 3
  /-- The samples of the calibration in progress: their sum and number by leg (R187). -/
  zeroSum : Vector Q 3
  zeroN : Vector Nat 3
  /-- The last phase currents used, the DC link and the phase voltages (R186, R192). -/
  iU : Q
  iV : Q
  iW : Q
  udc : Q
  /-- The hold instant of the last sample in drive time, and in taps of model time (R351). -/
  hold : Nat
  holdTap : Nat
  uU : Q
  uV : Q
  uW : Q
  /-- Currents predicted for the next sample, for R188. -/
  predU : Q
  predV : Q
  predW : Q
  nearCount : Nat
  sumFails : Nat
  ovrFails : Nat
  missFails : Nat
  /-- The reload, in steps of 2.5 ns of drive time, whose sample has been found missing last (R191). -/
  missAt : Option Int
  /-- A complete sample has arrived since the SAMPLE_LOST trip (R191). -/
  completeSince : Bool
  /-- Every gate output of the axis has been low since (model time) (R187). -/
  gatesLowSince : Nat
  /-- Consecutive mismatching low-side pairs, and the valid pairs not yet compared, oldest first: the currents of legs U and V and the drive
  time (R194). -/
  lsFails : Nat
  lsPairs : List (Q × Q × Nat)
  lsInvalid : Nat
  /-- The conduction interval that has had its pair, by the tap of its later rise (R193). -/
  lsTaken : Option Nat
  /-- The valley sample of legs U and V nearest to a pair. -/
  valleyU : Q
  valleyV : Q
  /-- Its drive time. -/
  valleyAt : Nat
  /-- A calibration left the limit and none has completed inside it since (R187). -/
  offsetBad : Vector Bool 3
  deriving DecidableEq, Repr

/-- The state machine of one axis and what its commands set (R36, R219, R324, R591). -/
structure AxisCore where
  st : AxState
  sub : SafeSub
  /-- A DISCHARGE of the axis has completed while in SAFE (R33, R428). -/
  discharged : Bool
  /-- The run state the start command names, or warm-up (R591). -/
  target : AxState
  warmup : Bool
  /-- REF and RAMP of the command, and CLAMPED of the response (Table 3.19). -/
  ref : Q
  ramp : Q
  clamped : Bool
  /-- A run state to take at the next dispatch, with the slot to be answered, REF and RAMP (R591). -/
  nextRun : Option (AxState × Nat × Q × Q)
  /-- An SS1 request taken and not yet in force: STOPPING begins at the next dispatch (R407). -/
  ss1Asked : Bool
  /-- Starts are refused because of the axis: OVERTEMP_STOP (R362) and shedding (R312). -/
  overtemp : Bool
  shed : Bool
  /-- The torque references of the CAN message and of the paralleled share (R219, R478, R494), and the share's ramp fraction. -/
  canRef : Q
  shareRef : Q
  shareFrac : Q
  deriving DecidableEq, Repr

/-- The field control of one axis (R203 to R232, Table 8.5). -/
structure Control where
  /-- PI integrators in volts (R208), and those of the difference loop of a group member (R226). -/
  xd : Q
  xq : Q
  dxd : Q
  dxq : Q
  /-- The limited voltages committed at the previous dispatch (R210). -/
  ud : Q
  uq : Q
  /-- Δλ (R223). -/
  dl : Q
  /-- PRESET waiting for the next dispatch, FW_HOLD and TQ_ZERO (R212). -/
  preset : Option (Q × Q)
  fwHold : Bool
  tqZero : Bool
  idRef : Q
  iqRef : Q
  id : Q
  iq : Q
  /-- The limited and ramped torque reference, T_EST, the smallest ceiling and its code. -/
  tRef : Q
  tEst : Q
  tCeil : Q
  limiter : Nat
  voltSat : Bool
  fwExhausted : Bool
  modIndex : Q
  strategy : Nat
  /-- Model time since which the current error, and the field-weakening exhaustion, last without a break (R213, R223). -/
  errSince : Option Nat
  exhSince : Option Nat
  satCount : Nat
  exhCount : Nat
  /-- The angle of the last sample in turns, and its electrical speed. -/
  theta : Q
  w : Q
  /-- The angle source in use: 0 none, 1 primary, 2 secondary interface, 3 observer (R260). -/
  src : Nat
  /-- R261: the secondary is not eligible; since when the sources disagree, and agree. -/
  secBad : Bool
  /-- The model time at which the two sources last lay farther apart than XCHECK_LIMIT (R260). -/
  farLast : Option Nat
  /-- |u_pre| of the last dispatch (R223), and whether the primary was VALID then (R261). -/
  uPre : Q
  /-- The limited voltages of the dispatch before the last (R276), and the filtered resistance behind a frozen estimate (R229). -/
  udOld : Q
  uqOld : Q
  rsFilt : Q
  priWas : Bool
  disSince : Option Nat
  agreeSince : Option Nat
  /-- POSITION_SOURCE_NONE stands (Table 9.8). -/
  sourceNone : Bool
  /-- T_ILIM for each column (R224). -/
  tIlim : Vector Q 32
  /-- Sums of the running 1 ms interval of the tracking context, and whether it counts so far (R229, R230). -/
  n : Nat
  sumId : Q
  sumIq : Q
  sumUd : Q
  sumUq : Q
  sumW : Q
  okRs : Bool
  okKe : Bool
  /-- Estimates, their validity, and the counted milliseconds (R229, R230). -/
  rsEst : Q
  rsValid : Bool
  rsMs : Nat
  rsBad : Bool
  psiEst : Q
  keValid : Bool
  keMs : Nat
  keDev : Q
  /-- R231: ABNORMAL_KE stands, with the counted milliseconds outside and inside the window. -/
  abnormalKe : Bool
  outMs : Nat
  inMs : Nat
  /-- R232: WRONG_MOTOR stands; a first-spin check is due; its counted milliseconds. -/
  wrongMotor : Bool
  spinDue : Bool
  spinMs : Nat
  /-- Currents shared between group members for the mean (R226): the last dq currents of this member. -/
  memberId : Q
  memberIq : Q
  deriving DecidableEq, Repr

/-- The state of a position source (R258). -/
inductive SrcState where
  | valid | stale | failed
  deriving DecidableEq, Repr

/-- One compare channel (R263). -/
structure CompareCh where
  armed : Bool
  v : Int
  spacing : Int
  deriving DecidableEq, Repr

/-- A hit record (R263): the time in drive time, as a quantity where it is interpolated. -/
structure HitRecord where
  channel : Nat
  v : Int
  time : Q
  interpolated : Bool
  snapped : Bool
  deriving DecidableEq, Repr

/-- The snapshot record (Table 9.3). -/
structure Snapshot where
  elec : Nat
  referenced : Bool
  valid : Bool
  stale : Bool
  snapped : Bool
  mode : Nat
  count : Nat
  turns : Int
  speed : Q
  time : Nat
  deriving DecidableEq, Repr

/-- One position interface (R237 to R264, Table 9.7). -/
structure PosIfc where
  st : SrcState
  reason : Nat
  referenced : Bool
  /-- The mechanical count is referenced: with MODE 4 only after a referencing event where RES_SPEED is above 1 (R248). -/
  mechRef : Bool
  count : Nat
  turns : Int
  /-- The reported extended position of DIRMODE 1, the direction of the last edge, and an edge held back (R254). -/
  reported : Int
  lastDir : Int
  held : Bool
  /-- The filtered levels of A and B, in MODES 2 and 4 those of the comparators of COS and SIN (R238, R241). -/
  levelA : Bool
  levelB : Bool
  /-- Edges, newest first: time in 5 ns units, extended position, eligible for R255. -/
  edges : List (Nat × Int × Bool)
  speed : Q
  /-- Drive time to which the angle belongs; model times of the last new estimate or frame and of the
  last snapshot. -/
  time : Nat
  updated : Nat
  snapAt : Nat
  snapped : Bool
  snap : Option Snapshot
  /-- A record has come since the current loop last looked (R258). -/
  fresh : Bool
  /-- Consecutive dispatches with the source stale (R258). -/
  staleRun : Nat
  oow : Nat
  /-- Consecutive amplitude violations (R243), and consecutive frame and quadrature errors (R247). -/
  viol : Nat
  frameErrs : Nat
  quadErr : Nat
  serErr : Nat
  serOverrun : Nat
  indexObs : Nat
  drift : Int
  indexMissing : Bool
  /-- P at the last index, or at the referencing command, or at the last INDEX_MISSING (R251). -/
  indexP : Int
  /-- The next index is a referencing event; a REFSW edge is awaited as one (R250, R252). -/
  awaitIndex : Bool
  awaitSwitch : Bool
  compareDisarmed : Bool
  compare : Vector CompareCh 3
  hits : List HitRecord
  lost : Nat
  /-- DIAG words 9 to 11: CH, SPACING, OFFSET. -/
  diagCh : Nat
  diagSpacing : Nat
  diagOffset : Nat
  /-- Emulation (R264): remainder, backlog with its sign, output counts, the output count at which Z is high, the model time of the last
  output count, and the time from one output count to the next, in ticks. -/
  emuRem : Int
  emuBacklog : Int
  emuOut : Int
  emuZ : Option Int
  emuAt : Q
  emuStep : Q
  ampSq : Q
  /-- MODE 2: quadrant count and its latch at the trigger (R242). -/
  quad : Int
  quadAt : Int
  /-- MODE 4: the samples of the previous peak, its sign and time; the tracking loop in MODES 2 and 4 (R245, R256). -/
  prevS : Q
  prevC : Q
  prevPos : Option Bool
  prevTime : Nat
  trkAngle : Q
  /-- The integrator of the loop. -/
  trkSpeed : Q
  trkTime : Nat
  trkOn : Bool
  /-- MODE 3: a frame runs, drive time of its first falling clock edge; position and time of the last good frames. -/
  frameBusy : Bool
  frameAt : Nat
  good : Option (Int × Nat)
  /-- SOURCE_RESTORED is due at the next VALID (R262). -/
  restoreDue : Bool
  deriving DecidableEq, Repr

/-- The latch of a reference switch (R252). -/
structure RefLatch where
  /-- Captured extended position (or m of the auxiliary channel) and drive time. -/
  value : Int
  time : Nat
  rising : Bool
  deriving DecidableEq, Repr

/-- The rotation monitor of one axis (R270 to R275). -/
structure Monitor where
  eLine : Q
  /-- ω_m, electrical rad/s, and the electrical angle of the rotor d axis in turns, with the drive time to which it belongs. -/
  speed : Q
  angle : Q
  angleAt : Nat
  rotating : Bool
  clipped : Bool
  /-- Consecutive runs at or above, and below, DETECT_MIN; the direction of the last runs. -/
  above : Nat
  below : Nat
  dir : Int
  lastVector : Q
  /-- The last vector is that of the phase currents (R273). -/
  lastAmps : Bool
  /-- The electrical arc, in turns, over which each line voltage has stayed within 2 % of the DC link (R272). -/
  arcUV : Q
  arcVW : Q
  /-- The line voltages UV and VW of the last run (R272). -/
  lineUV : Q
  lineVW : Q
  /-- The last zero crossing of a line voltage: its drive time, where there has been one, the vector angle there in turns, and the speed that
  the interval before it gives (R272). -/
  crossAt : Option Q
  crossVec : Q
  crossW : Q
  /-- Electrical turns counted since cast-on (Table 10.5 word 10). -/
  turns : Q
  /-- Drive time of the last run. -/
  lastRun : Nat
  /-- The source row of Table 10.1, and what the sources stood at when the odometry was advanced last, in electrical turns: the angle of the
  current loop, the turns of the monitor, the position of the interface that counts (R274). -/
  odoSrc : Nat
  odoPrev : Vector (Option Q) 3
  /-- Electrical turns monitored in this episode with all switches off, the interface's count at its start, and the
  event raised once (R275). -/
  episode : Q
  episodeCount : Int
  episodeRaised : Bool
  deriving DecidableEq, Repr

/-- The state of the observer source (R281). -/
inductive ObsState where
  | valid | unlocked | recapturing | failed
  deriving DecidableEq, Repr

/-- The sensorless observer of one axis (R276 to R285). -/
structure Observer where
  st : ObsState
  inUse : Bool
  /-- Estimated angle in turns, the drive time to which it belongs in ticks, PLL integrator and speed in electrical rad/s (R276, R278). -/
  th : Q
  time : Q
  wp : Q
  w : Q
  /-- Filtered back-EMF, previous currents, previous half-period changes (R277, R279). -/
  egf : Q
  ehf : Q
  igP : Q
  ihP : Q
  dihP : Q
  ihHalf : Q
  hfPhase : Nat
  hfSign : Int
  /-- The signs of the injection in the last two committed sets, newest first, and whether a half-period ends with the set (R279). -/
  hfSent : List (Int × Bool)
  hfActive : Bool
  /-- The last injection error, and the dq currents of the last dispatches, newest first (R279). -/
  errHf : Q
  /-- The resistance in the observer gains as Pair B recomputed them last, and when (R276). -/
  rsGain : Option Q
  gainAt : Nat
  hist : List (Q × Q)
  /-- Consecutive dispatches below LOCK_ERR, above LOSS_ERR, and failing the magnitude test. -/
  lockRun : Nat
  lossRun : Nat
  emfRun : Nat
  /-- The speed at the moment of loss, the extrapolated angle and the model time of the loss (R283, R284). -/
  wH : Q
  thH : Q
  lostAt : Nat
  /-- A stop or SS1 request held until the recapture ends: 0 none, 1 ramp, 2 SS1 (R285). -/
  heldStop : Nat
  err : Q
  blend : Q
  losses : Nat
  recaptures : Nat
  deriving DecidableEq, Repr

/-- The catch of one axis (R286 to R294). -/
structure Catch where
  /-- CATCH_STEP: 0 not in CATCH, 1 to 7 the step of Table 10.2. -/
  step : Nat
  waiting : Bool
  /-- Speed (electrical), angle and E_line found at step 1. -/
  speed : Q
  angle : Q
  eLine : Q
  standstill : Bool
  /-- The standstill angle comes from injection (R288). -/
  identify : Bool
  startedAt : Nat
  /-- Model time of the start, or of the last outcome of step 1 (R287). -/
  foundAt : Nat
  /-- Model time of the synchronisation, and the code that refused the catch (0: none). -/
  syncAt : Nat
  refusal : Nat
  /-- The AXIS.START that waits for its response: slot (R294). -/
  answerSlot : Option Nat
  /-- Mechanical speed found, for the response. -/
  found : Q
  catches : Nat
  refusals : Nat
  deriving DecidableEq, Repr

/-- One loop engine (R301, R302, R309, Table 11.9). -/
structure Engine where
  failed : Bool
  stopped : Bool
  /-- Planned load in 0.01 %, and context data in units of 64 bytes. -/
  load : Nat
  localUsed : Nat
  /-- The contexts placed here. -/
  ctx : List Nat
  overruns : Nat
  late : Nat
  dispatches : Nat
  /-- The contexts whose last dispatch overran (R302). -/
  overran : List Nat
  /-- PEAK: the highest busy fraction of a 1 ms window, in 0.01 % (Table 11.9). -/
  peak : Nat
  /-- The engine has stopped dispatching altogether, found by a reservation that did not start (R309). -/
  hung : Bool
  deriving DecidableEq, Repr

/-- A migration plan (R310): where each context goes, the axes shed and tripped, the highest load. -/
structure Plan where
  place : List (Nat × Nat)
  shed : Nat
  trip : Nat
  load : Nat
  deriving DecidableEq, Repr

/-- The Rigger and the fabric (R300 to R320, Tables 11.10, 11.11). -/
structure Rigger where
  engines : Vector Engine 4
  plans : Vector Plan 4
  /-- The engines whose plans load, oldest first, from the declaration to Tm (R311). -/
  migrating : List (Fin 4)
  /-- The instants of those declarations, in the same order. -/
  declaredAt : List Nat
  shed : Nat
  /-- The longest wait of each requester that FABRIC_STARVED reported, in FABRIC cycles (R316). -/
  maxWait : Vector Nat 12
  starved : Nat
  accessFaults : Nat
  lastReq : Nat
  /-- PREEMPTIONS, and when COUNTS or a cast-on last cleared the counters of the fabric (Table 11.10). -/
  preemptions : Nat
  countsAt : Nat
  /-- The schedule of the shadow set: contexts with their engines (R303). -/
  staged : List (Nat × Nat)
  deriving DecidableEq, Repr

/-- The profile context of one axis (R321 to R333, Table 12.5). -/
structure Profile where
  /-- Planned position, speed and acceleration, and the segments still to run: periods and jerk (R326). -/
  p : Q
  v : Q
  a : Q
  segs : List (Nat × Q)
  /-- The target as extended position, and the speed limit its command gave (0 for V_MAX). -/
  target : Option Int
  vMax : Q
  moving : Bool
  replan : Bool
  settleSince : Option Nat
  /-- Valleys since the valley of the last dispatch (R321). -/
  valleys : Nat
  /-- A held move: its target, and the remaining distance latched at OFF (R331). -/
  held : Option Int
  latched : Option Int
  /-- The speed integrator and the two followers: value and rate (R323, R324). -/
  xw : Q
  wRef : Q
  aRef : Q
  tq : Q
  tqRate : Q
  /-- The torque the context supplies to R219. -/
  torque : Q
  /-- Speeds since the last dispatch, for the mean over Tp (R322), and that mean. -/
  sumW : Q
  nW : Nat
  wm : Q
  pErr : Q
  inPosition : Bool
  moves : Nat
  followErrors : Nat
  deriving DecidableEq, Repr

/-- One auxiliary H-bridge (R335, R336). -/
structure AuxBridge where
  /-- 0 off, 1 driving, 2 decaying. -/
  phase : Nat
  /-- The turn-on is in its BLANK time. -/
  blank : Bool
  /-- The overcurrent comparator at the end of BLANK, and the consecutive drive phases with it active. -/
  above : Bool
  overRun : Nat
  /-- The commanded direction, the model time at which the phase began, and that of the last turn-off of each switch, in the order high and
  low of the first half-bridge, high and low of the second (R334, R335). -/
  forward : Bool
  since : Nat
  offAt : Vector (Option Nat) 4
  deriving DecidableEq, Repr

/-- The auxiliary actuator channel (R334 to R344, Table 12.6). -/
structure Aux where
  energised : Bool
  moving : Bool
  referenced : Bool
  fault : Nat
  holdCurrent : Bool
  m : Int
  target : Int
  held : Option Int
  /-- The rate of the running move in microsteps per second, with its sign, and its limit. -/
  rate : Q
  rateCap : Q
  stopping : Bool
  latch : Int
  overcurrents : Nat
  openLoads : Nat
  /-- Model time since which the channel stands still; end of a MODE 2 run time; the instant before which no microstep follows (R338); the
  solenoids that are pulling in, and since when; the beginning of the park. -/
  standSince : Nat
  runEnd : Nat
  nextStep : Nat
  pullOn : Vector Bool 2
  pullAt : Vector Nat 2
  parkAt : Nat
  solOn : Vector Bool 2
  /-- The park of bind-off runs (R344), and the position and its referencing kept in the staging RAM with HOLD_KEEP (R339). -/
  parking : Bool
  kept : Option Int
  keptRef : Bool
  keptStale : Bool
  bridges : Vector AuxBridge 2
  deriving DecidableEq, Repr

/-- Reef and temperatures of one axis (R349 to R367, Table 13.7). Elements are UH, UL, VH, VL, WH, WL. -/
structure ThermalAxis where
  reef : Nat
  cause : Nat
  /-- Model times at which level 1, 2, 3 was last requested (R360). -/
  asked : Vector Nat 3
  /-- Thresholds in force, bit l for level l + 1 (R359). -/
  tjOn : Nat
  twOn : Nat
  tcOn : Nat
  udcOn : Bool
  lowTemp : Bool
  coldOut : Bool
  boost : Bool
  /-- The fractions of R361: present start, end, start time, length in seconds. -/
  tFrom : Q
  iFrom : Q
  tTo : Q
  iTo : Q
  fracAt : Nat
  /-- The times of their ramps (R361). -/
  tTime : Q
  iTime : Q
  /-- Energies charged since the last step, and the four stage rises, of switches and diodes (R350 to R353). -/
  eSw : Vector Q 6
  eD : Vector Q 6
  /-- Edges whose switching energy waits for the samples on both sides of it: leg, direction, t_ref in taps of model time (R351). -/
  edges : List (Fin 3 × Bool × Nat)
  /-- The leg that a single THERMAL context serves next (R354). -/
  turn : Fin 3
  rSw : Vector (Vector Q 4) 6
  rD : Vector (Vector Q 4) 6
  /-- Rise of the winding above T_ref, and the magnet temperature where MAG_MODE is 1 (R357, R358). -/
  windRise : Q
  tMag : Option Q
  /-- Chain entries ignored for their voltage, and for their converter (R356). -/
  ignored : Nat
  ignoredConv : Nat
  outRun : Vector Nat 3
  inSince : Vector (Option Nat) 3
  exhausted : Bool
  /-- The warm-up id reference, and its final ramp (R367). -/
  warmI : Q
  warmEnding : Bool
  warmStep : Q
  reefChanges : Nat
  ignores : Nat
  deriving DecidableEq, Repr

/-- What the classifier and the diagnostics hold of one pair (R374 to R392, Table 14.8). -/
structure LockPair where
  /-- A core of the pair is halted; COMPARATOR_TEST_FAIL or REGSIG_LATE, and COMPARATOR_DISAGREE, are outstanding. -/
  halted : Bool
  testFail : Bool
  disagree : Bool
  /-- The first class since cast-on: class, group within the pair, stage, drive time (R375). -/
  firstClass : Nat
  firstGroup : Nat
  firstStage : Nat
  firstTime : DWord
  later : Nat
  runTests : Nat
  regsigRuns : Nat
  /-- Longest interval between signatures in 100 µs units, and model time of the last (R382). -/
  regsigGap : Nat
  regsigAt : Nat
  splits : Nat
  rejoins : Nat
  /-- A debugger's halt request held until the device reaches IDLE (R390). -/
  haltHeld : Bool
  deriving DecidableEq, Repr

/-- The lockstep pairs (R371 to R392); index 0 is Pair A. -/
structure Lockstep where
  /-- MODE.PAIR_B_SPLIT and DBG_SPLIT (Table 3.8). -/
  pairBSplit : Bool
  dbgSplitA : Bool
  dbgSplitB : Bool
  /-- Pair A or Pair B has failed (R377, R378). -/
  pairAFailed : Bool
  pairBFailed : Bool
  /-- A run inhibit that a lockstep event set (R379). -/
  inhibit : Bool
  pairs : Vector LockPair 2
  /-- The next group of RUN injection, 0 to 63 (R381). -/
  nextGroup : Nat
  /-- The tasks of Table 14.4 run on Pair A (R378, R383). -/
  takeover : Bool
  /-- A split of Pair B waits for the next 1 ms boundary, and the debugger's halt follows it (R384, R390). -/
  splitDue : Bool
  haltAfterSplit : Bool
  /-- The step of Table 14.5 that a rejoin has reached, 0 when none runs (R386). -/
  rejoin : Nat
  /-- Axes whose starts are refused until the power cycle, bit per axis (R378). -/
  noStart : Nat
  deriving DecidableEq, Repr

/-- Memory errors (R394, Table 14.9): corrected and uncorrectable errors per SRAM bank, and of loop-engine memory, CAN message RAM,
capture buffer and staging RAM in that order. -/
structure Ecc where
  corrected : Vector Nat 8
  bad : Vector Nat 8
  otherCorrected : Vector Nat 4
  otherBad : Vector Nat 4
  scrubs : Nat
  /-- Words of the Rigger pool with an uncorrectable error, each with the axes it tripped, bit per axis. -/
  pool : List (Nat × Nat)
  deriving DecidableEq, Repr

/-- Drive safety of one axis (R399 to R414). -/
structure SafetyAxis where
  /-- The safe-state selection (R403) and the values it was made from (R402). -/
  selection : SafeSub
  /-- The axis itself selects ASC, apart from the members of its ring group (R403, R496). -/
  ownAsc : Bool
  /-- IDLE_OVERSPEED has handled the present selection of ASC on the axis while OFF (R406). -/
  idleHandled : Bool
  speedUnknown : Bool
  eEst : Q
  uTh : Q
  uDc : Q
  degraded : Bool
  /-- The torque state of a stop: SS1 or the kind 0 ramp; start, deadline (model time) and |ωm| at the start (R407 to R410). -/
  stopSs1 : Bool
  stopAt : Nat
  stopDeadline : Nat
  stopSpeed : Q
  /-- The torque reference at the entry into STOPPING (R408). -/
  stopTq : Q
  /-- The stop runs on the speed follower of R330. -/
  stopFollow : Bool
  envelopeFails : Nat
  /-- The axis holds zero speed while the brake engages (R414). -/
  brakeEngaging : Bool
  /-- The brake output is on (brake released), and torque is held for BRAKE_RELEASE_TIME (R413). -/
  brakeOut : Bool
  brakeHolding : Bool
  /-- Model time of the last change of the brake. -/
  brakeAt : Nat
  /-- SLS was active at the last look, braking into it runs, since when it is to be reached (R411). -/
  slsWas : Bool
  slsBraking : Bool
  slsBy : Nat
  /-- When the entry braking began, and the reference that it moves from (R408, R411). -/
  slsAt : Nat
  slsTq : Q
  /-- Model time since which the speed exceeds 1.05 × SLS_LIMIT; SLS_EXCEEDED has been raised for this excess. -/
  slsOver : Option Nat
  slsTold : Bool
  /-- Displacement in the forbidden direction since SDI became active, and the last angle seen (R412). -/
  sdiWas : Bool
  sdiDisp : Q
  sdiLast : Q
  /-- A safe-input result requests SLS on the axis (R445). -/
  inSls : Bool
  deriving DecidableEq, Repr

/-- A low-side pair of ADC7 (R193): currents, angle and power terms of the interval. -/
structure LsPair where
  iU : Q
  iV : Q
  /-- The decoder angle at the hold instant, 0 to 65,535. -/
  angle : Nat
  /-- The on-time fractions of the high-side balls over the PERIOD ending at the pair. -/
  dU : Q
  dV : Q
  dW : Q
  deriving DecidableEq, Repr

/-- The Backstay's view of one axis (R415 to R425, Table 15.10). -/
structure BackstayAxis where
  /-- The window in force: MODE 0 OFF, 1 BOUNDED, 2 SAFE_STATE; DIR; bounds (Table 15.3). -/
  mode : Nat
  dir : Nat
  tLo : Q
  tHi : Q
  iWin : Q
  wMax : Q
  /-- Gate enable removed by the Backstay. -/
  geRemoved : Bool
  /-- A trip is held: treated as SAFE_STATE whatever the frame names (R422 step 3). -/
  held : Bool
  /-- The 20 µs between removal and release run (R422 step 2). -/
  releaseDue : Bool
  /-- Model time of the last removal (R422). -/
  removedAt : Nat
  /-- Model time since which SAFE_STATE governs the axis; the pattern last seen on its gate balls in it, and when that changed (R423). -/
  safeSince : Option Nat
  pattern : Option Nat
  changedAt : Option Nat
  /-- The BACKSTAY source has been cleared since the trip, so that a frame naming OFF ends `held` (R422). -/
  cleared : Bool
  /-- R423 has acted: removed until a power cycle. -/
  patternLock : Bool
  /-- Consecutive accepted frames since the trip naming SAFE_STATE or OFF (R425). -/
  goodFrames : Nat
  /-- Violating methods of the last interval: bit 4 ANGLE, 3 POWER, 2 CURRENT, 1 SPEED, 0 DIRECTION. -/
  violating : Nat
  debounce : Nat
  blind : Bool
  noPairRun : Nat
  tA : Q
  tP : Q
  iBs : Q
  wBs : Q
  violations : Nat
  noPair : Nat
  /-- The decoder (R416). -/
  count : Int
  referenced : Bool
  forbidden : Q
  /-- Its edges of the last millisecond, newest first, and the direction of the last (R416). -/
  edges : List (Nat × Int × Bool)
  lastDir : Int
  /-- Valid low-side pairs of the running interval. -/
  pairs : List LsPair
  deriving DecidableEq, Repr

/-- The Backstay as a whole (R415 to R425, Table 15.11). -/
structure Backstay where
  armed : Bool
  feedLost : Bool
  /-- Liveness has been lost: gate enable is removed on every axis, without release (R23, R424). -/
  livenessLost : Bool
  bench : Bool
  seq : Nat
  rejected : Nat
  accepted : Nat
  /-- ADC7 reading of the DC link (R402). -/
  udc : Q
  /-- The configuration copy: its image (R415). -/
  copy : Option (List Byte)
  /-- The certificate in force at that copy, for its ceilings. -/
  copyCert : Option (List Byte)
  /-- The levels of A and B of each interface as the Backstay's decoder has them (R416). -/
  levelA : Vector Bool 4
  levelB : Vector Bool 4
  /-- No frame has been accepted since the last feed loss (R421, R425). -/
  feedDown : Bool
  /-- Model time of the last accepted frame. -/
  lastAccepted : Nat
  deriving DecidableEq, Repr

/-- Active discharge (R426 to R429, Table 15.11 word 2). -/
structure Discharge where
  /-- DISCH_STATE: 0 none, 1 running, 2 done, 3 timed out; DISCH_METHOD: 0 none, 1 RESISTOR, 2 WINDINGS. -/
  state : Nat
  method : Nat
  axis : Nat
  startedAt : Nat
  ms : Nat
  /-- The DISCH ball is high (R427). -/
  ball : Bool
  /-- A winding discharge ramps id_ref back to 0 after reaching 60 V (R428 step 3). -/
  ending : Bool
  /-- An automatic discharge has been tried since SAFE latched (R426). -/
  autoTried : Bool
  deriving DecidableEq, Repr

/-- One function of the safe-input unit (R443 to R448). -/
structure SiFn where
  /-- The function requests its result. -/
  active : Bool
  /-- Locked by SI_DISCREPANCY, and by SI_TEST_FAIL of an input (R443). -/
  lockDisc : Bool
  lockTest : Bool
  /-- Since the lock, both channels have shown demand together, and both have then returned healthy (R443). -/
  sawBoth : Bool
  sawHealthy : Bool
  /-- A reset of an emergency stop or a restart of a light curtain is pending (R446, R448). -/
  restart : Bool
  /-- Two-hand permission, a release of both buttons is awaited, and model time of the first button (R447). -/
  permit : Bool
  awaitRelease : Bool
  firstAt : Option Nat
  /-- Model time since which the channels of each contact pair differ (R443). -/
  differAt : Vector (Option Nat) 2
  /-- An SS1 with END_STO has not yet led to STO_INT (R445). -/
  endSto : Bool
  deriving DecidableEq, Repr

/-- The safe-input unit (R438 to R449, Table 16.6). -/
structure SafeIn where
  /-- Sampled and filtered levels, bit n for SIn. -/
  raw : Nat
  filtered : Nat
  /-- Model time of the last rise of each filtered input (R446). -/
  riseAt : Vector Nat 16
  /-- Model time of the last sample; for each ball and sampler path the low samples in a row, those in a window of its own pulse left out;
  samples in a row at which the two paths differed (R438, R440, R441). -/
  sampledAt : Nat
  lowA : Vector Nat 16
  lowB : Vector Nat 16
  differ : Vector Nat 16
  /-- Model time that the pulse periods count from (R439, R442). -/
  tpFrom : Nat
  /-- The pulse whose window runs, with its start; the inputs whose contact was closed then, those seen low within 50 µs of its start and
  high within 50 µs of its end, and those seen low during it (R440). -/
  tp : Nat
  tpAt : Option Nat
  tpClosed : Nat
  tpLow : Nat
  tpHigh : Nat
  tpCross : Nat
  /-- Inputs with SI_TEST_FAIL outstanding, and the pulse tests passed in a row since (R443). -/
  testFail : Nat
  passes : Vector Nat 16
  fns : Vector SiFn 8
  /-- SAFE_IN_FAULT stands; cross-checks that differed in a row (R441). -/
  fault : Bool
  crossFails : Nat
  /-- The functions that set STO_INT, bit per function (R445, R446). -/
  stoBy : Nat
  demands : Nat
  tests : Nat
  deriving DecidableEq, Repr

/-- The safe outputs SO0 to SO3 (R450 to R453, Table 16.7). -/
structure SafeOut where
  on : Vector Bool 4
  failed : Vector Bool 4
  /-- A pulse holds the output off; the reason of a failure; pulses passed. -/
  pulsing : Vector Bool 4
  reason : Vector Nat 4
  pulses : Vector Nat 4
  /-- SOFBn shows on, as last looked at. -/
  fb : Vector Bool 4
  /-- The output is on, out of a pulse; since when this stands; the readback has shown it since; since when it then shows otherwise; a pulse has
  ended whose on has not been seen; the longest off delay in 0.1 µs (R451). -/
  driven : Vector Bool 4
  drivenAt : Vector Nat 4
  shown : Vector Bool 4
  strayAt : Vector (Option Nat) 4
  testing : Vector Bool 4
  offMax : Vector Nat 4
  /-- Axes whose starts are refused until the next cast-on, bit per axis (R453). -/
  noStart : Nat
  deriving DecidableEq, Repr

/-- A buffer descriptor (R464, Table 17.4); KIND and LIFETIME are those of the active set's entry. -/
structure CanDesc where
  buf : Nat
  /-- TXREQ of a TX buffer, NEW of an RX buffer. -/
  req : Bool
  lock : Bool
  shadowFull : Bool
  sent : Bool
  expired : Bool
  cancelled : Bool
  /-- A cancel taken while the frame was in transmission, and an expiry past its SOF (R470, R471). -/
  cancelDue : Bool
  expireDue : Bool
  overwrite : Nat
  lost : Nat
  slot : Nat
  shadow : Nat
  enq : Nat
  /-- Drive time at which TXREQ was taken (R470). -/
  reqAt : Nat
  /-- End-to-end state: VALID, correct frames in a row, last counter, timestamp of the last accepted frame, and whether the
  timeout runs (R477). -/
  valid : Bool
  okRun : Nat
  counter : Nat
  acceptedAt : Nat
  timing : Bool
  deriving DecidableEq, Repr

/-- A FIFO ring (R469): its read index and the number of entries it holds. -/
structure CanFifo where
  head : Nat
  count : Nat
  overflows : Nat
  deriving DecidableEq, Repr

/-- Where a controller stands (Table 17.12): off the bus, integrating, or on the bus. -/
inductive CanLink where
  | offline | integrating | online
  deriving DecidableEq, Repr

/-- One CAN controller (R459 to R481, Table 17.12). -/
structure CanCtl where
  link : CanLink
  tec : Nat
  rec_ : Nat
  busOff : Bool
  recovering : Bool
  waitHost : Bool
  /-- Model time of the bus-off (R474). -/
  busOffAt : Nat
  /-- A self-test holds the controller: 0 none, 1 internal, 2 external (R479). -/
  test : Nat
  /-- In protocol exception (R460), and stopped by a RAM fault (R480). -/
  pexc : Bool
  stopped : Bool
  /-- The cast-on loop-back test failed (R479). -/
  failed : Bool
  lastError : Nat
  busOffs : Nat
  txExpired : Nat
  txCancelled : Nat
  rxOverwrite : Nat
  rxLost : Nat
  pexcs : Nat
  e2eFails : Nat
  e2eTimeouts : Nat
  /-- Urgent interrupts raised to Pair B (R466). -/
  urgents : Nat
  fifos : Vector CanFifo 2
  descs : List CanDesc
  deriving DecidableEq, Repr

/-- The CAN controllers and their message RAM (R462, R463). -/
structure Can where
  /-- The message RAM: addresses 0 to 0x3FFFF, an unlisted byte reads 0. -/
  ram : List Host.Cell
  ctl : Vector CanCtl 4
  deriving DecidableEq, Repr

/-- The state of a Halyard port (R488). -/
inductive PortState where
  | down | training | up
  deriving DecidableEq, Repr

/-- One Halyard port (R486 to R490, Table 18.6). -/
structure HalyardPort where
  st : PortState
  /-- Model time of its entry into TRAINING (R488). -/
  trainedAt : Nat
  /-- The link delay in 0.25 ns units, and whether a delay exchange has completed (R488). -/
  delay : Nat
  measured : Bool
  crcErrors : Nat
  downs : Nat
  /-- The hops from the master of the last SYNC frame that this port received since it is UP; none where it carries no SYNC (R490). -/
  syncHops : Option Nat
  deriving DecidableEq, Repr

/-- The role of the device (Table 18.6). -/
inductive RingRole where
  | none | master | follower | isolated | joining
  deriving DecidableEq, Repr

/-- What the device holds of the member at one position. -/
structure RingMember where
  /-- Model time at which it was last heard; it is in step. -/
  heardAt : Option Nat
  inStep : Bool
  divergent : Bool
  /-- Its last digest exchange: generation and digest. -/
  generation : Nat
  digest : List Byte
  /-- Its origin-trip bits, and for each group the model time of its last TRIP ordered set with that bit set (R497). -/
  trips : Nat
  tripAt : Vector (Option Nat) 4
  /-- Its last SHARE, per group: in a RUN_ state, id, iq, ASC selected (R494, R496). -/
  run : Nat
  id : Vector Q 4
  iq : Vector Q 4
  asc : Nat
  deriving DecidableEq, Repr

/-- A group of paralleled stages (R492 to R495). -/
structure RingGroup where
  /-- The group reference of the master's last SHARE frame, its time, and SHARE_STALE. -/
  reference : Q
  sharedAt : Nat
  stale : Bool
  /-- The ramp of the fraction: from, to, start. -/
  fracFrom : Q
  fracTo : Q
  fracAt : Nat
  /-- The balance loop integrators (R494). -/
  balD : Q
  balQ : Q
  deriving DecidableEq, Repr

/-- A ring tack in progress (R500 to R502). -/
structure RingTack where
  /-- At the master: the positions that have answered 0, and the slot of CFG.TACK. -/
  acked : List Nat
  slot : Nat
  /-- Model time of TACK_PREPARE, or of the follower's answer. -/
  since : Nat
  committed : Bool
  deriving DecidableEq, Repr

/-- The Halyard ring (R486 to R505). -/
structure Ring where
  /-- FAULTSUM.DIVERGENT (R499). -/
  divergent : Bool
  ports : Vector HalyardPort 2
  role : RingRole
  pos : Nat
  masterPos : Nat
  epoch : Nat
  closed : Bool
  /-- The port whose recovered clock the PWM PLL is locked to; none where its reference is XIN (R20, R490, Table 1.5). -/
  pllPort : Option (Fin 2)
  members : Vector RingMember 8
  groups : Vector RingGroup 4
  /-- (SRC, SEQ) of the frames received, newest first (R487). -/
  frames : List (Nat × Nat)
  /-- Digest exchanges in a row that differed and that matched (R498, R499). -/
  differs : Nat
  matched : Nat
  /-- The announced generation and digest, and model time up to which the old and the new are no difference (R498). -/
  announced : Option (Nat × List Byte)
  /-- The digest of the active set as that tack was announced. -/
  replaced : List Byte
  graceUntil : Nat
  tack : Option RingTack
  /-- The best candidate heard in an election: priority, UID, own bid sent (R489). -/
  best : Option (Nat × Nat)
  /-- An election has ended that another device has won, and no SYNC of it has come (R489). -/
  awaited : Bool
  /-- The slot of a LINK.JOIN or LINK.LEAVE in progress. -/
  leaving : Bool
  /-- SEQ of the next frame of the device (R487). -/
  seq : Nat
  /-- What was handed to the ports, oldest first: port, TYPE, and SRC, HOPS, SEQ and payload; a TRIP ordered set has TYPE 0 and its byte. -/
  sent : List (Nat × Nat × List Byte)
  deriving DecidableEq, Repr

/-- The fuses (R3, R509, Table 19.2). -/
structure Fuses where
  /-- The unit presence map, in the layout of UNITS (R3, Table 3.6). -/
  units : Nat
  uid : Nat
  /-- The identity key, a P-256 private key (Table 19.2). -/
  identityKey : Nat
  /-- SHA-256 hashes of public keys; all zero where not fused. -/
  fwKeyHash : List Byte
  cfgKeyHash : List Byte
  limKeyHash : List Byte
  authKeyHash : List Byte
  returnKeyHash : List Byte
  /-- The firmware encryption key, and whether it is fused. -/
  fek : List Byte
  fekFused : Bool
  /-- LIFECYCLE.FW_FLOOR (R513). -/
  fwFloor : Nat
  deriving DecidableEq, Repr

/-- An unused nonce (R525, R539). -/
structure Nonce where
  bytes : List Byte
  issued : Nat
  deriving DecidableEq, Repr

/-- The security controller (R509 to R526, R539 to R542). -/
structure Security where
  fuses : Fuses
  life : Life
  /-- The log key in the battery-backed key register (Table 19.2), and its canary (R514). -/
  logKey : Option Nat
  canary : Bool
  /-- A log key has been generated before: the first cast-on in DEVELOPMENT has happened (R511). -/
  keyMade : Bool
  /-- LIFECYCLE.LOCKED, ERASED and DEBUG_OPEN (Table 3.9). -/
  locked : Bool
  erased : Bool
  debugOpen : Bool
  /-- The unused nonces of purpose 0, 1 and 2 (R525). -/
  nonces : Vector (Option Nonce) 3
  /-- Model time until which one SYS.SERVICE entry is permitted (R540). -/
  permitUntil : Option Nat
  /-- Failed signatures: the RTC of each within the last hour, and their number (R520, Table 19.15). -/
  authTimes : List Nat
  authFails : Nat
  /-- Glitches: the RTC of each within the last 24 h, and the glitch resets (R520, R521, Table 19.15). -/
  glitchTimes : List Nat
  glitchTotal : Nat
  /-- Table 19.15 word 0, bits 31 to 22: the sources held until LOCK_CLEARED. -/
  tamperHeld : Nat
  /-- Samples in a row in which each mesh mismatched, up to 2, each enclosure switch was open, up to 4, and the die temperature was out of range,
  up to 2 (R520). -/
  meshRun : Vector Nat 2
  /-- Each mesh: the next sample is the first since the release of the drivers, and is not compared (R552). -/
  meshFirst : Vector Bool 2
  encRun : Vector Nat 2
  tempRun : Nat
  /-- The tamper configuration that the AON domain holds: SECURITY.FLAGS of the last active set (Table 19.11). -/
  tamperCfg : Nat
  /-- The use of the key register is suspended for a glitch reset, which is due (R521). -/
  suspended : Bool
  glitchReset : Bool
  /-- The two copies of the certificate store (R516); empty where erased. -/
  certA : List Byte
  certB : List Byte
  /-- The certificate in force, and whether it is copy B. -/
  cert : Option (List Byte)
  certIsB : Bool
  certFloor : Nat
  /-- CERT_MISSING stands: a run inhibit outside DEVELOPMENT (R516). -/
  certMissing : Bool
  /-- The tamper slot of the staging RAM: source and RTC of detections in SLEEP (R520). -/
  aonTamper : List (Nat × Nat)
  deriving DecidableEq, Repr

/-- A record of the drive log (R527, Table 19.9). -/
structure LogRecord where
  index : Nat
  time : DWord
  rtc : Nat
  type : Nat
  severity : Nat
  unit : Nat
  link : List Byte
  body : List Byte
  deriving DecidableEq, Repr

/-- The contents of a record that has not been given its index yet. -/
structure LogDraft where
  time : DWord
  rtc : Nat
  type : Nat
  severity : Nat
  unit : Nat
  body : List Byte
  deriving DecidableEq, Repr

/-- The live counters of an axis (R536). -/
structure Counters where
  revolutions : Int
  /-- The fraction of a turn carried, in turns. -/
  turnPart : Q
  /-- Energies in whole Wh, with the remainders carried in joules. -/
  motorWh : Nat
  motorRest : Q
  regenWh : Nat
  regenRest : Q
  /-- Operating time in whole seconds, with the rest in 10 ns ticks. -/
  seconds : Nat
  secondsRest : Nat
  deriving DecidableEq, Repr

/-- A signed or unsigned checkpoint of a closed block (R529). -/
structure Checkpoint where
  first : Nat
  /-- INDEX of the block's CKPT_S. -/
  last : Nat
  hash : List Byte
  signature : List Byte
  deriving DecidableEq, Repr

/-- The drive log: staging RAM, region, chain, checkpoints, counters and export (R527 to R538). -/
structure Log where
  /-- INDEX of the next record, H of the last committed record (R530). -/
  next : Nat
  chain : List Byte
  /-- Committed records not yet flushed, oldest first (staging slots 4 to 63). -/
  staged : List LogRecord
  /-- Records in the log region, oldest first. -/
  region : List LogRecord
  /-- Drafts that wait: the log has not resumed at cast-on step 14, or a checkpoint is being signed. -/
  waiting : List LogDraft
  resumed : Bool
  /-- INDEX of the open block's BLOCK_START; no block is open where `none`. -/
  blockFirst : Option Nat
  /-- A checkpoint signature is in progress. -/
  signing : Bool
  /-- The checkpoints of the closed blocks, oldest first. -/
  ckpts : List Checkpoint
  /-- The exported index, whether an export is in progress and since when (R537, R538). -/
  exported : Nat
  exporting : Bool
  exportAt : Nat
  /-- GAP records written, records refused and not yet reported, and their total (R531, Table 19.16). -/
  gaps : Nat
  dropped : Nat
  droppedTotal : Nat
  /-- The last write was accepted; LOG_STALL stands (R532). -/
  storeOk : Bool
  stalled : Bool
  /-- Model time of the last accepted write, or of the record that ended an empty staging RAM (R532). -/
  writeAt : Nat
  /-- Model time of the last periodic COUNTERS records (R536). -/
  countersAt : Nat
  counters : Vector Counters 4
  deriving DecidableEq, Repr

/-- Everything the model holds of one axis. -/
structure Axis where
  core : AxisCore
  pwm : Pwm
  trip : Trip
  cap : Capture
  sense : SenseAxis
  ctl : Control
  prof : Profile
  mon : Monitor
  obs : Observer
  catch_ : Catch
  saf : SafetyAxis
  bs : BackstayAxis
  th : ThermalAxis
  deriving DecidableEq, Repr

/-- The block. -/
structure State where
  mode : Mode
  power : Power
  clk : Clocks
  boot : Boot
  fw : Firmware
  host : HostPart
  cfg : CfgPart
  sec : Security
  log : Log
  sto : Sto
  sensing : Sensing
  pos : Vector PosIfc 4
  refsw : Vector RefLatch 4
  /-- The excitation generators EXC0 and EXC1: the place of the DAC sine in its period, in turns (R244). -/
  exc : Vector Q 2
  aux : Aux
  rig : Rigger
  back : Backstay
  disch : Discharge
  lock : Lockstep
  ecc : Ecc
  si : SafeIn
  so : SafeOut
  can : Can
  ring : Ring
  axes : Vector Axis 4
  /-- The model's own counter of free values drawn (Config.freeQ, Config.freeNat). -/
  free : Nat
  /-- The commands that wait, first in, first out. -/
  pending : List Instr
  deriving DecidableEq, Repr

/-! ## The state right after reset

The device is held in reset with its supplies present and PORST_N low: MODE reads BOOT and BOOTSTAT.PHASE 0 (Tables 3.7,
3.8). The fuses, the external memory and the battery-backed parts have no reset value in the spec: the model names an F4
in DEVELOPMENT with no key fused and an erased memory (log entry 7). Every other field is the reset value of its table. -/

def Power.reset : Power :=
  { porstHigh := false, supplyHold := false, inReset := true, nextCause := 0, earlyHigh := false, seated := false
    pmicEn := true, wakeLatched := none, wakeCause := none, supplyBad := 0, supplyNow := 0, absent := 0, vbatLow := false, crystal := false
    resetDue := none, bindOff := false, bindAt := 0, bindDiscarded := 0, parkShort := false, cleanShutdown := true, sleepRtc := 0 }

def Clocks.reset : Clocks :=
  { now := 0, drive := 0, driveRuns := false, rtc := 0, rtcPart := 0, lost := 0, declared := 0, monitorsArmed := false }

def Boot.reset : Boot :=
  { phase := 0, halt := false, haltCode := 0, fwSlot := false, fwFallback := false, cfgSlot := false, wakeCause := 0
    startedAt := 0, windowOpen := false, fwVersion := 0, fwSecVersion := 0, fwAdvance := false
    step14 := false, testFailed := false, selftest := List.replicate 20 2, firstSpeeds := none, deferred := [] }

def Firmware.reset : Firmware :=
  { slotA := [], slotB := [], invalidA := false, invalidB := false, loadSlot := none, loadSize := 0 }

def HostPart.reset : HostPart :=
  { logGap := false, clockLoss := false, hspiErr := false, outSystem := false, outEvent := false, outFault := false
    done := 0, maskSrc := 7, maskDone := 0xFFFF, ram := [], posted := [], jobs := [], answered := [], canOut := [], sdo := []
    events := [], windows := [], beatSpi := 0, beatCan := 0, beatLost := false, owedSpi := false, owedCan := false
    reassembly := none }

def CfgSlot.reset : CfgSlot := { bytes := [], state := .invalid }

def CfgPart.reset : CfgPart :=
  { slotA := CfgSlot.reset, slotB := CfgSlot.reset, active := none, shadow := none, shadowSlot := false, writing := none
    diff := .same, diffAt := 0, tack := none, prev := none, lag := 0, movedBalls := [], movedAt := 0, claims := [], copyBroken := false }

def Fuses.reset : Fuses :=
  { units := 0x000FEF0F, uid := 0, identityKey := 1, fwKeyHash := List.replicate 32 0, cfgKeyHash := List.replicate 32 0
    limKeyHash := List.replicate 32 0, authKeyHash := List.replicate 32 0, returnKeyHash := List.replicate 32 0
    fek := List.replicate 32 0, fekFused := false, fwFloor := 0 }

def Security.reset : Security :=
  { fuses := Fuses.reset, life := .development, logKey := none, canary := false, keyMade := false, locked := false
    erased := false, debugOpen := false, nonces := Vector.replicate 3 none, permitUntil := none, authTimes := []
    authFails := 0, glitchTimes := [], glitchTotal := 0, tamperHeld := 0, meshRun := Vector.replicate 2 0, meshFirst := Vector.replicate 2 false, encRun := Vector.replicate 2 0
    tempRun := 0, tamperCfg := 0, suspended := false, glitchReset := false, certA := [], certB := [], cert := none
    certIsB := false, certFloor := 0, certMissing := false, aonTamper := [] }

def Counters.reset : Counters :=
  { revolutions := 0, turnPart := 0, motorWh := 0, motorRest := 0, regenWh := 0, regenRest := 0, seconds := 0, secondsRest := 0 }

def Log.reset : Log :=
  { next := 0, chain := List.replicate 32 0, staged := [], region := [], waiting := [], resumed := false
    blockFirst := none, signing := false, ckpts := [], exported := 0, exporting := false, exportAt := 0, gaps := 0
    dropped := 0, droppedTotal := 0, storeOk := false, stalled := false, writeAt := 0, countersAt := 0, counters := Vector.replicate 4 Counters.reset }

def CompareSet.reset : CompareSet := { cmpA := Vector.replicate 3 0, cmpB := Vector.replicate 3 0, period := 0 }

def PwmLeg.reset : PwmLeg :=
  { missH := 0, missL := 0, noisyEdges := 0, noisyCount := 0, noisy := false, markH := false, markL := false
    riseErr := none, short := false, corr := 0, carry := 0, lastSign := 0 }

def GateLeg.reset : GateLeg :=
  { h := false, openAt := none, planned := false, closeAt := none, rose := false, fell := false, high := false, low := false
    dueHigh := none, dueLow := none, onHigh := none, onLow := none, offHigh := none, offLow := none, release := none, highEdges := []
    drive := .released, held := false, windows := [] }

def Pwm.reset : Pwm :=
  { running := false, pos := 0, peaked := false, overTaps := 0, down := false, shadow := CompareSet.reset, pending := none, late := none, deferred := false
    active := CompareSet.reset, before := CompareSet.reset, eventAt := 0, eventPeak := false, shadowDone := false, commitHeld := false, periodClamp := false, memberCommit := false
    block := Vector.replicate 3 false, blockedPeriod := false, wdCount := 0, committed := false, stretchCount := 0, lateCommit := 0
    commitOverrun := 0, dropped := 0, stretched := 0, safepat := 0, safeSeq := 0, safeHeld := false, safeWritten := false, carrier := 0
    legs := Vector.replicate 3 PwmLeg.reset, gates := Vector.replicate 3 GateLeg.reset, records := [] }

def Trip.reset : Trip :=
  { src := 0, cmpLatch := 0, dsfLatch := 0, fltLatch := 0, cmpCbc := 0, dsfCbc := 0, cmpTrips := 0, dsfTrips := 0, cmpOut := 0, cmpAct := 0, dsfAct := 0
    fltLow := 0, cmpGone := Vector.replicate 24 0, dsfGone := Vector.replicate 16 0, fltGone := Vector.replicate 3 0, side := Vector.replicate 3 0, cmpHanded := 0, dsfHanded := 0, fltHanded := 0, escCmp := 0, escDsf := 0, cbcConsec := 0
    cbcTrips := 0, commitSince := false, clockDomains := 0, fwCauses := [] }

def Sto.reset : Sto :=
  { aLow := false, bLow := false, intSet := false, discrepancy := false, bothLow := false, aQual := true, bQual := true
    qualifying := false, aHighAt := 0, bHighAt := 0, differAt := 0, aGlitch := 0, bGlitch := 0, gdenWaits := false }

def Capture.reset : Capture :=
  { state := 0, ring := [], remaining := none, tripTime := 0, tripSrc := 0, tripCarrier := 0, tripAt := 0, later := 0
    tripCmp := 0, tripDsf := 0, store := [] }

def SarSlot.reset : SarSlot := { code := 0, ain := 0, valid := false, ovr := false, requeued := false, time := 0, before := none }

def Converter.reset : Converter :=
  { slots := Vector.replicate 20 SarSlot.reset, calibrated := false, regular := none, requeue := [], rerun := false, chkNext := false, sharedNext := false, injected := []
    heldCode := none, aborts := 0, injOverrun := 0, ovrCount := 0, chkHi := 0, chkLo := 0, chkHiAt := none
    chkLoAt := none, outlier := false, stale := false, majority := false, clean := 0 }

def DsChannel.reset : DsChannel := { value := 0, ovr := false, fault := false, failing := false, clockOk := false, time := 0, due := false, last := 0, goodSince := 0 }

def Sensing.reset : Sensing :=
  { adc := Vector.replicate 8 Converter.reset, sd := Vector.replicate 16 DsChannel.reset, raised := [], unresolved := false
    reference := false, resolvedClean := 0, evaluations := 0 }

def SenseAxis.reset : SenseAxis :=
  { zero := Vector.replicate 3 none, zeroSum := Vector.replicate 3 0, zeroN := Vector.replicate 3 0, iU := 0, iV := 0, iW := 0, udc := 0, uU := 0, uV := 0, uW := 0
    predU := 0, predV := 0, predW := 0, nearCount := 0, sumFails := 0, ovrFails := 0, missFails := 0, missAt := none
    completeSince := false, hold := 0, holdTap := 0, gatesLowSince := 0, lsFails := 0, lsPairs := [], lsInvalid := 0, lsTaken := none, valleyU := 0, valleyV := 0, valleyAt := 0, offsetBad := Vector.replicate 3 false }

def Monitor.reset : Monitor :=
  { eLine := 0, speed := 0, angle := 0, angleAt := 0, rotating := false, clipped := false, above := 0, below := 0, dir := 0
    lastVector := 0, lastAmps := false, arcUV := 0, arcVW := 0, lineUV := 0, lineVW := 0, crossAt := none, crossVec := 0, crossW := 0, turns := 0, lastRun := 0, odoSrc := 0, odoPrev := Vector.replicate 3 none, episode := 0, episodeCount := 0
    episodeRaised := false }

def Observer.reset : Observer :=
  { st := .valid, inUse := false, th := 0, time := 0, wp := 0, w := 0, egf := 0, ehf := 0, igP := 0, ihP := 0, dihP := 0
    ihHalf := 0, hfPhase := 0, hfSent := [], hfSign := 1, hfActive := false, errHf := 0, rsGain := none, gainAt := 0, hist := [], lockRun := 0, lossRun := 0, emfRun := 0, wH := 0
    thH := 0, lostAt := 0, heldStop := 0, err := 0, blend := 0, losses := 0, recaptures := 0 }

def Catch.reset : Catch :=
  { step := 0, waiting := false, speed := 0, angle := 0, eLine := 0, standstill := false, identify := false
    startedAt := 0, foundAt := 0, syncAt := 0, refusal := 0, answerSlot := none, found := 0, catches := 0, refusals := 0 }

def AxisCore.reset : AxisCore :=
  { st := .off, sub := .freewheel, discharged := false, target := .off, warmup := false, ref := 0, ramp := 0
    clamped := false, nextRun := none, ss1Asked := false, overtemp := false, shed := false, canRef := 0, shareRef := 0, shareFrac := 1 }

def SafetyAxis.reset : SafetyAxis :=
  { selection := .freewheel, ownAsc := false, idleHandled := false, speedUnknown := false, eEst := 0, uTh := 0, uDc := 0, degraded := false, stopSs1 := false
    stopAt := 0, stopDeadline := 0, stopSpeed := 0, stopTq := 0, stopFollow := false, envelopeFails := 0, brakeEngaging := false, brakeOut := false
    brakeHolding := false, brakeAt := 0, slsWas := false, slsBraking := false, slsBy := 0, slsAt := 0, slsTq := 0, slsOver := none, slsTold := false, sdiWas := false, sdiDisp := 0, sdiLast := 0, inSls := false }

def BackstayAxis.reset : BackstayAxis :=
  { mode := 0, dir := 0, tLo := 0, tHi := 0, iWin := 0, wMax := 0, geRemoved := true, held := false
    releaseDue := false, removedAt := 0, safeSince := none, pattern := none, changedAt := none, cleared := false, patternLock := false, goodFrames := 0, violating := 0, debounce := 0
    blind := false, noPairRun := 0, tA := 0, tP := 0, iBs := 0, wBs := 0, violations := 0, noPair := 0, count := 0
    referenced := false, forbidden := 0, edges := [], lastDir := 0, pairs := [] }

def Backstay.reset : Backstay :=
  { armed := false, feedLost := false, livenessLost := false, bench := false, seq := 0, rejected := 0
    accepted := 0, udc := 0, copy := none, copyCert := none, levelA := Vector.replicate 4 false, levelB := Vector.replicate 4 false, feedDown := false, lastAccepted := 0 }

def Discharge.reset : Discharge :=
  { state := 0, method := 0, axis := 0, startedAt := 0, ms := 0, ball := false, ending := false, autoTried := false }

def ThermalAxis.reset : ThermalAxis :=
  { reef := 0, cause := 0, asked := Vector.replicate 3 0, tjOn := 0, twOn := 0, tcOn := 0, udcOn := false
    lowTemp := false, coldOut := false, boost := false, tFrom := 1, iFrom := 1, tTo := 1, iTo := 1, fracAt := 0
    tTime := 0, iTime := 0, eSw := Vector.replicate 6 0, eD := Vector.replicate 6 0, edges := [], turn := 0
    rSw := Vector.replicate 6 (Vector.replicate 4 0), rD := Vector.replicate 6 (Vector.replicate 4 0), windRise := 0
    tMag := none, ignored := 0, ignoredConv := 0, outRun := Vector.replicate 3 0, inSince := Vector.replicate 3 none
    exhausted := false, warmI := 0, warmEnding := false, warmStep := 0, reefChanges := 0, ignores := 0 }

def Engine.reset : Engine :=
  { failed := false, stopped := false, load := 0, localUsed := 0, ctx := [], overruns := 0, late := 0
    dispatches := 0, overran := [], peak := 0, hung := false }

def Plan.reset : Plan := { place := [], shed := 0, trip := 0, load := 0 }

def Rigger.reset : Rigger :=
  { engines := Vector.replicate 4 Engine.reset, plans := Vector.replicate 4 Plan.reset, migrating := [], declaredAt := [], maxWait := Vector.replicate 12 0, shed := 0
    starved := 0, accessFaults := 0, lastReq := 0, preemptions := 0, countsAt := 0, staged := [] }

def LockPair.reset : LockPair :=
  { halted := false, testFail := false, disagree := false, firstClass := 0, firstGroup := 0, firstStage := 0, firstTime := 0
    later := 0, runTests := 0, regsigRuns := 0, regsigGap := 0, regsigAt := 0, splits := 0, rejoins := 0, haltHeld := false }

def Lockstep.reset : Lockstep :=
  { pairBSplit := false, dbgSplitA := false, dbgSplitB := false, pairAFailed := false, pairBFailed := false, inhibit := false
    pairs := Vector.replicate 2 LockPair.reset, nextGroup := 0, takeover := false, splitDue := false, haltAfterSplit := false
    rejoin := 0, noStart := 0 }

def Ecc.reset : Ecc :=
  { corrected := Vector.replicate 8 0, bad := Vector.replicate 8 0, otherCorrected := Vector.replicate 4 0
    otherBad := Vector.replicate 4 0, scrubs := 0, pool := [] }

def SiFn.reset : SiFn :=
  { active := false, lockDisc := false, lockTest := false, sawBoth := false, sawHealthy := false, restart := false
    permit := false, awaitRelease := false, firstAt := none, differAt := Vector.replicate 2 none, endSto := false }

def SafeIn.reset : SafeIn :=
  { raw := 0, filtered := 0, riseAt := Vector.replicate 16 0, sampledAt := 0, lowA := Vector.replicate 16 0, lowB := Vector.replicate 16 0
    differ := Vector.replicate 16 0, tpFrom := 0, tp := 0, tpAt := none, tpClosed := 0, tpLow := 0, tpHigh := 0, tpCross := 0, testFail := 0, passes := Vector.replicate 16 0
    fns := Vector.replicate 8 SiFn.reset, fault := false, crossFails := 0, stoBy := 0, demands := 0, tests := 0 }

def SafeOut.reset : SafeOut :=
  { on := Vector.replicate 4 false, failed := Vector.replicate 4 false, pulsing := Vector.replicate 4 false
    reason := Vector.replicate 4 0, pulses := Vector.replicate 4 0, fb := Vector.replicate 4 false, driven := Vector.replicate 4 false
    drivenAt := Vector.replicate 4 0, shown := Vector.replicate 4 true, strayAt := Vector.replicate 4 none
    testing := Vector.replicate 4 false, offMax := Vector.replicate 4 0, noStart := 0 }

def CanFifo.reset : CanFifo := { head := 0, count := 0, overflows := 0 }

def CanCtl.reset : CanCtl :=
  { link := .offline, tec := 0, rec_ := 0, busOff := false, recovering := false, waitHost := false, busOffAt := 0, test := 0
    pexc := false, stopped := false, failed := false, lastError := 0, busOffs := 0, txExpired := 0
    txCancelled := 0, rxOverwrite := 0, rxLost := 0, pexcs := 0, e2eFails := 0, e2eTimeouts := 0, urgents := 0
    fifos := Vector.replicate 2 CanFifo.reset, descs := [] }

def Can.reset : Can := { ram := [], ctl := Vector.replicate 4 CanCtl.reset }

def HalyardPort.reset : HalyardPort := { st := .down, trainedAt := 0, delay := 0, measured := false, crcErrors := 0, downs := 0, syncHops := none }

def RingMember.reset : RingMember :=
  { heardAt := none, inStep := false, divergent := false, generation := 0, digest := [], trips := 0, tripAt := Vector.replicate 4 none, run := 0
    id := Vector.replicate 4 0, iq := Vector.replicate 4 0, asc := 0 }

def RingGroup.reset : RingGroup :=
  { reference := 0, sharedAt := 0, stale := false, fracFrom := 0, fracTo := 0, fracAt := 0, balD := 0, balQ := 0 }

def Ring.reset : Ring :=
  { divergent := false, ports := Vector.replicate 2 HalyardPort.reset, role := .none, pos := 0, masterPos := 0, epoch := 0
    closed := false, pllPort := none, members := Vector.replicate 8 RingMember.reset, groups := Vector.replicate 4 RingGroup.reset, frames := []
    differs := 0, matched := 0, announced := none, replaced := [], graceUntil := 0, tack := none, best := none, awaited := false, leaving := false, seq := 0, sent := [] }

def Control.reset : Control :=
  { xd := 0, xq := 0, dxd := 0, dxq := 0, ud := 0, uq := 0, dl := 0, preset := none, fwHold := false, tqZero := false
    idRef := 0, iqRef := 0, id := 0, iq := 0, tRef := 0, tEst := 0, tCeil := 0, limiter := 0, voltSat := false
    fwExhausted := false, modIndex := 0, strategy := 0, errSince := none, exhSince := none, satCount := 0, exhCount := 0
    theta := 0, w := 0, src := 0, secBad := false, farLast := none, uPre := 0, udOld := 0, uqOld := 0, rsFilt := 0, priWas := false, disSince := none, agreeSince := none, sourceNone := false
    tIlim := Vector.replicate 32 0, n := 0, sumId := 0, sumIq := 0, sumUd := 0, sumUq := 0, sumW := 0, okRs := true
    okKe := true, rsEst := 0, rsValid := false, rsMs := 0, rsBad := false, psiEst := 0, keValid := false, keMs := 0
    keDev := 0, abnormalKe := false, outMs := 0, inMs := 0, wrongMotor := false, spinDue := false, spinMs := 0
    memberId := 0, memberIq := 0 }

def CompareCh.reset : CompareCh := { armed := false, v := 0, spacing := 0 }

def PosIfc.reset : PosIfc :=
  { st := .valid, reason := 0, referenced := false, mechRef := false, count := 0, turns := 0, reported := 0, lastDir := 0
    held := false, levelA := false, levelB := false, edges := [], speed := 0, time := 0, updated := 0, snapAt := 0, snapped := false, snap := none, fresh := false
    staleRun := 0, oow := 0, viol := 0, frameErrs := 0, quadErr := 0, serErr := 0, serOverrun := 0, indexObs := 0, drift := 0
    indexMissing := false, indexP := 0, awaitIndex := true, awaitSwitch := false, compareDisarmed := false
    compare := Vector.replicate 3 CompareCh.reset, hits := [], lost := 0, diagCh := 0, diagSpacing := 0, diagOffset := 0
    emuRem := 0, emuBacklog := 0, emuOut := 0, emuZ := none, emuAt := 0, emuStep := 5, ampSq := 0, quad := 0, quadAt := 0
    prevS := 0, prevC := 0, prevPos := none, prevTime := 0, trkAngle := 0, trkSpeed := 0, trkTime := 0, trkOn := false
    frameBusy := false, frameAt := 0, good := none, restoreDue := false }

def RefLatch.reset : RefLatch := { value := 0, time := 0, rising := false }

def Profile.reset : Profile :=
  { p := 0, v := 0, a := 0, segs := [], target := none, vMax := 0, moving := false, replan := false, settleSince := none, valleys := 0
    held := none, latched := none, xw := 0, wRef := 0, aRef := 0, tq := 0, tqRate := 0, torque := 0, sumW := 0, nW := 0
    wm := 0, pErr := 0, inPosition := false, moves := 0, followErrors := 0 }

def AuxBridge.reset : AuxBridge := 
  { phase := 0, blank := false, above := false, overRun := 0, forward := true, since := 0, offAt := Vector.replicate 4 none }

def Aux.reset : Aux :=
  { energised := false, moving := false, referenced := false, fault := 0, holdCurrent := false, m := 0, target := 0
    held := none, rate := 0, rateCap := 0, stopping := false, latch := 0, overcurrents := 0, openLoads := 0
    standSince := 0, runEnd := 0, nextStep := 0, pullOn := Vector.replicate 2 false, pullAt := Vector.replicate 2 0, parkAt := 0, solOn := Vector.replicate 2 false, parking := false
    kept := none, keptRef := false, keptStale := false, bridges := Vector.replicate 2 AuxBridge.reset }

def Axis.reset : Axis :=
  { core := AxisCore.reset, pwm := Pwm.reset, trip := Trip.reset, cap := Capture.reset, sense := SenseAxis.reset, ctl := Control.reset, prof := Profile.reset
    mon := Monitor.reset, obs := Observer.reset, catch_ := Catch.reset, saf := SafetyAxis.reset
    bs := BackstayAxis.reset, th := ThermalAxis.reset }

/-- The machine right after reset. -/
def State.reset : State :=
  { mode := .boot, power := Power.reset, clk := Clocks.reset, boot := Boot.reset, fw := Firmware.reset
    host := HostPart.reset, cfg := CfgPart.reset, sec := Security.reset, log := Log.reset, sto := Sto.reset
    sensing := Sensing.reset, pos := Vector.replicate 4 PosIfc.reset, refsw := Vector.replicate 4 RefLatch.reset, exc := Vector.replicate 2 0, aux := Aux.reset, rig := Rigger.reset, back := Backstay.reset, disch := Discharge.reset, lock := Lockstep.reset
    ecc := Ecc.reset, si := SafeIn.reset, so := SafeOut.reset, can := Can.reset, ring := Ring.reset, axes := Vector.replicate 4 Axis.reset, free := 0, pending := [] }


end Sys2Proof.Machine
end

