-- ==== Sys2Proof/Machine/Ops.lean ====
section
/-! DEFINITION. The named operations over the state: units and configuration, computed registers, the drive log, the event
queue, latched trips, the safe state, stops, and the settling that follows every command. -/
namespace Sys2Proof.Machine
open Sys2Proof

/-- What a meaning answers. -/
abbrev Result := Host.Outcome State Fault Refusal

/-! ## Axes, units and the active set -/

def allAxes : List (Fin 4) := [0, 1, 2, 3]

def State.axis (s : State) (n : Fin 4) : Axis := s.axes[n.val]

def State.setAxis (s : State) (n : Fin 4) (f : Axis → Axis) : State := { s with axes := vupd s.axes n f }

/-- An operation applied to axes 0 to 3 in order, where the condition holds. -/
def State.forAxes (s : State) (p : State → Fin 4 → Bool) (f : State → Fin 4 → State) : State :=
  allAxes.foldl (fun t n => if p t n then f t n else t) s

/-- A unit is present: its bit of the fused presence map is set (R2, R3, R63). -/
def unitPresent (s : State) (unit : Nat) : Bool := bitAt s.sec.fuses.units unit

def axPresent (s : State) (n : Fin 4) : Bool := unitPresent s n.val

/-- The image that a section is read from: the active set, but the set before the swap for the PWM and trip parameters of an axis
that has not reached its boundary (R103). -/
def cfgImage (s : State) (id inst : Nat) : Option (List Byte) :=
  if (id = secPwm ∨ id = secTrip) ∧ bitAt s.cfg.lag inst then s.cfg.prev else s.cfg.active

/-- The body of a section of the set in force; empty where the set or the section is absent. -/
def cfgBody (s : State) (id inst : Nat) : List Byte := ((cfgImage s id inst).bind fun img => imgBody img id inst).getD []

def cfgHas (s : State) (id inst : Nat) : Bool := ((cfgImage s id inst).bind fun img => imgBody img id inst).isSome

/-- An integer field and a binary32 field of the active set (R8). -/
def cfgU (s : State) (id inst off n : Nat) : Nat := fieldU (cfgBody s id inst) off n
def cfgF (s : State) (id inst off : Nat) : Q := fieldF (cfgBody s id inst) off

/-- SYSTEM.FLAGS.BENCH and RING (Table 4.6). -/
def cfgBench (s : State) : Bool := bitAt (cfgU s secSystem 0 0 4) 0
def cfgRing (s : State) : Bool := bitAt (cfgU s secSystem 0 0 4) 1

/-- A supply of Table 14.7 is there: 0 VCORE, 1 VDDA, 2 VDD18, 3 to 8 VDDIO0 to VDDIO5. In SLEEP the card's supplies are off. -/
def supplied (s : State) (supply : Nat) : Bool := !bitAt s.power.absent supply && (s.mode != .sleep || s.power.pmicEn)

/-- The operating range of a supply and its reset threshold, in volts (Table 14.7): VCORE 0, VDDA 1, VDD18 2, VDDIO 3 to 8. -/
def supplyLimits (supply : Nat) : Q × Q × Q :=
  match supply with
  | 0 => (776 / 1000, 824 / 1000, 740 / 1000)
  | 1 => (3135 / 1000, 3465 / 1000, 29 / 10)
  | 2 => (171 / 100, 189 / 100, 16 / 10)
  | _ => (17 / 10, 36 / 10, 155 / 100)
/-- A voltage lies outside the operating range of a supply. -/
def supplyOut (supply : Nat) (volts : Q) : Bool := decide (volts < (supplyLimits supply).1) || decide ((supplyLimits supply).2.1 < volts)

/-- The output drivers are released (R54), the device is not held in reset (R53, R396). -/
def driversOn (s : State) : Bool := !s.power.earlyHigh && s.power.seated && !s.power.inReset

/-- The cores of both pairs are stopped: by the loss of CORE, or of FABRIC, which brings them no responses (R19, Table 1.4). -/
def pairsStopped (s : State) : Bool := bitAt s.clk.lost 0 || bitAt s.clk.lost 1

/-- Pair A works at its tasks: neither stopped, nor failed (R377), nor halted by a debugger (R389). -/
def pairAWorks (s : State) : Bool := !pairsStopped s && !s.lock.pairAFailed && !s.lock.pairs[0].halted

/-- The pair that has the tasks of Table 14.4 works: Pair B, or Pair A once it has taken them over (R383). -/
def pairBTasksWork (s : State) : Bool := if s.lock.takeover then pairAWorks s else !pairsStopped s && !s.lock.pairs[1].halted

/-- The pair that serves the mailboxes works: Pair A, or Pair B after a failure of Pair A (R377). -/
def hostServed (s : State) : Bool := !pairsStopped s && (if s.lock.pairAFailed then !s.lock.pairBFailed && !s.lock.pairs[1].halted else !s.lock.pairs[0].halted)

/-- Frames leave through the Halyard ports: each is its port, its TYPE and its contents. Nothing leaves while the output drivers are held
(R54), in which the ports' balls are high-impedance. -/
def linkSend (s : State) (frames : List (Nat × Nat × List Byte)) : State :=
  if driversOn s then { s with ring := { s.ring with sent := s.ring.sent ++ frames } } else s

/-- SRC, HOPS and SEQ of a frame, and its payload (R487). -/
def frameBytes (src hops seq : Nat) (payload : List Byte) : List Byte := [BitVec.ofNat 8 src, BitVec.ofNat 8 hops] ++ leBytes 2 seq ++ payload

/-- An own frame to some ports, with the next SEQ (R487). -/
def portsSend (s : State) (ports : List Nat) (type : Nat) (payload : List Byte) : State :=
  let t := linkSend s (ports.map fun p => (p, type, frameBytes s.ring.pos 0 s.ring.seq payload))
  { t with ring := { t.ring with seq := (t.ring.seq + 1) % 65536 } }

/-- The ports that are UP. -/
def upPorts (s : State) : List Nat := (List.range 2).filter fun p => (s.ring.ports[p]?.map fun x => x.st == .up).getD false

/-- An own frame handed to both ports. -/
def ringSend (s : State) (type : Nat) (payload : List Byte) : State := portsSend s (upPorts s) type payload

/-- The active set enables a present axis (SYSTEM.AXES). -/
def axEnabled (s : State) (n : Fin 4) : Bool := axPresent s n && bitAt (cfgU s secSystem 0 4 1) n.val

/-- The group of an axis, 0 for none (SYSTEM.GROUP, R93). -/
def axGroup (s : State) (n : Fin 4) : Nat := bitsOf (cfgU s secSystem 0 8 4) (4 * n.val) 4

/-- The axis itself, or every member of its group (R118, R161). -/
def axMembers (s : State) (n : Fin 4) : List (Fin 4) :=
  if axGroup s n = 0 then [n] else allAxes.filter fun m => axEnabled s m && axGroup s m == axGroup s n

/-- The lowest-numbered member (R118). -/
def axLeader (s : State) (n : Fin 4) : Fin 4 := (axMembers s n).headD n

/-- Some axis present satisfies the condition. -/
def anyAxis (s : State) (p : Fin 4 → Bool) : Bool := allAxes.any fun n => axPresent s n && p n

/-- The axis is in a run state (R36). -/
def isRun (st : AxState) : Bool := st == .runTorque || st == .runSpeed || st == .runPosition

/-- The axis switches under normal control: CATCH from step 6 or in its standstill identification, a run state, STOPPING. -/
def axSwitching (s : State) (n : Fin 4) : Bool :=
  let a := s.axis n
  isRun a.core.st || a.core.st == .stopping || (a.core.st == .catching && (6 ≤ a.catch_.step || a.catch_.identify))

/-- A winding discharge drives the axis (R428); it no longer does once it has completed. -/
def Axis.discharging (a : Axis) : Bool := a.core.st == .axisSafe && a.core.sub == .discharge && !a.core.discharged

/-- Every axis is OFF. -/
def allOff (s : State) : Bool := allAxes.all fun n => (s.axis n).core.st == .off

/-! ## Free values -/

/-- Draws a free quantity: a value that the spec leaves open (log entry 5). -/
def drawQ (s : State) : Q × State := (Config.freeQ s.free, { s with free := s.free + 1 })
def drawNat (s : State) : Nat × State := (Config.freeNat s.free, { s with free := s.free + 1 })
/-- Draws `n` bytes of the true random generator. -/
def drawBytes (s : State) (n : Nat) : List Byte × State :=
  ((List.range n).map fun i => Config.freeByte s.free i, { s with free := s.free + 1 })

/-! ## Registers of the hardware window (Tables 3.5 to 3.13) -/

def modeCode : Mode → Nat
  | .boot => 0 | .idle => 1 | .run => 2 | .safe => 3 | .service => 4 | .sleep => 5
def axCode : AxState → Nat
  | .off => 0 | .catching => 1 | .runTorque => 2 | .runSpeed => 3 | .runPosition => 4 | .stopping => 5 | .axisSafe => 6
def subCode : SafeSub → Nat
  | .freewheel => 0 | .ascLow => 1 | .ascHigh => 2 | .discharge => 3
def lifeCode : Life → Nat
  | .blank => 0 | .development => 1 | .production => 3 | .fieldReturn => 7 | .scrapped => 15

/-- Firmware runs: BOOTSTAT.PHASE has reached 0x09 (R62). -/
def firmwareUp (s : State) : Bool := 9 ≤ s.boot.phase && s.mode != .sleep && !s.power.inReset

def regId : Nat := 0x4BB10810
def regUnits (s : State) : Nat := if s.boot.windowOpen then s.sec.fuses.units else 0

def regBootstat (s : State) : Nat :=
  place (ofFlag s.boot.halt) 31 1 + place (ofFlag s.boot.fwSlot) 30 1 + place (ofFlag s.boot.fwFallback) 29 1 +
  place (ofFlag s.boot.cfgSlot) 28 1 + place s.boot.wakeCause 24 4 + place s.boot.haltCode 8 16 + place s.boot.phase 0 8

def dbgSplit (s : State) : Bool := s.lock.dbgSplitA || s.lock.dbgSplitB

/-- MODE (Table 3.8). An absent axis reads OFF. -/
def regMode (s : State) : Nat :=
  (if firmwareUp s then
    place (ofFlag (dbgSplit s)) 31 1 + place (ofFlag s.lock.pairBSplit) 30 1 + place (ofFlag (cfgBench s)) 29 1 +
    place (ofFlag s.power.bindOff) 28 1 + place (ofFlag s.cfg.tack.isSome) 27 1 +
    (allAxes.map fun n => if axPresent s n then place (axCode (s.axis n).core.st) (12 + 3 * n.val) 3 else 0).sum +
    (allAxes.map fun n => if axPresent s n then place (subCode (s.axis n).core.sub) (4 + 2 * n.val) 2 else 0).sum
  else 0) + place (modeCode s.mode) 0 4

def regLifecycle (s : State) : Nat :=
  if s.boot.windowOpen then
    place s.sec.fuses.fwFloor 16 8 + place (ofFlag s.sec.erased) 10 1 + place (ofFlag s.sec.locked) 9 1 +
    place (ofFlag s.sec.debugOpen) 8 1 + place (lifeCode s.sec.life) 0 4
  else 0

/-- FLT_PRESENT of a leg: bits 5:3 of FLAGS are W, V, U (Table 6.8). Before a set is active, from cast-on step 1, every input
of a present axis is evaluated (R155). -/
def fltPresent (s : State) (n : Fin 4) (leg : Fin 3) : Bool :=
  match s.cfg.active with
  | none => true
  | some _ => !cfgHas s secTrip n.val || bitAt (cfgU s secTrip n.val 0 1) (3 + leg.val)

/-- The driver fault inputs of an axis that are evaluated and low (R155). -/
def fltLowNow (s : State) (n : Fin 4) : Nat :=
  let m := (s.axis n).trip.fltLow
  if m = 0 then 0 else (([0, 1, 2] : List (Fin 3)).map fun l => if bitAt m l.val && fltPresent s n l then place 1 l.val 1 else 0).sum

/-- A run inhibit is set (Table 2.2 order 5): comparator test, lockstep class, missing certificate outside DEVELOPMENT. -/
def runInhibit (s : State) : Bool :=
  s.boot.testFailed || s.lock.inhibit || (s.sec.certMissing && s.sec.life != .development)

/-- A latched trip is set on the axis. -/
def tripped (s : State) (n : Fin 4) : Bool := (s.axis n).trip.src != 0

/-- The highest reef level in force on the device. -/
def reefHighest (s : State) : Nat := (allAxes.map fun n => (s.axis n).th.reef).foldl max 0

/-- The hardware drives its bits of FAULTSUM: from cast-on step 1 on (R42, R62). -/
def hardwareUp (s : State) : Bool := decide (1 ≤ s.boot.phase) && !s.power.inReset

/-- FAULTSUM (Table 3.10). The hardware bits are live from cast-on step 1, so that a STO ball or a fault input that is low then rises
there (R42, R62); the rest is filled by firmware. -/
def regFaultsum (s : State) : Nat :=
  place (ofFlag s.host.clockLoss) 23 1 + place (ofFlag s.host.hspiErr) 22 1 + place (ofFlag (hardwareUp s && s.sto.bLow)) 21 1 +
  place (ofFlag (hardwareUp s && s.sto.aLow)) 20 1 +
  (allAxes.map fun n => if axPresent s n && tripped s n then place 1 (16 + n.val) 1 else 0).sum +
  (allAxes.map fun n => if hardwareUp s && axPresent s n && fltLowNow s n != 0 then place 1 (12 + n.val) 1 else 0).sum +
  (if firmwareUp s then
    place (ofFlag (s.mode == .safe)) 31 1 + place (ofFlag (runInhibit s)) 30 1 + place (ofFlag (dbgSplit s)) 29 1 +
    place (ofFlag s.lock.pairBSplit) 28 1 + place (ofFlag s.ring.divergent) 27 1 +
    place (ofFlag (s.cfg.diff != .same)) 26 1 + place (ofFlag (s.sec.locked || s.sec.erased)) 25 1 +
    place (ofFlag s.host.logGap) 24 1 + place (reefHighest s) 8 2 + place (min s.host.events.length 255) 0 8
  else 0)

def regDoorbellIn (s : State) : Nat := ((List.range 16).map fun n => if s.host.posted.contains n then place 1 n 1 else 0).sum

def regDoorbellOut (s : State) : Nat :=
  place (ofFlag s.host.outSystem) 31 1 + place (ofFlag s.host.outEvent) 30 1 + place (ofFlag s.host.outFault) 29 1 +
  place s.host.done 0 16

def regAttnMask (s : State) : Nat := place s.host.maskSrc 29 3 + place s.host.maskDone 0 16

/-- HOST_ATTN_N is low (R64). -/
def attnLow (s : State) : Bool := s.boot.halt || (regDoorbellOut s &&& regAttnMask s) != 0

/-- A word of the hardware window (Table 3.4); it reads 0 before it is readable (R59). -/
def windowWord (s : State) (word : Nat) : Nat :=
  if !s.boot.windowOpen then 0 else
  match word with
  | 0 => regId
  | 1 => regUnits s
  | 2 => regBootstat s
  | 3 => regMode s
  | 4 => regLifecycle s
  | 5 => regFaultsum s
  | 6 => regDoorbellIn s
  | 7 => regDoorbellOut s
  | 8 => regAttnMask s
  | _ => 0

/-- HSTAT (Table 3.3). -/
def hstat (s : State) : Nat :=
  place (ofFlag (attnLow s)) 7 1 + place (ofFlag s.boot.halt) 6 1 + place (ofFlag s.host.hspiErr) 5 1 +
  place (ofFlag (decide (9 ≤ s.boot.phase))) 4 1 + place (modeCode s.mode) 0 4

/-! ## The drive log (R527 to R532) -/

def recordBytes (r : LogRecord) : List Byte :=
  leBytes 8 r.index ++ leBytes 8 r.time.toNat ++ leBytes 4 r.rtc ++ leBytes 2 r.type ++
  [BitVec.ofNat 8 r.severity, BitVec.ofNat 8 r.unit] ++ sliceZ r.link 0 8 ++ sliceZ r.body 0 32

/-- Commits a record to the staging RAM: it takes the next INDEX and extends the chain (R527, R530). -/
def logAppend (s : State) (d : LogDraft) : State :=
  let r : LogRecord := { index := s.log.next, time := d.time, rtc := d.rtc, type := d.type, severity := d.severity, unit := d.unit, link := s.log.chain.take 8, body := sliceZ d.body 0 32 }
  { s with log := { s.log with
      next := s.log.next + 1, chain := sha256 (s.log.chain ++ recordBytes r), staged := s.log.staged ++ [r]
      writeAt := if s.log.staged.isEmpty then s.clk.now else s.log.writeAt } }

/-- Free record slots of the staging RAM (R530). -/
def logFree (s : State) : Nat := 60 - s.log.staged.length

/-- A draft with the present times. -/
def draftNow (s : State) (type severity unit : Nat) (body : List Byte) : LogDraft :=
  { time := s.clk.drive, rtc := s.clk.rtc / 32768, type := type, severity := severity, unit := unit, body := body }

/-- A record is refused, and counted for the DROPPED record (R531, R532). -/
def logRefuse (s : State) : State := { s with log := { s.log with dropped := s.log.dropped + 1, droppedTotal := satInc 16 s.log.droppedTotal } }

/-- Fewer than `n` slots are free, or a record of severity INFO meets fewer than 8 (R531, R532). -/
def logNoRoom (s : State) (n : Nat) (d : LogDraft) : Bool := decide (logFree s < n) || (d.severity == sevInfo && decide (logFree s < 8))

/-- A record where a slot is free for its severity; it is counted as refused otherwise. -/
def logCommit (s : State) (d : LogDraft) : State := if logNoRoom s 1 d then logRefuse s else logAppend s d

/-- Slots that a record takes with the GENESIS and the BLOCK_START that it brings with it (R529). -/
def logNeeds (s : State) : Nat := 1 + ofFlag s.log.blockFirst.isNone + ofFlag (s.log.next == 0)

/-- Record 0 is GENESIS (Table 19.10). -/
def logGenesis (s : State) : State :=
  if s.log.next = 0 then logAppend s (draftNow s 0x0001 sevInfo 0xFF (leBytes 8 s.sec.fuses.uid ++ leBytes 4 (regLifecycle s))) else s

/-- A block is open, its first record BLOCK_START (R529). -/
def logOpen (s : State) : State :=
  match s.log.blockFirst with
  | some _ => s
  | none =>
    let f := s.log.next
    let t := logAppend s (draftNow s 0x0002 sevInfo 0xFF s.log.chain)
    { t with log := { t.log with blockFirst := some f } }

/-- A block of 254 records is full, and its checkpoint signature begins (R529). -/
def logFull (t : State) : State :=
  if (t.log.blockFirst.getD t.log.next) + 254 ≤ t.log.next then { t with log := { t.log with signing := true } } else t

/-- Writes a record into the open block. An IDSIG_R without a body stands for the pair: the identity-key signature over H of the
record before it, as two records (R534). A record without room for all that it brings opens no block: DEDUCED (log entry 276). -/
def logWriteNow (s : State) (d : LogDraft) : State :=
  if logNoRoom s (logNeeds s) d then logRefuse s else
  let t := logOpen (logGenesis s)
  if d.type = 0x0005 ∧ d.body.isEmpty then
    let sig := ecdsaSign t.sec.fuses.identityKey t.log.chain
    let u := logFull (logCommit t { d with body := slice sig 0 32 })
    let d2 := { d with type := 0x0006, body := slice sig 32 32 }
    if u.log.signing then { u with log := { u.log with waiting := u.log.waiting ++ [d2] } } else logFull (logCommit u d2)
  else logFull (logCommit t d)

/-- Writes a record, or holds it until the log has resumed and no checkpoint is being signed (Table 2.4, R529). -/
def logWrite (s : State) (d : LogDraft) : State :=
  if !s.log.resumed || s.log.signing then { s with log := { s.log with waiting := s.log.waiting ++ [d] } }
  else logWriteNow s d

/-- A record with the present times. -/
def logRec (s : State) (type severity unit : Nat) (body : List Byte) : State := logWrite s (draftNow s type severity unit body)

/-- The records that waited, written in order; a checkpoint that begins holds the rest again. -/
def logDrain (s : State) : State :=
  let w := s.log.waiting
  w.foldl logWrite { s with log := { s.log with waiting := [] } }

/-- SHA-256 of the 40-byte message of a checkpoint (R529). -/
def ckptDigest (first : Nat) (hash : List Byte) : List Byte := sha256 (leBytes 8 first ++ hash)

/-- Closes the open block with CKPT_R and CKPT_S. The signature is zero where it is made unsigned: after ERASE, without a log
key, or while the key register is suspended (Table 19.7, R521). It waits for two free slots: DEDUCED (log entry 276). -/
def logCheckpoint (s : State) : State :=
  match s.log.blockFirst with
  | none => { s with log := { s.log with signing := false } }
  | some f =>
    if logFree s < 2 then { s with log := { s.log with signing := true } } else
    let hash := s.log.chain
    let sig := match s.sec.logKey with
      | some k => if s.sec.erased || s.sec.suspended then List.replicate 64 0 else ecdsaSign k (ckptDigest f hash)
      | none => List.replicate 64 0
    let t := logAppend s (draftNow s 0x0003 sevInfo 0xFF (slice sig 0 32))
    let u := logAppend t (draftNow t 0x0004 sevInfo 0xFF (slice sig 32 32))
    logDrain { u with log := { u.log with
      blockFirst := none, signing := false, ckpts := u.log.ckpts ++ [⟨f, u.log.next - 1, hash, sig⟩] } }

/-- An identity-key signature over H of the last record, as two records (R534). -/
def logIdSig (s : State) : State := logRec s 0x0005 sevInfo 0xFF []

/-! ## Events (R81, R528, R580 to R586) -/

/-- The order of entries of equal drive time (R585). -/
def eventKey (e : EventEntry) : Nat := (e.code * 256 + e.unit) * 2 ^ 32 + e.data

/-- An entry put at the end of the queue, before trailing entries of the same drive time that rank after it (R585).
The list is newest first. -/
def insertEvent (e : EventEntry) : List EventEntry → List EventEntry
  | [] => [e]
  | x :: xs => if x.time == e.time && decide (eventKey e < eventKey x) then x :: insertEvent e xs else e :: x :: xs

/-- The marker of R81. -/
def overflowMark (time : DWord) (count : Nat) : EventEntry :=
  { code := evEventQueueOverflow, severity := sevWarn, unit := 0xFF, time := time, data := min count 0xFFFFFFFF, stale := false }

/-- The body of an EVENT record (Table 19.10). -/
def eventBody (code data : Nat) (extra : List Byte) : List Byte := leBytes 2 code ++ [0, 0] ++ leBytes 4 data ++ sliceZ extra 0 24

/-- An entry enters the host event queue (R81): 256 entries behind the marker (log entry 8). -/
def queueEvent (s : State) (e : EventEntry) : State :=
  let put (q : List EventEntry) : List EventEntry := (insertEvent e q.reverse).reverse
  let t := { s with host := { s.host with outEvent := true } }
  match s.host.events with
  | [] => { t with host := { t.host with events := [e] } }
  | m :: rest =>
    if m.code = evEventQueueOverflow then
      if rest.length < 256 then { t with host := { t.host with events := m :: put rest } }
      else match rest with
        | [] => t
        | o :: rest' => { t with host := { t.host with events := overflowMark o.time (m.data + 1) :: put rest' } }
    else if (m :: rest).length < 256 then { t with host := { t.host with events := put (m :: rest) } }
    else
      let u := { t with host := { t.host with events := overflowMark m.time 1 :: put rest } }
      logRec u 0x0010 sevWarn 0xFF (eventBody evEventQueueOverflow 1 [])

/-- Events that write a record type of their own in place of an EVENT record (R528). -/
def ownRecord (code : Nat) : Bool :=
  [evTackDone, evCertInstalled, evLogGap, evTamperMesh, evTamperLight, evTamperEnclosure, evTamperGlitch,
   evTamperTemperature, evAonClockLoss, evLogStall, evTamperAuth].contains code

/-- Raises an event of a given severity. `logged` says that the owning chapter has an INFO event logged (R528). Firmware
raises events: before it runs nothing is raised (R61). -/
def raiseSev (s : State) (code severity unit data : Nat) (extra : List Byte) (logged : Bool) : State :=
  if !firmwareUp s then s else
  let t := if sevWarn ≤ severity then
      queueEvent s { code := code, severity := severity, unit := unit, time := s.clk.drive, data := data % 2 ^ 32, stale := !s.clk.driveRuns }
    else s
  if (sevWarn ≤ severity ∨ logged) ∧ !ownRecord code then logRec t 0x0010 severity unit (eventBody code data extra) else t

/-- Raises an event with the severity of Table 22.1. -/
def raise (s : State) (code unit data : Nat) : State :=
  match severityOf code with
  | some v => raiseSev s code v unit data [] false
  | none => s

/-- Raises an event that its chapter has logged, with EXTRA bytes. -/
def raiseLogged (s : State) (code unit data : Nat) (extra : List Byte) : State :=
  match severityOf code with
  | some v => raiseSev s code v unit data extra true
  | none => s

/-- Raises an event of an axis: unit n, the axis in bits 31:24 of the data word. -/
def raiseAxis (s : State) (code : Nat) (n : Fin 4) (low : Nat) : State := raise s code n.val (place n.val 24 8 + low)

/-- The data word of a rate-limited event with its count in the field of Table 22.2. -/
def limitedData (code rest count : Nat) : Nat :=
  if code = evFifoOverflow then rest + min count (2 ^ 23 - 1)
  else if code = evTxExpired ∨ code = evSiTestFail then rest + place (min count 0xFFFF) 8 16
  else if code = evIndexOutOfWindow then rest
  else rest + min count (2 ^ 24 - 1)

/-- EXTRA of a rate-limited event: the count of INDEX_OUT_OF_WINDOW (Table 22.2). -/
def limitedExtra (code count : Nat) : List Byte := if code = evIndexOutOfWindow then leBytes 4 count else []

/-- Raises or counts an occurrence of a rate-limited event (R586): `inst` names the instance of Table 22.2, `rest` holds
the other fields of the data word. -/
def raiseLimited (s : State) (code inst unit rest : Nat) : State :=
  match s.host.windows.find? fun w => w.code == code && w.instance_ == inst with
  | some _ => { s with host := { s.host with windows := s.host.windows.map fun w =>
      if w.code = code ∧ w.instance_ = inst then { w with count := w.count + 1, unit := unit, rest := rest } else w } }
  | none =>
    let t := raiseLogged s code unit (limitedData code rest 1) (limitedExtra code 1)
    let t' := if severityOf code = some sevInfo then raise s code unit (limitedData code rest 1) else t
    { t' with host := { t'.host with windows := t'.host.windows ++ [⟨code, inst, 0, unit, rest, t'.clk.now⟩] } }

/-- An error of Host Spi: FAULTSUM.HSPI_ERR, and HSPI_FRAME_ERROR while firmware serves events (R61). -/
def hspiError (s : State) (cause : Nat) : State :=
  raise { s with host := { s.host with hspiErr := true } } evHspiFrameError 0xFF cause

/-! ## Fabric access faults (R4, R317) -/

/-- A write to an absent unit or a read-only region, or any access to an unmapped address: discarded, counted and logged. -/
def fabricFault (s : State) (requester address : Nat) : State :=
  let t := { s with rig := { s.rig with accessFaults := satInc 16 s.rig.accessFaults, lastReq := requester % 16 } }
  raiseLogged t evFabricAccessFault 0xFF (place requester 24 8 + place address 0 24) (leBytes 4 address)

/-- A register of an absent unit is written by a requester of Table 11.6 (R4). The addresses of the units' registers are not given: a free
value (log entry 201). Without the FABRIC clock no access takes place. -/
def absentWrite (s : State) (requester : Nat) : State :=
  if bitAt s.clk.lost 1 then s else
  let (a, t) := drawNat s
  fabricFault t requester (a % 2 ^ 32)

/-- The loop engine that writes to an absent axis: the Rigger places no context of it (R5), so that none is named (log entry 201). -/
def absentEngineWrite (s : State) : State :=
  if bitAt s.clk.lost 1 then s else
  let (k, t) := drawNat s
  absentWrite t (2 + k % 4)

/-! ## Latched trips (R149, R161) -/

/-- Bit positions of TRIPSRC (Table 6.10). -/
def bitStoA : Nat := 31
def bitStoB : Nat := 30
def bitStoInt : Nat := 29
def bitBackstay : Nat := 28
def bitHalyard : Nat := 27
def bitWatchdog : Nat := 26
def bitEdgeMissing : Nat := 25
def bitEscalated : Nat := 24
def bitClock : Nat := 23
def bitStopDeadline : Nat := 22
def bitFirmware : Nat := 21
def bitCmp : Nat := 20
def bitDsf : Nat := 19
def bitFlt (leg : Fin 3) : Nat := 16 + leg.val
def bitGroup : Nat := 15

/-- The safe pattern that SAFEPAT names; 0b11 is treated as FREEWHEEL (R141). -/
def patternSub (pattern : Nat) : SafeSub := if pattern = 1 then .ascLow else if pattern = 2 then .ascHigh else .freewheel

/-- A switch is marked as unable to conduct (R404): its leg's FLT_SIDE names it, or EDGE_MISSING does. -/
def markedHigh (a : Axis) (leg : Fin 3) : Bool := a.trip.side[leg.val] == 1 || a.trip.side[leg.val] == 3 || a.pwm.legs[leg.val].markH
def markedLow (a : Axis) (leg : Fin 3) : Bool := a.trip.side[leg.val] == 2 || a.trip.side[leg.val] == 3 || a.pwm.legs[leg.val].markL

def marksLow (a : Axis) : Nat := ([0, 1, 2] : List (Fin 3)).countP (markedLow a)
def marksHigh (a : Axis) : Nat := ([0, 1, 2] : List (Fin 3)).countP (markedHigh a)

/-- The side of an ASC (R404): HIGH when more low-side switches are marked than high-side ones. -/
def ascSide (a : Axis) : SafeSub := if marksHigh a < marksLow a then .ascHigh else .ascLow

/-- The pattern applied when a latched trip acts: the stored SAFEPAT, with the side rule applied by the PWM domain
(R141, R405). -/
def appliedPattern (a : Axis) : SafeSub :=
  match patternSub a.pwm.safepat with
  | .freewheel => .freewheel
  | _ => ascSide a

/-- The records still taken after a trip: (100 − CAP_PRE) % of 8,190. The rule does not say how a share that is no whole number of
records is rounded: it is rounded down. DESIGN CHOICE (log entry 179), unsafe. -/
def postTrigger (s : State) (n : Fin 4) : Nat := 8190 * (100 - cfgU s secTrip n.val 13 1) / 100

/-- The capture header takes the trip that starts the post-trigger share; a trip while the ring is frozen is counted (R171, Table
6.6). -/
def captureTrip (s : State) (n : Fin 4) : State :=
  if cfgU s secTrip n.val 12 1 = 0xFF then s else
  s.setAxis n fun a =>
    if a.cap.state = 2 ∨ a.cap.state = 3 then { a with cap := { a.cap with later := satInc 16 a.cap.later } }
    else if a.cap.remaining.isSome then a
    else
      let left := postTrigger s n
      { a with cap := { a.cap with
      state := if left = 0 then 2 else 1, remaining := some left
      tripTime := s.clk.drive, tripSrc := a.trip.src, tripCarrier := a.pwm.carrier, tripAt := a.cap.ring.length - 1, later := 0
      tripCmp := a.trip.cmpLatch ||| a.trip.cmpCbc, tripDsf := a.trip.dsfLatch ||| a.trip.dsfCbc } }

/-- The brake output switches off at once (R414). -/
def brakeOff (s : State) (n : Fin 4) : State :=
  let t := s.setAxis n fun a => { a with saf := { a.saf with brakeOut := false, brakeHolding := false, brakeEngaging := false } }
  let so := cfgU s secSafety 0 (32 + 64 * n.val + 2) 1
  if h : so < 4 then (if 2 ≤ so then { t with so := { t.so with on := t.so.on.set so false h } } else t) else t

/-- The axis enters AXIS_SAFE under a pattern, leaving whatever it did (R36, R161). -/
def enterAxisSafe (s : State) (n : Fin 4) (sub : SafeSub) : State :=
  brakeOff (s.setAxis n fun a => { a with
    core := { a.core with st := .axisSafe, sub := sub, discharged := false, nextRun := none, ss1Asked := false, warmup := false }
    catch_ := { a.catch_ with step := 0, waiting := false, identify := false } }) n

/-- A source bit set on one axis (R161): an OFF axis stays OFF with all switches off; every other present axis enters
AXIS_SAFE with its safe pattern. The capture ring notes the trip (R28, R171). -/
def tripOne (s : State) (n : Fin 4) (bit : Nat) : State :=
  if !axPresent s n then s else
  let t := s.setAxis n fun a => { a with trip := { a.trip with src := setBit a.trip.src bit true, commitSince := if bit = bitWatchdog then false else a.trip.commitSince } }
  let u := captureTrip t n
  let a := u.axis n
  if a.core.st == .off then u
  else if a.core.st == .axisSafe then
    (if a.discharging then enterAxisSafe u n (appliedPattern a)
     else if a.core.sub == .ascLow || a.core.sub == .ascHigh then u.setAxis n fun x => { x with core := { x.core with sub := ascSide x } } else u)
  else enterAxisSafe u n (appliedPattern a)

/-- A latched trip on an axis is a latched trip on every member of its group; the others show GROUP (R161). -/
def latchTrip (s : State) (n : Fin 4) (bit : Nat) : State :=
  ((axMembers s n).filter (· != n)).foldl (fun t m => tripOne t m bitGroup) (tripOne s n bit)

/-- A latched trip with source FIRMWARE, its cause kept for the clear test (Table 6.4). -/
def firmwareTrip (s : State) (n : Fin 4) (cause : Nat) : State :=
  latchTrip (s.setAxis n fun a => { a with trip := { a.trip with fwCauses := if a.trip.fwCauses.contains cause then a.trip.fwCauses else a.trip.fwCauses ++ [cause] } }) n bitFirmware

/-- A latched trip on every present axis. -/
def tripAll (s : State) (bit : Nat) : State := s.forAxes axPresent fun t n => tripOne t n bit

/-- A FIRMWARE trip with one cause on every present axis. -/
def firmwareTripAll (s : State) (cause : Nat) : State := s.forAxes axPresent fun t n => firmwareTrip t n cause

/-! ## Tack and the safe state (R37, R104) -/

/-- The tack pending is aborted where its swap instant has not come (R104): the shadow set is kept and TACK_ABORTED logged. The
command that asked for it is answered by the mailbox layer (R35). A ring tack is aborted at the master alone, before its
commit, and TACK_ABORT is sent (R502). -/
def tackAbort (s : State) : State :=
  match s.cfg.tack with
  | none => s
  | some t =>
    if t.ring then
      (if s.ring.role == .master && (match s.ring.tack with | some r => !r.committed | none => false) then
        raise (ringSend { s with
          cfg := { s.cfg with tack := none }
          ring := { s.ring with tack := none } } 0x09 []) evTackAborted 0xFF 0
      else s)
    else if s.clk.drive.toNat < t.ts then raise { s with cfg := { s.cfg with tack := none } } evTackAborted 0xFF 0 else s

/-- An axis taken into SAFE with the device (R37): an axis that was OFF receives the all-off pattern unless its back-EMF
requires ASC. -/
def axisToSafe (s : State) (n : Fin 4) : State :=
  let a := s.axis n
  match a.core.st with
  | .axisSafe => s
  | .off => enterAxisSafe s n (if a.saf.selection == .freewheel then .freewheel else ascSide a)
  | _ => enterAxisSafe s n (appliedPattern a)

/-- The device latches SAFE from IDLE, RUN or SERVICE (R30, R37): every present axis enters AXIS_SAFE, and a tack before
its instant is aborted. From another mode nothing happens. -/
def latchSafe (s : State) : State :=
  match s.mode with
  | .idle | .run | .service => tackAbort { (s.forAxes axPresent axisToSafe) with mode := .safe }
  | _ => s

/-- Every axis freewheels, whatever SAFEPAT holds (R55, R170). -/
def freewheelAll (s : State) : State :=
  s.forAxes axPresent fun t n => t.setAxis n fun a => { a with core := { a.core with sub := .freewheel } }

/-! ## Stops (R407) -/

/-- The control speed of an axis, mechanical rad/s, is filled by the position and control chapters; the monitor gives
it while the axis does not switch. -/
def polePairs (s : State) (n : Fin 4) : Q := (max 1 (cfgU s secControl n.val 4 1) : Nat)

/-- The axis returns to OFF: switches off, brake engaged, no reference held. -/
def axisOff (s : State) (n : Fin 4) : State :=
  brakeOff (s.setAxis n fun a => { a with
    core := { a.core with st := .off, sub := .freewheel, nextRun := none, ss1Asked := false, warmup := false }
    catch_ := { a.catch_ with step := 0, waiting := false, identify := false }
    obs := { a.obs with inUse := false, heldStop := 0 } }) n

/-- The reef request sources, limits and stop deadline use the SAFETY entry of an axis (Table 15.8). -/
def safetyOff (n : Fin 4) (off : Nat) : Nat := 32 + 64 * n.val + off
def safetyF (s : State) (n : Fin 4) (off : Nat) : Q := cfgF s secSafety 0 (safetyOff n off)
def safetyU (s : State) (n : Fin 4) (off size : Nat) : Nat := cfgU s secSafety 0 (safetyOff n off) size

/-- A duration in seconds as ticks of 10 ns. -/
def ticksOf (seconds : Q) : Nat := (roundHalfUp (seconds * 100000000)).toNat

/-- STO holds: a channel is low, STO_INT is set, or a discrepancy is outstanding. -/
def stoActive (s : State) : Bool := s.sto.aLow || s.sto.bLow || s.sto.intSet || s.sto.discrepancy

end Sys2Proof.Machine
end

