-- ==== Sys2Proof/Machine/Ownership.lean ====
section
/-! DEFINITION. The ownership map of the active set (R106, R107): which function claims a resource, and its SELECT. -/
namespace Sys2Proof.Machine
open Sys2Proof

/-- An entry of the OWNERSHIP body (R106). -/
structure Owned where
  resource : Nat
  function : Nat
  inst : Nat
  select : Nat
  deriving DecidableEq, Repr

/-- The entries of an OWNERSHIP body. -/
def ownedEntries (body : List Byte) : List Owned :=
  (List.range (fieldU body 0 2)).map fun k =>
    ⟨fieldU body (8 + 8 * k) 4, fieldU body (12 + 8 * k) 1, fieldU body (13 + 8 * k) 1, fieldU body (14 + 8 * k) 2⟩

/-- The entry of the active map that claims a resource. -/
def ownerOf (s : State) (resource : Nat) : Option Owned :=
  (ownedEntries (cfgBody s secOwnership 0)).find? fun e => e.resource == resource

/-- Resource numbers (Table 4.11). -/
def resSarSlot (conv slot : Nat) : Nat := 0x04000000 + conv * 32 + slot
def resDs (ch : Nat) : Nat := 0x05000000 + ch

/-- The injected slots of a converter that carry a trigger code, ascending (R176, R178). -/
def injectedSlots (s : State) (conv code : Nat) : List Nat :=
  [16, 17, 18, 19].filter fun k =>
    match ownerOf s (resSarSlot conv k) with | some e => e.select / 256 == code | none => false

/-- The regular slots of a converter in their order: the claimed ones and slot 15 (R177). ADC7's slots are the Backstay's. -/
def regularSlots (s : State) (conv : Nat) : List Nat :=
  (List.range 15).filter (fun k => (ownerOf s (resSarSlot conv k)).isSome) ++ [15]

/-- The input that a claimed slot converts: SELECT[7:0] (R176). -/
def slotInput (s : State) (conv slot : Nat) : Nat := match ownerOf s (resSarSlot conv slot) with | some e => e.select % 256 | none => 0

/-- Some injected slot of ADC0 to ADC6 carries a trigger code; ADC7 is never part of a set (R179). -/
def codeCarried (s : State) (code : Nat) : Bool := (List.range 7).any fun c => !(injectedSlots s c code).isEmpty

/-- A trigger is raised towards the ADC domain (R178, R181): it waits there for INJECTED_TRIGGER to take it. A second one of the same code
cannot be told from it until then: DESIGN CHOICE (log entry 216), unsafe. -/
def raiseTrigger (s : State) (code : Nat) : State :=
  if bitAt s.clk.lost 2 || bitAt s.clk.lost 3 || s.sensing.raised.contains code || !codeCarried s code then s
  else { s with sensing := { s.sensing with raised := s.sensing.raised ++ [code] } }

/-- A delta-sigma channel is used: the map claims it (R198). -/
def dsClaimed (s : State) (ch : Nat) : Bool := (ownerOf s (resDs ch)).isSome
/-- The modulator clock that a channel entry names (Table 7.8). -/
def dsClock (s : State) (ch : Nat) : Nat := cfgU s secConverters 0 (48 + 8 * ch) 1
/-- The modulator clock of a channel in hertz (R183). -/
def dsRate (s : State) (ch : Nat) : Q :=
  let c := dsClock s ch
  if cfgU s secConverters 0 (16 + 8 * c) 1 = 1 then cfgF s secConverters 0 (20 + 8 * c) else 80000000 / ((max 1 (cfgU s secConverters 0 (17 + 8 * c) 1) : Nat) : Q)

end Sys2Proof.Machine
end

