-- ==== Sys2Proof/Machine/Angles.lean ====
section
/-! DEFINITION. Angles (R7), the sine table (R205), vectors of three phases (R207). Angles are kept in turns: 1 is one
electrical turn. -/
namespace Sys2Proof.Machine
open Sys2Proof

def twoPi : Q := 2 * Config.pi

/-- An angle wrapped to one turn, and one wrapped to the half-open turn around 0. -/
def wrapTurn (q : Q) : Q := q - (q.floor : Q)
def wrapHalf (q : Q) : Q := wrapTurn (q + 1 / 2) - 1 / 2

/-- The 16-bit angle of R7. -/
def angle16 (turns : Q) : Nat := (wrapTurn turns * 65536).floor.toNat % 65536

/-- The terms from x^n / n! on of the series of the sine, in units of 2^−48, from the term and the square of the angle. -/
def sineSum (sq : Nat) : Nat → Nat → Nat → Int
  | 0, _, _ => 0
  | fuel + 1, n, t => (t : Int) - sineSum sq fuel (n + 2) (t * sq / 2 ^ 48 / ((n + 1) * (n + 2)))

/-- sin(2π × k / 4096) in the first quarter turn, in units of 2^−48: nine terms of the series, on 2π / 4096 × 2^60 rounded to an integer. -/
def sineFine (k : Nat) : Int :=
  let x := k * 1768559438007110 / 2 ^ 12
  sineSum (x * x / 2 ^ 48) 9 1 x

/-- The same as the nearest code of 17 fraction bits, limited to 1 − 2^−17 (R205). No entry lies within 10^−4 of a code's half, and the sum errs
by less than 10^−7 of a code. -/
def quarterSine (k : Nat) : Int := min 131071 ((sineFine k + 2 ^ 30) / 2 ^ 31)

/-- The sine of k / 4096 turn to 48 fraction bits, exact at the quarter turns, for the microsteps of R337, which name no table. DESIGN CHOICE
(log entry 246). -/
def stepSine (k : Nat) : Q :=
  let r := k % 1024
  let q := k / 1024 % 4
  let j := if q % 2 = 0 then r else 1024 - r
  let v : Int := if j = 1024 then 2 ^ 48 else sineFine j
  (((if q < 2 then v else -v) : Int) : Q) / 2 ^ 48

/-- Entry k of the sine table: 18 bits two's complement with 17 fraction bits, limited to ±(1 − 2^−17) (R205). -/
def sineEntry (k : Nat) : Q :=
  let r := k % 1024
  let q := k / 1024 % 4
  let code : Int := (if q < 2 then 1 else -1) * quarterSine (if q % 2 = 0 then r else 1024 - r)
  (code : Q) / 131072

/-- The sine of a 16-bit angle, interpolated between two entries (R205). -/
def tableSin (a : Nat) : Q :=
  let k := (a % 65536) / 16
  let lo := sineEntry k
  lo + (sineEntry (k + 1) - lo) * ((a % 16 : Nat) : Q) / 16
def tableCos (a : Nat) : Q := tableSin (a + 0x4000)

/-- Sine and cosine of an angle in turns, through the table. -/
def sinT (turns : Q) : Q := tableSin (angle16 turns)
def cosT (turns : Q) : Q := tableCos (angle16 turns)

/-- atan2 in turns. -/
def atan2T (y x : Q) : Q := Config.atan2 y x / twoPi

def hypot (x y : Q) : Q := Config.sqrt (x * x + y * y)

/-- Clarke with three phase values, and with two (R207). -/
def clarke3 (u v w : Q) : Q × Q := ((2 * u - v - w) / 3, (v - w) / Config.sqrt3)
def clarke2 (u v : Q) : Q × Q := (u, (u + 2 * v) / Config.sqrt3)

/-- Park and its inverse at an angle in turns (R207). -/
def park (ab : Q × Q) (th : Q) : Q × Q := (ab.1 * cosT th + ab.2 * sinT th, -(ab.1 * sinT th) + ab.2 * cosT th)
def unpark (dq : Q × Q) (th : Q) : Q × Q := (dq.1 * cosT th - dq.2 * sinT th, dq.1 * sinT th + dq.2 * cosT th)

/-- The three phase values of a vector (R216). -/
def phases (ab : Q × Q) : Q × Q × Q := (ab.1, -ab.1 / 2 + Config.sqrt3 / 2 * ab.2, -ab.1 / 2 - Config.sqrt3 / 2 * ab.2)

end Sys2Proof.Machine
end

