-- ==== Sys2Proof/Machine/AuxOps.lean ====
section
/-! DEFINITION. The auxiliary actuator channel as operations: its section, energising and de-energising, holding a move,
referencing (R334 to R344). -/
namespace Sys2Proof.Machine
open Sys2Proof

/-! ## Fields of the AUX section (Table 12.4) -/
def auxU (s : State) (off size : Nat) : Nat := cfgU s secAux 0 off size
def auxI (s : State) (off size : Nat) : Int := fieldI (cfgBody s secAux 0) off size
def auxF (s : State) (off : Nat) : Q := cfgF s secAux 0 off
def auxMode (s : State) : Nat := auxU s 0 1
def holdKeep (s : State) : Bool := bitAt (auxU s 1 1) 0
def State.setAux (s : State) (f : Aux → Aux) : State := { s with aux := f s.aux }

/-- Microseconds of a run time in milliseconds left before `runEnd`, as whole milliseconds rounded up (R342). -/
def runLeft (s : State) : Int :=
  let ms : Nat := (s.aux.runEnd - s.clk.now + 99999) / 100000
  if s.aux.target < 0 then -(ms : Int) else (ms : Int)

/-- The remaining distance: microsteps in MODE 1, milliseconds in MODE 2, none in MODE 3 (R341, R342). -/
def auxRemaining (s : State) : Int :=
  match s.aux.held with
  | some t => if auxMode s = 2 then t else t - s.aux.m
  | none => if !s.aux.moving then 0 else if auxMode s = 2 then runLeft s else s.aux.target - s.aux.m

/-- POSITION of Table 12.6: m, or the remaining run time in MODE 2. -/
def auxPosition (s : State) : Int := if auxMode s = 2 then auxRemaining s else s.aux.m

/-- The held move is deleted, with AUX_MOVE_DISCARDED (R341). -/
def auxDiscard (s : State) : State :=
  if s.aux.held.isSome then raise (s.setAux fun a => { a with held := none }) evAuxMoveDiscarded 17 0 else s

/-- The channel writes its position to the staging RAM at each standstill and each de-energise (R339). -/
def auxKeep (s : State) : State :=
  if holdKeep s && auxMode s == 1 then s.setAux fun a => { a with kept := some a.m, keptRef := a.referenced, keptStale := false } else s

/-- What a de-energise does to the position of a stepper (R339): kept, or lost with m at full step 0. -/
def auxPositionOff (s : State) : State :=
  if auxMode s != 1 then s
  else if holdKeep s then auxKeep s
  else raise (auxDiscard (s.setAux fun a => { a with m := 0, referenced := false })) evAuxPositionLost 17 0

/-- A running move becomes a held move (R341); a solenoid has none (R343), nor has the park. -/
def auxHold (s : State) : State :=
  if !s.aux.moving then s
  else s.setAux fun a => { a with
    moving := false, stopping := false, rate := 0, standSince := s.clk.now
    held := if a.parking then none else if auxMode s = 1 then some a.target else if auxMode s = 2 then some (runLeft s) else none }

/-! ## The switches of a bridge (R334, R335) -/

/-- The part of TOFF that is fast decay, in ticks. -/
def fastDecay (s : State) : Nat := ticksOf (auxF s 8 * (16 - auxU s 3 1 : Nat) / 16)

/-- The switches of a diagonal: high and low of the first half-bridge, high and low of the second. -/
def diagonal (forward : Bool) : List Bool := [forward, !forward, !forward, forward]

/-- The switches that a bridge asks for at a model time: in a drive phase the diagonal of its direction; in a decay the opposite one for
the fast part, for a solenoid none, then both low-side switches (R335, R343). -/
def bridgeAsks (s : State) (b : Fin 2) (at_ : Nat) : List Bool :=
  let x := s.aux.bridges[b.val]
  if x.phase = 0 then [false, false, false, false]
  else if x.phase = 1 then diagonal x.forward
  else if x.since + fastDecay s ≤ at_ then [false, true, false, true]
  else if auxMode s = 3 then [false, false, false, false] else diagonal (!x.forward)

/-- A switch `k` of a bridge that is asked for is on at a model time: AUX_DT has passed since the last turn-off of the other switch of its
half-bridge (R334). -/
def deadTimeOver (s : State) (offs : List (Option Nat)) (k at_ : Nat) : Bool :=
  match offs.getD (k / 2 * 2 + (1 - k % 2)) none with
  | some t => decide (t + ticksOf (auxF s 16) ≤ at_)
  | none => true

/-- The last turn-off of each switch up to a model time: as the slow decay begins, that of the fast decay's high-side switch among them, where
that switch had turned on. -/
def bridgeOffs (s : State) (b : Fin 2) (at_ : Nat) : List (Option Nat) :=
  let x := s.aux.bridges[b.val]
  let e := x.since + fastDecay s
  let k := if x.forward then 2 else 0
  if x.phase = 2 ∧ x.since < e ∧ e ≤ at_ ∧ auxMode s ≠ 3 ∧ deadTimeOver s x.offAt.toList k (e - 1) then x.offAt.toList.set k (some e) else x.offAt.toList

/-- A bridge changes its phase, the turn-offs of the switches that were on noted. -/
def setPhase (s : State) (b : Fin 2) (phase : Nat) (forward blank : Bool) : State :=
  let now_ := s.clk.now
  let asked := bridgeAsks s b now_
  let offs := bridgeOffs s b now_
  let t := s.setAux fun a => { a with bridges := vupd a.bridges b fun x => { x with phase := phase, forward := forward, blank := blank, since := now_ } }
  let asks := bridgeAsks t b now_
  t.setAux fun a => { a with bridges := vupd a.bridges b fun x => { x with
    offAt := Vector.ofFn fun k =>
      if asked.getD k.val false && !asks.getD k.val false && deadTimeOver s offs k.val now_ then some now_ else (offs.getD k.val none) } }

/-- When the diagonal of a drive phase is on: at its start, or as the dead times of its two switches end (R334, R335). -/
def turnOnAt (s : State) (b : Fin 2) : Nat :=
  let x := s.aux.bridges[b.val]
  let other (k : Nat) : Nat := match x.offAt.toList.getD k none with | some t => t + ticksOf (auxF s 16) | none => 0
  max x.since (if x.forward then max (other 1) (other 2) else max (other 0) (other 3))

/-- Every switch of a bridge turns off; its overcurrent count starts anew. -/
def bridgeOff (s : State) (b : Fin 2) : State :=
  (setPhase s b 0 true false).setAux fun a => { a with bridges := vupd a.bridges b fun x => { x with above := false, overRun := 0 } }

/-- The level of a switch of the channel: STO does not hold it low, its bridge asks for it, and its dead time is over (R334). `half` counts
half-bridges A to D. -/
def auxLevel (s : State) (half : Fin 4) (high : Bool) : Bool :=
  let b : Fin 2 := if half.val < 2 then 0 else 1
  let k := 2 * (half.val % 2) + (if high then 0 else 1)
  !stoActive s && (bridgeAsks s b s.clk.now).getD k false && deadTimeOver s (bridgeOffs s b s.clk.now) k s.clk.now

/-- Every output of the channel goes low (R339). A park that this cuts short stays open until PARK_TIME (R344). -/
def auxOff (s : State) : State :=
  if !s.aux.energised then s else
  let t := (auxHold s).setAux fun a => { a with
    energised := false, stopping := false, rate := 0, holdCurrent := false
    pullOn := Vector.replicate 2 false, solOn := Vector.replicate 2 false }
  auxPositionOff (bridgeOff (bridgeOff t 0) 1)

/-- The bridges that a mode uses (Table 12.2). -/
def bridgeUsed (s : State) (b : Fin 2) : Bool := auxMode s == 1 || auxMode s == 3 || (auxMode s == 2 && b == 0)

/-- I_HOLD is in force: a stepper has stood still for HOLD_DELAY, a solenoid is on beyond T_PULL, or the channel stands in SAFE (R337, R341,
R343). -/
def holdInForce (s : State) : Bool :=
  match auxMode s with
  | 1 => s.aux.holdCurrent
  | 2 => s.aux.energised && !s.aux.moving && s.aux.holdCurrent && s.mode == .safe
  | 3 => (s.aux.solOn[0] && !s.aux.pullOn[0]) || (s.aux.solOn[1] && !s.aux.pullOn[1])
  | _ => false

/-- The current that a bridge is to drive (R337, R342, R343), with its sign. -/
def bridgeRef (s : State) (b : Fin 2) : Q :=
  let run := auxF s 24
  let hold := auxF s 28
  match auxMode s with
  | 1 =>
    let i := if holdInForce s then hold else run
    let k := (s.aux.m * ((1024 : Int) / 2 ^ auxU s 2 1) % 4096).toNat
    if b == 0 then i * stepSine (k + 1024)
    else (if bitAt (auxU s 1 1) 1 then -1 else 1) * (i * stepSine k)
  | 2 =>
    let i := if s.aux.moving then run else if holdInForce s then hold else 0
    if b == 0 then (if s.aux.target < 0 then -i else i) else 0
  | 3 => if !s.aux.solOn[b.val] then 0 else if s.aux.pullOn[b.val] then run else hold
  | _ => 0

/-- The code of a chopper comparator (R335). -/
def chopCode (s : State) (current : Q) : Nat :=
  min 1023 (roundHalfUp (qabs current / (auxF s 20 * 3) * 1024)).toNat
/-- The output of the reference DAC for a current (R335). -/
def chopVolts (s : State) (current : Q) : Q := (chopCode s current : Q) * 3 / 1024
/-- A chopper comparator is active at a sense voltage from its reference up: DESIGN CHOICE (log entry 233), unsafe. -/
def chopActive (s : State) (b : Fin 2) (volts : Q) : Bool := decide (chopVolts s (bridgeRef s b) ≤ volts)

/-- A drive phase begins, with its BLANK time (R335). -/
def driveBridge (s : State) (b : Fin 2) : State :=
  setPhase s b 1 (decide (0 ≤ bridgeRef s b)) true

/-- Bridges in use that have a current to drive begin to drive; the others stay off. -/
def driveAll (s : State) : State :=
  ([0, 1] : List (Fin 2)).foldl (fun t b =>
    if !bridgeUsed t b || (auxMode t != 1 && bridgeRef t b == 0) then
      bridgeOff t b
    else if t.aux.bridges[b.val].phase = 0 then driveBridge t b else t) s

/-- The channel is energised (R339). -/
def auxOn (s : State) : State :=
  driveAll (s.setAux fun a => { a with energised := true, fault := 0, standSince := if a.energised then a.standSince else s.clk.now })

/-- A fault de-energises the channel; a running move is held (R336, R341). -/
def auxFault (s : State) (code event : Nat) : State :=
  let t := auxOff s
  raise (t.setAux fun a => { a with
    fault := code, overcurrents := if code = 1 then satInc 16 a.overcurrents else a.overcurrents
    openLoads := if code = 2 then satInc 16 a.openLoads else a.openLoads }) event 17 0

/-- The channel comes to a standstill (R337, R339). -/
def auxStand (s : State) : State :=
  auxKeep (s.setAux fun a => { a with moving := false, stopping := false, rate := 0, standSince := s.clk.now, holdCurrent := s.mode == .safe })

/-- The park has been reached: the channel de-energises (R344). -/
def parkDone (s : State) : State := auxOff (s.setAux fun a => { a with parking := false, moving := false, stopping := false, rate := 0 })

/-- SAFE holds a running move, and an energised channel stands at I_HOLD: a DC actuator in the direction of its last run (R341, log entry 268). -/
def auxSafe (s : State) : State :=
  if s.aux.energised then driveAll ((auxKeep (auxHold s)).setAux fun a => { a with holdCurrent := auxMode s != 3 }) else s

/-- SAFE is left: a DC actuator no longer stands at I_HOLD (R341). -/
def auxSafeEnds (s : State) : State :=
  if s.aux.energised && auxMode s == 2 then driveAll (s.setAux fun a => { a with holdCurrent := false }) else s

/-- The kept REFSW edge of an unreferenced channel (R340): the position takes REF_POS, and the targets move with it. -/
def auxReference (s : State) : State :=
  let d := auxI s 64 4 - s.aux.m
  raise (s.setAux fun a => { a with
    m := a.m + d, latch := a.latch + d, referenced := true
    target := a.target + d, held := a.held.map (· + d) }) evAuxReferenced 17 0

/-- The position of the channel as cast-on finds it (R339): the kept one, or unreferenced with AUX_POSITION_LOST where the
stored value is stale. -/
def auxCastOn (s : State) : State :=
  if auxMode s != 1 || !holdKeep s then s else
  match s.aux.kept with
  | none => s
  | some k =>
    if s.aux.keptStale then raise (s.setAux fun a => { a with m := k, referenced := false }) evAuxPositionLost 17 0
    else s.setAux fun a => { a with m := k, referenced := a.keptRef }

/-- Main power is lost: the channel is de-energised, and a move in progress makes the stored position stale (R339). -/
def auxPowerLost (s : State) : State :=
  let stale := s.aux.moving && holdKeep s
  (auxOff s).setAux fun a => { a with keptStale := stale || a.keptStale }

/-- The park of bind-off step 3 (R344): held and running moves are discarded and the channel moves to PARK. While STO holds its outputs it stays
de-energised and does not move (R339), so that a park position that it is not at is not reached. -/
def auxPark (s : State) : State :=
  if !unitPresent s 17 || auxMode s = 0 then s else
  let t := auxDiscard (auxHold s)
  if auxF t 60 = 0 then auxOff t else
  let park := auxI t 56 4
  let u := t.setAux fun a => { a with parking := true, parkAt := s.clk.now, holdCurrent := false }
  let there := match auxMode t with
    | 1 => decide (t.aux.m = park)
    | 2 => decide (park = 0)
    | _ => decide (unsignedOf 32 park % 4 = 0)
  if there then parkDone u else
  if stoActive t then u else
  let v := u.setAux fun a => { a with energised := true, fault := 0 }
  match auxMode t with
  | 1 => driveAll (v.setAux fun a => { a with moving := true, target := park, rate := 0, rateCap := auxF t 44 })
  | 2 => driveAll (v.setAux fun a => { a with moving := true, target := park, runEnd := s.clk.now + park.natAbs * 100000 })
  | _ =>
    let on : Vector Bool 2 := #v[bitAt (unsignedOf 32 park) 0, bitAt (unsignedOf 32 park) 1]
    driveAll (v.setAux fun a => { a with solOn := on, pullOn := on, pullAt := Vector.replicate 2 s.clk.now })

end Sys2Proof.Machine
end

