-- ==== Sys2Proof/Machine/Gates.lean ====
section
/-! DEFINITION. From the compare values to the gate outputs (R20 to R27, R111 to R115, R120 to R123, R129, R157 to R162): what governs a
leg, the H edges of a carrier period, minimum pulse and dead time, and the gate outputs as they follow. -/
namespace Sys2Proof.Machine
open Sys2Proof

def legs3 : List (Fin 3) := [0, 1, 2]

/-! ## Fields of the PWM section (Table 5.8) -/

def pwmU (s : State) (n : Fin 4) (off size : Nat) : Nat := cfgU s secPwm n.val off size
def pwmF (s : State) (n : Fin 4) (off : Nat) : Q := cfgF s secPwm n.val off
/-- SHAPE: 0 centre, 1 edge. -/
def pwmEdge (s : State) (n : Fin 4) : Bool := pwmU s n 0 1 == 1
def stretchMode (s : State) (n : Fin 4) : Bool := bitAt (pwmU s n 3 1) 3

/-- Seconds as PWM clocks: to 2.5 ns for edge-aligned carriers, to 5 ns for centre-aligned ones (R113). The rule says nearest and not
which way a value halfway between two multiples goes: it goes up. DESIGN CHOICE (log entry 178), unsafe. -/
def clocksOf (edge : Bool) (seconds : Q) : Nat :=
  if edge then (roundHalfUp (seconds * 400000000)).toNat else 2 * (roundHalfUp (seconds * 200000000)).toNat
/-- Seconds as taps of 78.125 ps, a half tap up as above (R113, log entry 178). -/
def tapsOf (seconds : Q) : Int := roundHalfUp (seconds * 12800000000)
/-- A time field of the PWM section in taps (R113). -/
def pwmTaps (s : State) (n : Fin 4) (off : Nat) : Nat := (tapsOf (pwmF s n off)).toNat

/-- PERIOD and PERIOD_MAX in PWM clocks. -/
def periodClocks (s : State) (n : Fin 4) : Nat := clocksOf (pwmEdge s n) (pwmF s n 4)
def periodMaxClocks (s : State) (n : Fin 4) : Nat := clocksOf (pwmEdge s n) (pwmF s n 8)

/-- The axis runs half a period after its leader: PHASE is PERIOD / 2 in a group (R118). R146 has PHASE used where SYNC is not 0, and R118 does
not name SYNC: a member's PHASE counts with SYNC 0 too. DESIGN CHOICE (log entry 247), unsafe. -/
def antiPhase (s : State) (n : Fin 4) : Bool := axLeader s n != n && decide (0 < pwmF s n 12)

/-! ## The comparator and fast-flag entries of an axis (Table 6.9) -/

/-- Entry `k` of the used comparator entries: number, control byte, target (Table 6.9). -/
def cmpEntryOff (k : Nat) : Nat := 16 + 12 * k
def dsfEntryOff (k : Nat) : Nat := 112 + 12 * k

/-- The used comparator entry of axis `n` that names comparator `k`: its offset in the TRIP body. -/
def cmpEntry (s : State) (n : Fin 4) (k : Nat) : Option Nat :=
  ((List.range (min 8 (cfgU s secTrip n.val 2 1))).map cmpEntryOff).find? fun off => cfgU s secTrip n.val off 1 == k

def dsfEntry (s : State) (n : Fin 4) (ch : Nat) : Option Nat :=
  ((List.range (min 4 (cfgU s secTrip n.val 3 1))).map dsfEntryOff).find? fun off => cfgU s secTrip n.val off 1 == ch

/-- ACTION of an entry: 0 REPORT, 1 CBC, 2 LATCH, 3 PATTERN. -/
def entryAction (s : State) (n : Fin 4) (off : Nat) : Nat := bitsOf (cfgU s secTrip n.val (off + 1) 1) 4 2
/-- TARGET: a leg is named by its bit. -/
def entryTargets (s : State) (n : Fin 4) (off : Nat) (leg : Fin 3) : Bool := bitAt (cfgU s secTrip n.val (off + 2) 1) leg.val

/-- CBC_SCOPE: 0 leg, 1 axis, 2 group (Table 6.8). -/
def cbcScope (s : State) (n : Fin 4) : Nat := bitsOf (cfgU s secTrip n.val 0 1) 0 2
/-- FLT_SCOPE: a driver fault forces the leg, or the whole axis (R155). -/
def fltAxisScope (s : State) (n : Fin 4) : Bool := bitAt (cfgU s secTrip n.val 0 1) 2

/-! ## What governs a leg (Table 1.6, R24, R25, R129) -/

/-- The CBC scope of a source of axis `m` covers a leg of axis `n` (R157). -/
def cbcCovers (s : State) (m : Fin 4) (off : Nat) (n : Fin 4) (leg : Fin 3) : Bool :=
  match cbcScope s m with
  | 0 => m == n && entryTargets s m off leg
  | 1 => m == n
  | _ => (axMembers s m).contains n

/-- The level-2 latch of an entry of axis `m` covers a leg of axis `n`: the target legs of a LATCH entry, the CBC scope of a CBC entry
(R153, R157, R160). -/
def latchCovers (s : State) (m : Fin 4) (off : Nat) (n : Fin 4) (leg : Fin 3) : Bool :=
  if entryAction s m off = 1 then cbcCovers s m off n leg else m == n && entryTargets s m off leg

/-- Some latch of the given masks of axis `m` covers a leg of axis `n`. -/
def maskCovers (s : State) (m : Fin 4) (cmps dsfs : Nat) (n : Fin 4) (leg : Fin 3) : Bool :=
  (cmps != 0 && (List.range 24).any fun k => bitAt cmps k && match cmpEntry s m k with | some off => latchCovers s m off n leg | none => false) ||
  (dsfs != 0 && (List.range 16).any fun k => bitAt dsfs k && match dsfEntry s m k with | some off => latchCovers s m off n leg | none => false)

/-- A level-2 latch of a latched trip holds the leg. -/
def cmpHolds (s : State) (n : Fin 4) (leg : Fin 3) : Bool :=
  allAxes.any fun m => ((s.axis m).trip.cmpLatch != 0 || (s.axis m).trip.dsfLatch != 0) && (axMembers s n).contains m &&
    maskCovers s m (s.axis m).trip.cmpLatch (s.axis m).trip.dsfLatch n leg

/-- A level-2 latch of a CBC source holds the leg (Table 1.6, R157, R163). -/
def cbcHolds (s : State) (n : Fin 4) (leg : Fin 3) : Bool :=
  allAxes.any fun m => ((s.axis m).trip.cmpCbc != 0 || (s.axis m).trip.dsfCbc != 0) && (axMembers s n).contains m &&
    maskCovers s m (s.axis m).trip.cmpCbc (s.axis m).trip.dsfCbc n leg

/-- The bank of an axis's gate balls: VDDIO0 for AX0 and AX1, VDDIO1 for AX2 and AX3 (Table 20.3). -/
def gateBank (n : Fin 4) : Nat := 3 + n.val / 2

def legDrive (s : State) (n : Fin 4) (leg : Fin 3) : LegDrive :=
  let a := s.axis n
  if !driversOn s || !axPresent s n || !supplied s (gateBank n) then .released
  else if stoActive s then .sto
  else if bitAt s.clk.lost 2 || a.bs.geRemoved || s.back.livenessLost || cmpHolds s n leg || bitAt a.trip.fltLatch leg.val ||
      (a.trip.fltLatch != 0 && fltAxisScope s n) then .latchedOff
  else if a.core.st == .axisSafe then
    if cbcHolds s n leg then .latchedOff
    else if a.discharging then .switching
    else .pattern (if a.core.sub == .discharge then .freewheel else a.core.sub)
  else if a.pwm.block[leg.val] || cbcHolds s n leg then .blocked
  else if axSwitching s n then .switching
  else .off

/-- A marked switch stays off at level 3 until the trip is cleared (R405): the one that FLT_SIDE names, both with UNKNOWN (R156), and one that
EDGE_MISSING names (R404). -/
def heldOff (s : State) (n : Fin 4) (leg : Fin 3) (high : Bool) : Bool :=
  if high then markedHigh (s.axis n) leg else markedLow (s.axis n) leg

/-! ## The H edges of a period (Table 5.1) -/

/-- A set that holds a leg low, or high, from its transfer (Table 5.1). `period` is in clocks, compare values in taps. -/
def fullLow (edge : Bool) (period a b : Nat) : Bool := if edge then decide (b ≤ a) else decide (16 * period ≤ a) && decide (16 * period ≤ b)
def fullHigh (edge : Bool) (period a b : Nat) : Bool := if edge then decide (a = 0) && decide (32 * period ≤ b) else decide (a = 0) && decide (b = 0)

/-- The instants after the valley at which H rises and falls, in taps; none where the set produces no such edge. -/
def riseAt (edge : Bool) (period a b : Nat) : Option Nat :=
  if fullLow edge period a b || fullHigh edge period a b then none
  else if edge then some a else if 16 * period ≤ a then none else some a
def fallAt (edge : Bool) (period a b : Nat) : Option Nat :=
  if fullLow edge period a b || fullHigh edge period a b then none
  else if edge then (if 32 * period ≤ b then none else some b) else if 16 * period ≤ b then none else some (32 * period - b)

/-- The H-high interval of one period in taps, where both edges lie in it. -/
def highWidth (edge : Bool) (period a b : Nat) : Nat :=
  if fullLow edge period a b then 0 else if fullHigh edge period a b then 32 * period
  else match riseAt edge period a b, fallAt edge period a b with
    | some r, some f => f - r
    | some r, none => 32 * period - r
    | none, some f => f
    | none, none => 0

/-- What the edges of one leg are placed by: the shape, PERIOD in clocks, the active compare values, the dead times, MIN_PULSE, SN_WINDOW and
SN_MIN_ON in taps, the mode, the carrier count, and whether the compare set governs the leg. -/
structure LegTiming where
  edge : Bool
  period : Nat
  a : Nat
  b : Nat
  dtR : Nat
  dtF : Nat
  dtMin : Nat
  minPulse : Nat
  window : Nat
  minOn : Nat
  stretch : Bool
  carrier : Nat
  live : Bool
  deriving DecidableEq, Repr

def legTiming (s : State) (n : Fin 4) (leg : Fin 3) : LegTiming :=
  let p := (s.axis n).pwm
  { edge := pwmEdge s n, period := p.active.period, a := p.active.cmpA[leg.val], b := p.active.cmpB[leg.val]
    dtR := pwmTaps s n (20 + 8 * leg.val), dtF := pwmTaps s n (24 + 8 * leg.val), dtMin := pwmTaps s n 16
    minPulse := pwmTaps s n 44, window := pwmTaps s n 48, minOn := pwmTaps s n 52, stretch := stretchMode s n
    carrier := p.carrier, live := p.gates[leg.val].drive == .switching && !p.gates[leg.val].held }

/-- The dead time that follows an edge of H to a level (R120). -/
def deadTime (x : LegTiming) (level : Bool) : Nat := if level then x.dtR else x.dtF

/-- A pulse of `width` taps at a level is shorter than a limit once its dead time is taken off (R122, R136). -/
def tooShort (x : LegTiming) (level : Bool) (limit width : Nat) : Bool := decide (width < deadTime x level + limit)

/-- The interval in taps that H keeps a level which it has at `pos`, by the active compare values (R122, R123): to the fall, or to the rise, of
this period where that is still to come, and of the next where it has passed; none where the values name no such edge. -/
def plannedWidth (x : LegTiming) (g : GateLeg) (level : Bool) (pos : Nat) : Option Nat :=
  let until_ (done : Bool) (e : Nat) : Nat := if !done && decide (pos ≤ e) then e - pos else 32 * x.period + e - pos
  if level then (fallAt x.edge x.period x.a x.b).map (until_ g.fell) else (riseAt x.edge x.period x.a x.b).map (until_ g.rose)

/-- The on-time of a pulse of a level and `width` taps stays below SN_MIN_ON, where no pulse is shorter than MIN_PULSE (R122, R136). -/
def briefPulse (x : LegTiming) (level : Bool) (width : Nat) : Bool := tooShort x level x.minOn (max width (deadTime x level + x.minPulse))

/-- What the edge that opened the present pulse is to say of it, while its window is still held (R136). -/
def markBrief (g : GateLeg) (brief : Bool) : GateLeg :=
  { g with windows := g.windows.map fun w => if some w.tref = g.openAt && !w.dropped then { w with brief := brief } else w }

/-- The present pulse ends at an instant: its on-time is known. -/
def endPulse (x : LegTiming) (g : GateLeg) (t : Nat) : GateLeg :=
  match g.openAt with
  | some o => markBrief g (tooShort x g.h x.minOn (t - o))
  | none => g

/-- A transfer changes the width that is planned for the present pulse. -/
def replanPulse (x : LegTiming) (g : GateLeg) (pos t : Nat) : GateLeg :=
  match g.openAt, plannedWidth x g g.h pos with
  | some o, some w => markBrief g (briefPulse x g.h (t - o + w))
  | some _, none => markBrief g false
  | none, _ => g

/-! ## Switches (R120, R121) -/

/-- A switch turns off at once. -/
def switchOff (g : GateLeg) (high : Bool) (t : Nat) : GateLeg :=
  if high then { g with high := false, dueHigh := none, offHigh := if g.high then some t else g.offHigh
                        highEdges := if g.high then ((t, false) :: g.highEdges).take 8 else g.highEdges }
  else { g with low := false, dueLow := none, offLow := if g.low then some t else g.offLow }

/-- A switch is to turn on, no earlier than `t`, and no earlier than DT_MIN after the last turn-off of its complement and after the last
release or clear of the leg (R121). -/
def requestOn (g : GateLeg) (dtMin : Nat) (high : Bool) (t : Nat) : GateLeg :=
  if (if high then g.high else g.low) then g else
  let after (o : Option Nat) (u : Nat) : Nat := match o with | some v => max u (v + dtMin) | none => u
  let due := after (if high then g.offLow else g.offHigh) (after g.release t)
  if high then { g with dueHigh := some due } else { g with dueLow := some due }

/-- A switch turns on. -/
def switchOn (g : GateLeg) (high : Bool) (t : Nat) : GateLeg :=
  if high then { g with high := true, dueHigh := none, onHigh := some t
                        highEdges := if g.high then g.highEdges else ((t, true) :: g.highEdges).take 8 } else { g with low := true, dueLow := none, onLow := some t }

/-! ## Edges of H (R114, R122, R123) -/

/-- An edge of H is issued: the outgoing switch turns off, the incoming one follows after its dead time, and the measurement window of R131
opens. -/
def issueEdge (x : LegTiming) (g : GateLeg) (level : Bool) (pos t : Nat) : GateLeg :=
  let plan := plannedWidth x g level pos
  let short := match plan with | some w => tooShort x level x.minPulse w | none => false
  let closes := match g.openAt with | some o => tooShort x g.h x.minOn (t - o) | none => false
  let w : EdgeWindow := { rising := level, tref := t, stop := t + deadTime x level + x.window, short := closes, brief := (plan.map (briefPulse x level)).getD false
                          stretched := g.closeAt.isSome, moved := g.closeAt.isSome && !g.planned, dropped := false, whole := g.openAt.isSome
                          width := 0, carrier := x.carrier }
  let g1 := { g with h := level, openAt := some t, planned := short && x.stretch, closeAt := none, windows := (endPulse x g t).windows ++ [w] }
  requestOn (switchOff g1 (!level) t) x.dtMin level (t + deadTime x level)

/-- The pulse that H would open at an instant `t` is issued, or removed where it would be short in DROP mode; its record is then due (R122).
Table 5.4 gives the width of a pulse to DROPPED alone and ERR to STRETCHED, where R122 has both records carry it: the table is followed.
DESIGN CHOICE (log entry 248), unsafe. -/
def openPulse (x : LegTiming) (g : GateLeg) (level : Bool) (pos t : Nat) : GateLeg :=
  match plannedWidth x g level pos with
  | some w =>
    if tooShort x level x.minPulse w && !x.stretch then
      { g with closeAt := none, windows := g.windows ++ [{ rising := level, tref := t, stop := t, short := false, stretched := false, moved := false
                                                           dropped := true, whole := false, width := w, carrier := x.carrier }] }
    else issueEdge x g level pos t
  | none => issueEdge x g level pos t

/-- H is to go to a level at an instant `t`, `pos` taps after the valley. A started pulse is not ended before its on-time reaches MIN_PULSE
(R122, R123). An edge back before a delayed closing edge undoes that edge: DESIGN CHOICE (log entry 180), unsafe. Where no compare set
governs the leg H only follows. -/
def goLevel (x : LegTiming) (g : GateLeg) (level : Bool) (pos t : Nat) : GateLeg :=
  if !x.live then { g with h := level, openAt := none, closeAt := none }
  else if g.h = level then { g with closeAt := none }
  else if (match g.openAt with | some o => decide (t < o + deadTime x g.h + x.minPulse) | none => false) then
    { g with closeAt := g.openAt.map fun o => o + deadTime x g.h + x.minPulse }
  else openPulse x g level pos t

/-- What happens next in a leg. -/
inductive LegEvent where
  | rise | fall | close | onHigh | onLow
  deriving DecidableEq, Repr

/-- The next event of a leg before the position `stop` of the carrier and before the instant `t1`; `t` is the instant of position `pos`. An
edge whose position has passed is issued at `t` (R115). -/
def nextEvent (x : LegTiming) (g : GateLeg) (pos stop t t1 : Nat) : Option (Nat × LegEvent) :=
  let edge (done : Bool) (e : Option Nat) (k : LegEvent) : List (Nat × LegEvent) :=
    match e with | some r => if !done && decide (r < stop) then [(t + (r - pos), k)] else [] | none => []
  let due (e : Option Nat) (k : LegEvent) : List (Nat × LegEvent) :=
    match e with | some v => if v < t1 then [(max t v, k)] else [] | none => []
  let all := edge g.rose (riseAt x.edge x.period x.a x.b) .rise ++ edge g.fell (fallAt x.edge x.period x.a x.b) .fall ++
    due g.closeAt .close ++ due g.dueHigh .onHigh ++ due g.dueLow .onLow
  all.foldl (fun best e => match best with | some b => if e.1 < b.1 then some e else some b | none => some e) none

/-- One event of a leg at its instant. -/
def legEvent (x : LegTiming) (g : GateLeg) (pos t : Nat) (e : Nat × LegEvent) : GateLeg :=
  let p := pos + (e.1 - t)
  match e.2 with
  | .rise => goLevel x { g with rose := true } true p e.1
  | .fall => goLevel x { g with fell := true } false p e.1
  | .close => openPulse x g (!g.h) p e.1
  | .onHigh => switchOn g true e.1
  | .onLow => switchOn g false e.1

/-- The events of a leg in order, at most `fuel` of them. -/
def runLeg (x : LegTiming) (pos stop t t1 : Nat) : Nat → GateLeg → GateLeg
  | 0, g => g
  | fuel + 1, g =>
    match nextEvent x g pos stop t t1 with
    | some e => runLeg x pos stop t t1 fuel (legEvent x g pos t e)
    | none => g

/-! ## The outputs of an axis -/

/-- The instant of the present tick in taps of model time. -/
def tapNow (s : State) : Nat := 128 * s.clk.now

/-- The carrier position of the event that is due: the peak, or the valley that ends the period (R112). -/
def eventPos (p : Pwm) : Nat := if p.peaked then 32 * p.active.period else 16 * p.active.period

/-- The counters of the pulses that the legs dropped or stretched (Tables 5.10, 5.12): STRETCHED counts pulses that STRETCH mode stretched as
planned, STRETCH_COUNT those whose closing edge a later transfer would have moved too early (R122, R123). -/
def countPulses (old p : Pwm) : Pwm :=
  legs3.foldl (fun q l =>
    let new := p.gates[l.val].windows.drop old.gates[l.val].windows.length
    { q with
      dropped := min (2 ^ 16 - 1) (q.dropped + new.countP (·.dropped))
      stretched := min (2 ^ 16 - 1) (q.stretched + new.countP fun w => w.stretched && !w.moved)
      stretchCount := min (2 ^ 8 - 1) (q.stretchCount + new.countP (·.moved)) }) p

/-- Every leg of an axis changes; the pulses that it dropped or stretched are counted. -/
def eachLeg (s : State) (n : Fin 4) (f : Fin 3 → GateLeg → GateLeg) : State :=
  s.setAxis n fun a => { a with pwm := countPulses a.pwm { a.pwm with
    gates := #v[f 0 a.pwm.gates[0], f 1 a.pwm.gates[1], f 2 a.pwm.gates[2]] } }

/-- The legs of an axis with every event from carrier position `pos` at `t` on, before position `stop` and instant `t1`. -/
def runLegs (s : State) (n : Fin 4) (pos stop t t1 : Nat) : State :=
  eachLeg s n fun l g => runLeg (legTiming s n l) pos stop t t1 12 g

/-- The place of a trigger of axis `m` in the period of its leader, in taps: the valley or the peak plus the sampling OFFSET, which before the
valley falls in the period before (R181). -/
def triggerPos (s : State) (l m : Fin 4) (peak : Bool) : Int :=
  let off := 32 * roundHalfUp (cfgF s secSense m.val 4 * 400000000)
  let p : Int := (s.axis l).pwm.active.period
  if peak then 16 * p + off else if off < 0 then 32 * p + off else off

/-- The delta-sigma channels of the currents of an axis await an evaluation. Its triggers are those of the axis's current samples, the reloads
of RELOAD: DEDUCED (log entry 217), unsafe. -/
def dsTrigger (s : State) (m : Fin 4) (peak : Bool) : State :=
  if !bitAt (pwmU s m 1 1) (if peak then 1 else 0) || bitAt s.clk.lost 3 then s else
  legs3.foldl (fun t l =>
    let off := 36 + 12 * l.val
    if cfgU t secSense m.val off 1 != 2 then t else
    { t with sensing := { t.sensing with sd := vupd t.sensing.sd (Fin.ofNat 16 (cfgU t secSense m.val (off + 1) 1)) fun d => { d with due := true } } }) s

/-- One event of the carrier that drives axis `m`: its codes of Table 7.2. The codes of a member name its leader's events (R176). -/
def axisTrigger (s : State) (m : Fin 4) (peak : Bool) : State :=
  dsTrigger (raiseTrigger (raiseTrigger s ((if peak then 0x14 else 0x10) + m.val)) (0x18 + m.val)) m peak

/-- The triggers that the carrier of a leader raises from position `a` on and before position `b`. -/
def carrierTriggers (s : State) (l : Fin 4) (a b : Nat) : State :=
  (axMembers s l).foldl (fun t m => ([false, true] : List Bool).foldl (fun u peak =>
    let x := triggerPos u l m peak
    if cfgHas u secSense m.val && decide ((a : Int) ≤ x) && decide (x < (b : Int)) then axisTrigger u m peak else u) t) s

/-- A tick of an axis: the carrier counts four PWM clocks, up to the event that is due, and the edges on the way are issued; what lies past the
event is kept for the next half period. Without the PWM clock there is no edge and no turn-on (R21, R111, R144). -/
def tickGates (s : State) (n : Fin 4) : State :=
  let p := (s.axis n).pwm
  if bitAt s.clk.lost 2 then s else
  let stop := if p.running then min (eventPos p) (p.pos + 128) else 0
  let t := runLegs s n p.pos stop (tapNow s) (tapNow s + 128)
  if p.running then
    (let u := t.setAxis n fun a => { a with pwm := { a.pwm with pos := stop, overTaps := p.overTaps + (p.pos + 128 - stop) } }
     if axLeader s n = n then carrierTriggers u n p.pos stop else u)
  else t

/-- A trip holds the leg (R26). -/
def tripHeld : LegDrive → Bool
  | .sto | .latchedOff | .pattern _ => true
  | .released | .blocked | .switching | .off => false

/-- A leg stays under a safe pattern: a switch that comes under a hold turns off, and one whose hold has ended follows the pattern (R156,
R405). -/
def leadPattern (s : State) (n : Fin 4) (leg : Fin 3) (sub : SafeSub) (g : GateLeg) : GateLeg :=
  let lead (high wanted : Bool) (g : GateLeg) : GateLeg :=
    let on := if high then g.high || g.dueHigh.isSome else g.low || g.dueLow.isSome
    if !wanted then (if on then switchOff g high (tapNow s) else g)
    else if on then g
    else requestOn { g with release := some (tapNow s) } (pwmTaps s n 16) high (tapNow s)
  lead true (sub == .ascHigh && !heldOff s n leg true) (lead false (sub == .ascLow && !heldOff s n leg false) g)

/-- The outputs of a leg under what governs it now. A change of it acts at once: switches that it does not want on turn off, wanted ones
follow under R121, where the end of a latch, of a CBC block or of a trip is a release. After a trip the compare set makes edges from the next
period start on (R26). -/
def leadLeg (s : State) (n : Fin 4) (leg : Fin 3) (g : GateLeg) : GateLeg :=
  let d := legDrive s n leg
  let t := tapNow s
  if g.drive = d then (match d with | .pattern sub => leadPattern s n leg sub g | _ => g) else
  let freed := g.drive == .latchedOff || g.drive == .blocked || (tripHeld g.drive && !tripHeld d)
  let ended := endPulse (legTiming s n leg) g t
  let g1 := { ended with drive := d, openAt := none, closeAt := none, held := g.held || tripHeld d, release := if freed then some t else g.release }
  let wantHigh : Bool := match d with | .switching => g.h && !g1.held | .pattern sub => sub == .ascHigh && !heldOff s n leg true | _ => false
  let wantLow : Bool := match d with | .switching => !g.h && !g1.held | .pattern sub => sub == .ascLow && !heldOff s n leg false | _ => false
  let g2 := if wantHigh then g1 else switchOff g1 true t
  let g3 := if wantLow then g2 else switchOff g2 false t
  let g4 := if wantHigh then requestOn g3 (pwmTaps s n 16) true t else g3
  if wantLow then requestOn g4 (pwmTaps s n 16) false t else g4

/-- A period starts: a leg that no trip governs any more makes edges again (R26). -/
def freeLeg (g : GateLeg) : GateLeg :=
  if g.held && !tripHeld g.drive then { g with held := false, drive := if g.drive == .switching then .off else g.drive } else g

/-- The outputs of every leg follow what governs them. -/
def settleGates (s : State) : State :=
  allAxes.foldl (fun t n => t.setAxis n fun a => { a with pwm := { a.pwm with
    gates := #v[leadLeg s n 0 a.pwm.gates[0], leadLeg s n 1 a.pwm.gates[1], leadLeg s n 2 a.pwm.gates[2]] } }) s

/-! ## Blanking (R152) -/

/-- A comparator entry is blanked: a switch of a target leg turned on less than BLANKING ago, rounded to 2.5 ns, and the PWM clock runs. -/
def blanked (s : State) (n : Fin 4) (off : Nat) : Bool :=
  let b := 32 * (roundHalfUp (cfgF s secTrip n.val (off + 8) * 400000000)).toNat
  let recent (o : Option Nat) : Bool := match o with | some t => decide (tapNow s < t + b) | none => false
  !bitAt s.clk.lost 2 && legs3.any fun l => entryTargets s n off l && (recent (s.axis n).pwm.gates[l.val].onHigh || recent (s.axis n).pwm.gates[l.val].onLow)

end Sys2Proof.Machine
end

