-- ==== Sys2Proof/Machine/Stops.lean ====
section
/-! DEFINITION. Safe Stop 1 and its relatives (R407 to R410), the speed of an axis, and events of severity STOP. -/
namespace Sys2Proof.Machine
open Sys2Proof

/-- The position interface that serves an axis in a role (Table 9.6): 0 primary, 1 secondary. -/
def ifcOf (s : State) (n : Fin 4) (role : Nat) : Option (Fin 4) :=
  allAxes.find? fun i => cfgHas s secPosition i.val && cfgU s secPosition i.val 0 1 != 0 && cfgU s secPosition i.val 1 1 == role
    && cfgU s secPosition i.val 2 1 == n.val

/-- The control speed ω_m in mechanical rad/s: of the angle source while the axis switches, of the monitor otherwise (R322,
R402). -/
def speedOf (s : State) (n : Fin 4) : Q :=
  let a := s.axis n
  (if axSwitching s n && a.ctl.src != 0 then a.ctl.w else a.mon.speed) / polePairs s n

/-- The speed of a stop under SS1 type a: the larger magnitude of the control speed and the Backstay's (R409). -/
def stopSpeedNow (s : State) (n : Fin 4) : Q := qmax (qabs (speedOf s n)) (qabs (s.axis n).bs.wBs)

/-- STOP_TIME of an axis in model time. -/
def stopTicks (s : State) (n : Fin 4) : Nat := ticksOf (safetyF s n 4)

/-- The axis enters STOPPING (R408, R330), with its deadline. -/
def enterStopping (s : State) (n : Fin 4) (ss1 : Bool) : State :=
  s.setAxis n fun a => { a with
    core := { a.core with st := .stopping, nextRun := none, ss1Asked := false, warmup := false }
    saf := { a.saf with
      stopSs1 := ss1, stopAt := s.clk.now, stopDeadline := s.clk.now + stopTicks s n, stopSpeed := stopSpeedNow s n
      stopTq := a.ctl.tRef, stopFollow := false, envelopeFails := 0, brakeHolding := false, slsBraking := false } }

/-- An SS1 request (R407): a running axis enters STOPPING at its next dispatch, or after the recapture that runs (R285); one in
CATCH goes to OFF (R293); one already STOPPING keeps the earlier deadline. -/
def requestSs1 (s : State) (n : Fin 4) : State :=
  let a := s.axis n
  match a.core.st with
  | .runTorque | .runSpeed | .runPosition =>
    if a.obs.inUse && a.obs.st == .recapturing then s.setAxis n fun a => { a with obs := { a.obs with heldStop := 2 } }
    else s.setAxis n fun a => { a with core := { a.core with ss1Asked := true } }
  | .catching => axisOff s n
  | .stopping => s.setAxis n fun a => { a with saf := { a.saf with stopDeadline := min a.saf.stopDeadline (s.clk.now + stopTicks s n) } }
  | .off | .axisSafe => s

/-- SS1 on every present axis. -/
def requestSs1All (s : State) : State := s.forAxes axPresent requestSs1

/-- An event of severity STOP on an axis performs SS1 on it (R407). -/
def raiseStop (s : State) (code : Nat) (n : Fin 4) (low : Nat) : State := requestSs1 (raiseAxis s code n low) n

/-- The axis is OFF, or freewheels in AXIS_SAFE: its gate outputs are low. -/
def gatesQuiet (s : State) (n : Fin 4) : Bool :=
  let c := (s.axis n).core
  c.st == .off || (c.st == .axisSafe && (c.sub == .freewheel || (c.sub == .discharge && c.discharged)))

end Sys2Proof.Machine
end

