-- ==== Sys2Proof/Machine/PositionOps.lean ====
section
/-! DEFINITION. Position interfaces: counts and angles, referencing, snaps, compare channels, encoder emulation, source failure
(R237 to R264). -/
namespace Sys2Proof.Machine
open Sys2Proof

def State.ifc (s : State) (i : Fin 4) : PosIfc := s.pos[i.val]
def State.setIfc (s : State) (i : Fin 4) (f : PosIfc → PosIfc) : State := { s with pos := vupd s.pos i f }

/-! ## Fields of the POSITION section (Table 9.6) -/
def posU (s : State) (i : Fin 4) (off size : Nat) : Nat := cfgU s secPosition i.val off size
def posF (s : State) (i : Fin 4) (off : Nat) : Q := cfgF s secPosition i.val off
/-- MODE; 0 where the section is absent (R237). -/
def posMode (s : State) (i : Fin 4) : Nat := posU s i 0 1
/-- AXIS, which the range check holds below 4. -/
def posAxis (s : State) (i : Fin 4) : Fin 4 := Fin.ofNat 4 (posU s i 2 1)
def posInvert (s : State) (i : Fin 4) : Bool := bitAt (posU s i 3 1) 0
def posDirMode (s : State) (i : Fin 4) : Bool := bitAt (posU s i 3 1) 1
/-- GATE (R249) and FILTER (R238). -/
def posGate (s : State) (i : Fin 4) : Nat := bitsOf (posU s i 3 1) 2 2
def posFilter (s : State) (i : Fin 4) : Nat := posU s i 14 1
def posIndexEn (s : State) (i : Fin 4) : Bool := bitAt (posU s i 3 1) 4
def cpr (s : State) (i : Fin 4) : Nat := max 1 (posU s i 4 4)
def errLimit (s : State) (i : Fin 4) : Nat := max 1 (posU s i 21 1)

/-- P = TURNS × CPR + count (R239). -/
def extP (s : State) (i : Fin 4) : Int := (s.ifc i).turns * cpr s i + (s.ifc i).count

/-- An extended position as count and TURNS, which wraps in two's complement (R239). -/
def splitP (c : Nat) (p : Int) : Nat × Int := ((p % (c : Int)).toNat, signedOf 32 (unsignedOf 32 (p / (c : Int))))

/-- The extended position that the interface reports. DIRMODE acts on count edges, which MODE 1 alone has (R254). -/
def reportedP (s : State) (i : Fin 4) : Int := if posDirMode s i && posMode s i == 1 then (s.ifc i).reported else extP s i

/-- The electrical and the mechanical angle of a count (R240). -/
def elecOf (s : State) (i : Fin 4) (count : Nat) : Nat :=
  (count * cfgU s secControl (posAxis s i).val 4 1 * 65536 / cpr s i + posU s i 24 2) % 65536
def mechOf (s : State) (i : Fin 4) (count : Nat) : Nat := count * 65536 / cpr s i % 65536

/-- A speed in counts per second as electrical rad/s (R255). -/
def elecSpeed (s : State) (i : Fin 4) (countsPerS : Q) : Q := countsPerS * twoPi * polePairs s (posAxis s i) / (cpr s i : Q)

/-- A source is VALID: it is referenced and no failure cause holds (R258). -/
def srcValid (p : PosIfc) : Bool := p.st == .valid && p.referenced

/-- The secondary of an axis: its secondary interface, or the observer where there is none (R260). -/
def secondaryOf (s : State) (n : Fin 4) : Nat :=
  match ifcOf s n 1 with
  | some _ => 2
  | none => if cfgHas s secSensorless n.val && bitAt (cfgU s secSensorless n.val 0 1) 0 then 3 else 0

/-- An interface of the axis that counts: the primary, or the secondary (Table 10.1). -/
def countingIfc (s : State) (n : Fin 4) : Option (Fin 4) :=
  ([0, 1] : List Nat).findSome? fun r => match ifcOf s n r with
    | some i => if (s.ifc i).st == .failed || bitAt s.clk.lost 5 then none else some i
    | none => none

/-- P moves by `d` where no motion moved it: the revolution counter does not count it (R274). -/
def shiftOdo (s : State) (i : Fin 4) (d : Int) : State :=
  let n := posAxis s i
  if d = 0 || countingIfc s n != some i then s else
  s.setAxis n fun a => { a with mon := { a.mon with odoPrev := vupd a.mon.odoPrev 2 fun o => o.map (· + (d : Q) * polePairs s n / (cpr s i : Q)) } }

/-! ## Failure (R259) -/

/-- Reasons of Table 9.4. -/
def failIndex : Nat := 1
def failAmplitude : Nat := 2
def failFrame : Nat := 3
def failStale : Nat := 4
def failConverter : Nat := 5
def failClock : Nat := 6

/-- A source fails: POSITION_FAULT with the interface and the reason. The fall-back follows at the next dispatch (R260). -/
def failSource (s : State) (i : Fin 4) (reason : Nat) : State :=
  if posMode s i = 0 ∨ (s.ifc i).st == .failed then s else
  raiseLogged (s.setIfc i fun p => { p with st := .failed, reason := reason, staleRun := 0 }) evPositionFault 0xFF (place i.val 24 8 + reason) [BitVec.ofNat 8 reason]

/-- A source that is VALID again after its re-arm (R262). -/
def noteRestored (s : State) (i : Fin 4) : State :=
  if (s.ifc i).restoreDue && srcValid (s.ifc i) then
    raiseLogged (s.setIfc i fun p => { p with restoreDue := false }) evSourceRestored 0xFF (place i.val 24 8) []
  else s

/-! ## Compare channels (R263) -/

/-- P moved from `a` to `b` reaches or passes V in the direction of SPACING's sign (a SPACING of 0 counts as forward). -/
def comparePassed (c : CompareCh) (a b : Int) : Bool :=
  c.armed && (if 0 ≤ c.spacing then decide (a < c.v) && decide (c.v ≤ b) else decide (b ≤ c.v) && decide (c.v < a))

/-- The time of a hit: the edge time, or interpolated linearly in P between the two updates. -/
def hitTime (a b v : Int) (t0 t1 : Q) (inter : Bool) : Q :=
  if inter && b != a then t0 + (t1 - t0) * (((v - a : Int) : Q) / ((b - a : Int) : Q)) else t1

/-- Every hit of one channel over a move, up to `fuel` of them. -/
def compareHits (s : State) (i : Fin 4) (k : Fin 3) (a b : Int) (t0 t1 : Q) (inter snapped : Bool) : Nat → State
  | 0 => s
  | fuel + 1 =>
    let c := (s.ifc i).compare[k.val]
    if !comparePassed c a b then s else
    let r : HitRecord := { channel := k.val + 1, v := c.v, time := hitTime a b c.v t0 t1 inter, interpolated := inter, snapped := snapped }
    let c' : CompareCh := { c with v := c.v + c.spacing, armed := c.spacing != 0 }
    let full := decide (16 ≤ (s.ifc i).hits.length)
    let t := s.setIfc i fun p => { p with
      compare := p.compare.set k.val c'
      hits := if full then p.hits else p.hits ++ [r]
      lost := if full then satInc 16 p.lost else p.lost }
    compareHits (if full then raiseLimited t evCompareOverrun i.val 0xFF (place i.val 24 8) else t) i k a b t0 t1 inter snapped fuel

def compareAll (s : State) (i : Fin 4) (a b : Int) (t0 t1 : Q) (inter snapped : Bool) : State :=
  ([0, 1, 2] : List (Fin 3)).foldl (fun t k => compareHits t i k a b t0 t1 inter snapped ((b - a).natAbs + 1)) s

/-- Firmware takes the queued hit records (R263). -/
def takeHits (s : State) (i : Fin 4) : State := s.setIfc i fun p => { p with hits := [] }

/-! ## Encoder emulation (R264) -/

/-- An output count that falls due is put out, while the source is VALID; Z is high for the one state that passes INDEX_POS. Without a VALID
source the outputs hold their levels, and the backlog waits. -/
def emuTick (s : State) (i : Fin 4) : State :=
  let p := s.ifc i
  if p.emuBacklog = 0 then s
  else if !srcValid p then s.setIfc i fun q => { q with emuAt := (s.clk.now : Q) }
  else if (s.clk.now : Q) < p.emuAt + p.emuStep then s
  else
    let step : Int := if p.emuBacklog < 0 then -1 else 1
    s.setIfc i fun q => { q with
      emuBacklog := q.emuBacklog - step, emuOut := q.emuOut + step, emuAt := q.emuAt + q.emuStep
      emuZ := if q.emuZ = some q.emuOut then none else q.emuZ }

/-- The update period of a source in model time: the trigger period of MODES 2 and 3, half an excitation period of MODE 4. -/
def updatePeriod (s : State) (i : Fin 4) : Nat :=
  if posMode s i = 4 then ticksOf (if posF s i 48 = 0 then 0 else 1 / (2 * posF s i 48))
  else ticksOf (cfgF s secPwm (posAxis s i).val 4 * (if 0x18 ≤ posU s i 23 1 then 1 / 2 else 1))

/-- The source count passes `z` modulo `c` as it moves: it comes to `z`, from either side. -/
def passesAt (c z a b : Int) : Bool :=
  if a ≤ b then (b - z) / c != (a - z) / c else (a - 1 - z) / c != (b - 1 - z) / c

/-- A count change of the source reaches its emulation channel, while the source is VALID (R264). From a MODE 1 source the counts follow at once,
50 ns apart; from other modes those of an update are spread over the following update interval. -/
def emulate (s : State) (i : Fin 4) (a b : Int) : State :=
  if posU s i 96 1 = 0xFF ∨ !srcValid (s.ifc i) then s else
  let p := s.ifc i
  let den : Int := (max 1 (posU s i 102 2) : Nat)
  let total := p.emuRem + (b - a) * (posU s i 100 2 : Nat)
  let backlog := p.emuBacklog + Int.tdiv total den
  let z : Int := if posIndexEn s i then (posU s i 8 4 : Nat) else 0
  let now : Q := (s.clk.now : Q)
  let slow := posMode s i != 1
  let step : Q := if slow then qmax 5 ((updatePeriod s i : Q) / ((max 1 backlog.natAbs : Nat) : Q)) else 5
  let t := s.setIfc i fun p => { p with
    emuRem := Int.tmod total den, emuBacklog := backlog, emuStep := step
    emuAt := if slow then qmax now (p.emuAt + 5 - step) else if p.emuBacklog = 0 then qmax p.emuAt (now - 5) else p.emuAt
    emuZ := if passesAt (cpr s i : Nat) z a b then some (p.emuOut + backlog) else p.emuZ }
  if 65535 < backlog.natAbs then
    raise (t.setIfc i fun p => { p with emuBacklog := 0 }) evEmuOverspeed 0xFF (place i.val 24 8)
  else t

/-! ## Moving the count -/

/-- INDEX_MISSING (R251). -/
def checkIndexMissing (s : State) (i : Fin 4) : State :=
  if posIndexEn s i && decide (3 * (cpr s i : Int) < 2 * ((extP s i - (s.ifc i).indexP).natAbs : Int)) then
    raise (s.setIfc i fun p => { p with indexMissing := true, indexP := extP s i }) evIndexMissing 0xFF (place i.val 24 8)
  else s

/-- The positions of timed edges move with P where no motion moved it. -/
def shiftEdges (es : List (Nat × Int × Bool)) (d : Int) : List (Nat × Int × Bool) := if d = 0 then es else es.map fun e => (e.1, e.2.1 + d, e.2.2)

/-- P takes a new value by counting: compare channels, emulation and index supervision follow. `t0` and `t1` are the drive times of the last and
of this update, for interpolated hits. Where TURNS wraps, the positions held for later differences move with P, the quadrants of MODE 2 too, so
that the wrap raises nothing (R239). -/
def moveP (s : State) (i : Fin 4) (p' : Int) (t0 t1 : Nat) (inter : Bool) : State :=
  let a := extP s i
  let (c, t) := splitP (cpr s i) p'
  let j : Int := t * cpr s i + c - p'
  let u := s.setIfc i fun p => { p with
    count := c, turns := t, indexP := p.indexP + j, reported := p.reported + j, edges := shiftEdges p.edges j
    quad := p.quad + j / 1024, quadAt := p.quadAt + j / 1024, good := p.good.map fun g => (g.1 + j, g.2) }
  checkIndexMissing (emulate (compareAll (shiftOdo u i j) i a p' (t0 : Q) (t1 : Q) inter false) i a p') i

/-! ## Referencing (R248 to R253) -/

/-- A run-time claim on a capture channel or a latch ends (Table 4.13). -/
def releaseClaim (s : State) (resource : Nat) : State :=
  { s with cfg := { s.cfg with claims := s.cfg.claims.filter fun c => c.resource != resource } }

/-- The capture channel of an interface and the latch of a switch as resources (Table 4.11). -/
def resIndex (i : Fin 4) : Nat := 0x02000000 + 8 * i.val
def resSwitch (n : Fin 4) : Nat := 0x02000000 + 32 + n.val

/-- A move of P that no motion made shifts the planned position of an axis in RUN_POSITION with it; a running move is planned
again (R329). -/
def shiftPlan (s : State) (i : Fin 4) (d : Int) : State :=
  let n := posAxis s i
  if posU s i 1 1 != 0 || (s.axis n).core.st != .runPosition then s else
  s.setAxis n fun a => { a with prof := { a.prof with p := a.prof.p + (d : Q) * twoPi / (cpr s i : Q), replan := a.prof.moving } }

/-- The count is set at a referencing event: TURNS stays, every compare channel is disarmed (R250, R252, R253), and the quadrant count of
MODE 2 is set with it (R242). -/
def refEvent (s : State) (i : Fin 4) (pos : Nat) : State :=
  let t := s.setIfc i fun p => { p with
    count := pos % cpr s i, referenced := true, mechRef := true, awaitIndex := false, awaitSwitch := false, oow := 0
    compare := p.compare.map fun c => { c with armed := false }
    compareDisarmed := true, snapped := true, held := false
    quad := if posMode s i = 2 then (p.turns * cpr s i + (pos % cpr s i : Nat)) / 1024 else p.quad
    quadAt := if posMode s i = 2 then (p.turns * cpr s i + (pos % cpr s i : Nat)) / 1024 else p.quadAt }
  let d := extP t i - extP s i
  let u := t.setIfc i fun p => { p with reported := extP t i, indexP := extP t i, edges := shiftEdges p.edges d }
  let v := if srcValid (s.ifc i) then emulate u i (extP s i) (extP t i) else u
  noteRestored (shiftOdo (shiftPlan (releaseClaim v (resIndex i)) i d) i d) i

/-- P moves by `d` at a snap: armed values passed in their direction are hits with SNAPPED (R250, R253), and the counts are emulated (R264). -/
def snapBy (s : State) (i : Fin 4) (d : Int) : State :=
  let a := extP s i
  let (c, t) := splitP (cpr s i) (a + d)
  let u := s.setIfc i fun p => { p with count := c, turns := t, reported := p.reported + d, edges := shiftEdges p.edges d, snapped := d != 0 || p.snapped }
  emulate (compareAll (shiftOdo (shiftPlan u i d) i d) i a (a + d) (s.clk.drive.toNat : Q) (s.clk.drive.toNat : Q) false true) i a (a + d)

/-- A failed source is re-armed when its axis reaches OFF (R262). -/
def rearmSource (s : State) (i : Fin 4) : State :=
  if (s.ifc i).st == .failed then
    let quad := posMode s i = 1 ∨ posMode s i = 2
    s.setIfc i fun p => { p with
      st := .valid, reason := 0, oow := 0, viol := 0, frameErrs := 0, staleRun := 0, restoreDue := true
      referenced := if quad then false else p.referenced, mechRef := if quad then false else p.mechRef
      awaitIndex := if quad then true else p.awaitIndex
      awaitSwitch := if quad then decide (posU s i 26 1 < 4) else p.awaitSwitch, updated := s.clk.now }
  else s

/-! ## The excitation generators (R244) -/

/-- Interfaces in MODE 4 that name an excitation channel; the lowest owns it (R558), and its section sets the generator. -/
def excUser (s : State) (e : Nat) : Option (Fin 4) := allAxes.find? fun i => posMode s i == 4 && posU s i 15 1 == e

/-- A generator runs: the interfaces have started (cast-on step 13), and the PWM domain has its clock. -/
def excRuns (s : State) (e : Fin 2) : Option (Fin 4) :=
  if s.boot.phase < 0x0E || bitAt s.clk.lost 2 then none else excUser s e.val

/-- The output of a channel in volts: 64 steps per period, centred on 1.500 V with the peak EXC_AMP. The codes of the 12-bit DAC and its full
scale are not stated: the step's exact value stands for them. DESIGN CHOICE (log entry 223), unsafe. -/
def excVolts (s : State) (e : Fin 2) : Q :=
  match excRuns s e with
  | some i => 3 / 2 + posF s i 52 * sinT (((s.exc[e.val] * 64).floor : Q) / 64)
  | none => 3 / 2

/-- One tick of 10 ns of a generator: the sine goes on, and each peak raises its trigger EXC_PHASE later. -/
def tickExc (s : State) (e : Fin 2) : State :=
  match excRuns s e with
  | none => s
  | some i =>
    let f := posF s i 48
    let step := f / 100000000
    let peak (at_ : Q) : Bool := decide (wrapTurn (at_ + posF s i 56 * f - s.exc[e.val]) < step)
    let t := { s with exc := s.exc.set e.val (wrapTurn (s.exc[e.val] + step)) }
    let u := if peak (1 / 4) then raiseTrigger t (0x40 + e.val) else t
    if peak (3 / 4) then raiseTrigger u (0x42 + e.val) else u

end Sys2Proof.Machine
end

