-- ==== Sys2Proof/Machine/Sampling.lean ====
section
/-! DEFINITION. Samples read from the converters and scaled to amperes and volts (R186 to R192), and the values the control
chapters take from the configuration of an axis. -/
namespace Sys2Proof.Machine
open Sys2Proof

/-! ## SENSE entries (Tables 7.9, 7.10) -/
def senseU (s : State) (n : Fin 4) (off size : Nat) : Nat := cfgU s secSense n.val off size
def senseF (s : State) (n : Fin 4) (off : Nat) : Q := cfgF s secSense n.val off
/-- Offsets of the current entry of a leg, the DC-link entry and the phase-voltage entry of a leg. -/
def curOff (leg : Fin 3) : Nat := 36 + 12 * leg.val
def dcOff : Nat := 72
def voltOff (leg : Fin 3) : Nat := 84 + 12 * leg.val
def entryKind (s : State) (n : Fin 4) (off : Nat) : Nat := senseU s n off 1
def entryUnit (s : State) (n : Fin 4) (off : Nat) : Nat := senseU s n (off + 1) 1
def entrySlot (s : State) (n : Fin 4) (off : Nat) : Nat := senseU s n (off + 2) 1
def entryGain (s : State) (n : Fin 4) (off : Nat) : Q := senseF s n (off + 4)
def entryZero (s : State) (n : Fin 4) (off : Nat) : Q := senseF s n (off + 8)

/-- A current of a leg is sensed: KIND decides. Where the present bits of FLAGS (Table 7.9) say otherwise the spec does not say which holds: KIND
does. DESIGN CHOICE (log entry 257), unsafe. -/
def curPresent (s : State) (n : Fin 4) (leg : Fin 3) : Bool := entryKind s n (curOff leg) != 0
/-- The rotation monitor runs on an enabled axis with all three phase voltages (R270). -/
def hasMonitor (s : State) (n : Fin 4) : Bool :=
  axEnabled s n && entryKind s n (voltOff 0) == 1 && entryKind s n (voltOff 1) == 1 && entryKind s n (voltOff 2) == 1

def State.conv (s : State) (c : Fin 8) : Converter := s.sensing.adc[c.val]
def State.setConv (s : State) (c : Fin 8) (f : Converter → Converter) : State :=
  { s with sensing := { s.sensing with adc := vupd s.sensing.adc c f } }
def State.ds (s : State) (c : Fin 16) : DsChannel := s.sensing.sd[c.val]
def State.setDs (s : State) (c : Fin 16) (f : DsChannel → DsChannel) : State :=
  { s with sensing := { s.sensing with sd := vupd s.sensing.sd c f } }

/-- DS_MODULATOR_FAULT is outstanding on a channel: its cause stands, or has been gone for less than 10 ms (Table 7.14). -/
def dsFaulted (s : State) (c : Fin 16) : Bool :=
  (s.ds c).fault && ((s.ds c).failing || decide (s.clk.now < (s.ds c).goodSince + 1000000))

/-- A slot of a converter. -/
def slotOf (s : State) (conv slot : Nat) : SarSlot :=
  if h : slot < 20 then (s.conv (Fin.ofNat 8 conv)).slots[slot] else SarSlot.reset

/-- A code as volts (R174). -/
def codeVolts (code : Nat) : Q := (code : Q) * 3 / 65536

/-- What an entry's channel gives: x, whether it is over range, whether it cannot be used, its drive time. -/
structure Reading where
  x : Q
  ovr : Bool
  bad : Bool
  time : Nat
  deriving DecidableEq, Repr

def readEntry (s : State) (n : Fin 4) (off : Nat) : Reading :=
  if entryKind s n off = 2 then
    let c := s.ds (Fin.ofNat 16 (entryUnit s n off))
    { x := c.value, ovr := c.ovr, bad := dsFaulted s (Fin.ofNat 16 (entryUnit s n off)), time := c.time }
  else
    let c := slotOf s (entryUnit s n off) (entrySlot s n off)
    { x := codeVolts c.code, ovr := c.ovr, bad := !c.valid, time := c.time }

/-- A voltage of an entry: GAIN × (x − ZERO) (R192). -/
def voltsOf (s : State) (n : Fin 4) (off : Nat) : Q := entryGain s n off * ((readEntry s n off).x - entryZero s n off)
/-- A current of a leg: GAIN × (x − Z) (R186). -/
def ampsOf (s : State) (n : Fin 4) (leg : Fin 3) : Q :=
  entryGain s n (curOff leg) * ((readEntry s n (curOff leg)).x - ((s.axis n).sense.zero[leg.val]).getD (entryZero s n (curOff leg)))

/-- The DC-link voltage of an axis (R192). -/
def udcOf (s : State) (n : Fin 4) : Q := voltsOf s n dcOff

/-- The DC-link voltage of an axis at a sample: the result with the latest hold instant at or before it (R192). -/
def udcAt (s : State) (n : Fin 4) (hold : Nat) : Q :=
  let r := slotOf s (entryUnit s n dcOff) (entrySlot s n dcOff)
  let code := match r.before with | some b => if hold < r.time then b.1 else r.code | none => r.code
  entryGain s n dcOff * (codeVolts code - entryZero s n dcOff)

/-- The conditions under which no phase current flows (R187). An axis without three phase voltages has no rotation monitor (R270) that could tell
its line back-EMF peak: it counts as 0. DESIGN CHOICE (log entry 251), unsafe. -/
def zeroConditions (s : State) (n : Fin 4) : Bool :=
  gatesQuiet s n && decide (0x0D ≤ s.boot.phase) && decide ((s.axis n).sense.gatesLowSince + 1000000 ≤ s.clk.now) &&
  decide ((s.axis n).mon.eLine < 9 / 10 * udcOf s n)

/-- An axis uses a converter for a current or the DC link (R197). -/
def usesConv (s : State) (n : Fin 4) (c : Nat) : Bool :=
  axEnabled s n && ([curOff 0, curOff 1, curOff 2, dcOff].any fun off => entryKind s n off == 1 && entryUnit s n off == c)
def usesAnyConv (s : State) (n : Fin 4) : Bool := (List.range 7).any (usesConv s n)
def usesDs (s : State) (n : Fin 4) (c : Nat) : Bool :=
  axEnabled s n && ([curOff 0, curOff 1, curOff 2].any fun off => entryKind s n off == 2 && entryUnit s n off == c)

/-! ## Values of the CONTROL section (Table 8.4) -/
def ctlU (s : State) (n : Fin 4) (off size : Nat) : Nat := cfgU s secControl n.val off size
def ctlF (s : State) (n : Fin 4) (off : Nat) : Q := cfgF s secControl n.val off
def ctlFlag (s : State) (n : Fin 4) (b : Nat) : Bool := bitAt (ctlU s n 2 1) b
def ldOf (s : State) (n : Fin 4) : Q := ctlF s n 12
def lqOf (s : State) (n : Fin 4) : Q := ctlF s n 16
def tMaxOf (s : State) (n : Fin 4) : Q := ctlF s n 84
def iMaxOf (s : State) (n : Fin 4) : Q := ctlF s n 80
/-- Winding resistance: tracked while valid, RS otherwise (R210, R277). -/
def rsOf (s : State) (n : Fin 4) : Q := if (s.axis n).ctl.rsValid then (s.axis n).ctl.rsEst else ctlF s n 20

/-- Tu: the update interval (R204). -/
def tuOf (s : State) (n : Fin 4) : Q :=
  let p := ((s.axis n).pwm.active.period : Q) / 400000000
  let p' := if p = 0 then cfgF s secPwm n.val 4 else p
  if bitsOf (cfgU s secPwm n.val 1 1) 0 2 = 3 then p' / 2 else p'

end Sys2Proof.Machine
end

