-- ==== Sys2Proof/Machine/ThermalOps.lean ====
section
/-! DEFINITION. Temperatures: sensor chain, losses, networks, winding and magnet (R349 to R358). -/
namespace Sys2Proof.Machine
open Sys2Proof

def thU (s : State) (n : Fin 4) (off size : Nat) : Nat := cfgU s secThermal n.val off size
def thF (s : State) (n : Fin 4) (off : Nat) : Q := cfgF s secThermal n.val off
def State.setTh (s : State) (n : Fin 4) (f : ThermalAxis → ThermalAxis) : State := s.setAxis n fun a => { a with th := f a.th }

/-! ## The sensor chain (R355, R356) -/
def chainOff (c : Fin 3) : Nat := 560 + 28 * c.val
def chain3 : List (Fin 3) := [0, 1, 2]

/-- The voltage of a chain entry: the last result of its slot. -/
def chainVolts (s : State) (n : Fin 4) (c : Fin 3) : Q :=
  codeVolts (slotOf s (thU s n (chainOff c + 1) 1) (thU s n (chainOff c + 2) 1)).code

/-- The temperature of a chain entry with its OFFSET (R355). -/
def chainTemp (s : State) (n : Fin 4) (c : Fin 3) : Q :=
  let o := chainOff c
  let v := chainVolts s n c
  let t := if thU s n o 1 = 1 then
      let r := thF s n (o + 12) * v / (3 - v)
      1 / (20 / 5963 + Config.ln (r / thF s n (o + 4)) / thF s n (o + 8))
    else thF s n (o + 4) * v + thF s n (o + 8)
  t + thF s n (o + 16)

/-- The entry is present and not ignored. -/
def chainUsable (s : State) (n : Fin 4) (c : Fin 3) : Bool :=
  thU s n (chainOff c) 1 != 0 && !bitAt (s.axis n).th.ignored c.val && !bitAt (s.axis n).th.ignoredConv c.val

/-- The entry that gives T_ref; none where T_WORST does. -/
def refEntry (s : State) (n : Fin 4) : Option (Fin 3) := chain3.find? (chainUsable s n)

/-- T_ref (R356). -/
def tRefOf (s : State) (n : Fin 4) : Q := match refEntry s n with | some c => chainTemp s n c | none => thF s n 104

/-- SENSOR_CHAIN_EXHAUSTED follows the chain (R356). -/
def noteChain (s : State) (n : Fin 4) : State :=
  let none_ := (refEntry s n).isNone
  let t := s.setTh n fun h => { h with exhausted := none_ }
  if none_ && !(s.axis n).th.exhausted then raiseAxis t evSensorChainExhausted n 0 else t

/-- SENSOR_IGNORED for one entry. -/
def ignoreEntry (s : State) (n : Fin 4) (c : Fin 3) : State :=
  raiseAxis (s.setTh n fun h => { h with ignores := satInc 16 h.ignores }) evSensorIgnored n c.val

/-- A conversion of a chain entry's slot is judged (R356). -/
def chainConversion (s : State) (n : Fin 4) (c : Fin 3) : State :=
  let v := chainVolts s n c
  let lo := thF s n (chainOff c + 20)
  let hi := thF s n (chainOff c + 24)
  let out := decide (v < lo) || decide (hi < v)
  let well := decide (lo + 1 / 20 ≤ v) && decide (v ≤ hi - 1 / 20)
  let t := s.setTh n fun h => { h with
    outRun := h.outRun.set c.val (if out then min 8 (h.outRun[c.val] + 1) else 0)
    inSince := h.inSince.set c.val (if well then some (h.inSince[c.val].getD s.clk.now) else none) }
  if 8 ≤ (t.axis n).th.outRun[c.val] ∧ !bitAt (s.axis n).th.ignored c.val then
    noteChain (ignoreEntry (t.setTh n fun h => { h with ignored := setBit h.ignored c.val true }) n c) n
  else t

/-- Every chain entry that reads a slot. -/
def chainSlot (s : State) (conv slot : Nat) : State :=
  s.forAxes axEnabled fun t n => chain3.foldl (fun u c =>
    if thU u n (chainOff c) 1 != 0 && thU u n (chainOff c + 1) 1 == conv && thU u n (chainOff c + 2) 1 == slot then chainConversion u n c else u) t

/-- A converter becomes implausible, or plausible again, for the chains that use it (R197, R356). -/
def chainConverter (s : State) (bad : Nat → Bool) : State :=
  s.forAxes axEnabled fun t n =>
    let u := chain3.foldl (fun u c =>
      let now := thU u n (chainOff c) 1 != 0 && bad (thU u n (chainOff c + 1) 1)
      let was := bitAt (u.axis n).th.ignoredConv c.val
      let v := u.setTh n fun h => { h with ignoredConv := setBit h.ignoredConv c.val now }
      if now && !was then ignoreEntry v n c else if was && !now then raiseAxis v evSensorRestored n c.val else v) t
    noteChain u n

/-! ## Loss tables (R352) -/

/-- Interpolation over the 8 grid currents of one column, extrapolated along the last segment. -/
def gridValue (s : State) (n : Fin 4) (col : Nat) (i : Q) : Q :=
  let k := ((List.range 7).filter fun k => decide (thF s n (192 + 4 * k) ≤ i)).getLastD 0
  let i0 := thF s n (192 + 4 * k)
  let i1 := thF s n (192 + 4 * (k + 1))
  let v0 := thF s n (col + 4 * k)
  let v1 := thF s n (col + 4 * (k + 1))
  if i1 = i0 then v0 else v0 + (v1 - v0) * (i - i0) / (i1 - i0)

/-- A loss value at a current and a temperature: between the columns T_LO and T_HI, the nearer one outside. -/
def lossValue (s : State) (n : Fin 4) (table : Nat) (i t : Q) : Q :=
  let lo := thF s n 552
  let hi := thF s n 556
  let a := gridValue s n table i
  let b := gridValue s n (table + 32) i
  if t ≤ lo then a else if hi ≤ t then b else a + (b - a) * (t - lo) / (hi - lo)

/-- Junction temperatures (R353). -/
def tjSw (s : State) (n : Fin 4) (k : Fin 6) : Q := tRefOf s n + ((s.axis n).th.rSw[k.val]).toList.sum
def tjD (s : State) (n : Fin 4) (k : Fin 6) : Q := tRefOf s n + ((s.axis n).th.rD[k.val]).toList.sum

def elemH (leg : Fin 3) : Fin 6 := Fin.ofNat 6 (2 * leg.val)
def elemL (leg : Fin 3) : Fin 6 := Fin.ofNat 6 (2 * leg.val + 1)

def chargeSw (s : State) (n : Fin 4) (k : Fin 6) (e : Q) : State := s.setTh n fun h => { h with eSw := vupd h.eSw k (· + e) }
def chargeD (s : State) (n : Fin 4) (k : Fin 6) (e : Q) : State := s.setTh n fun h => { h with eD := vupd h.eD k (· + e) }

/-- The current of a leg at the last sample. -/
def legAmps (s : State) (n : Fin 4) (leg : Fin 3) : Q :=
  let v := (s.axis n).sense
  if leg.val = 0 then v.iU else if leg.val = 1 then v.iV else v.iW

/-- Conduction energy of one leg over an update interval, for the gated fractions of H and L (R349, R350). -/
def chargeLeg (s : State) (n : Fin 4) (leg : Fin 3) (fH fL tu : Q) : State :=
  let i := qabs (legAmps s n leg)
  let pos := decide (0 ≤ legAmps s n leg)
  let (sw1, sw2, d2) := if pos then (elemH leg, elemL leg, elemL leg) else (elemL leg, elemH leg, elemH leg)
  let (f1, f2) := if pos then (fH, fL) else (fL, fH)
  let fD := 1 - fH - fL
  let sync := bitAt (thU s n 0 1) 0
  let t := chargeSw s n sw1 (f1 * tu * lossValue s n 224 i (tjSw s n sw1) * i)
  let u := if sync then chargeSw t n sw2 (f2 * tu * lossValue s n 224 i (tjSw s n sw2) * i) else t
  chargeD u n d2 ((if sync then fD else fD + f2) * tu * lossValue s n 288 i (tjD s n d2) * i)

/-- The scale (U_dc / U_REF)^KV of switching energies (R351). -/
def switchScale (s : State) (n : Fin 4) : Q :=
  let r := (s.axis n).sense.udc / thF s n 544
  if r ≤ 0 then 0 else Config.exp (thF s n 548 * Config.ln r)

/-- Switching energy of one edge record at a current of its leg (R351). -/
def chargeEdge (s : State) (n : Fin 4) (leg : Fin 3) (rising : Bool) (amps : Q) : State :=
  let i := qabs amps
  let k := switchScale s n
  let sw (t : State) (el : Fin 6) (table : Nat) : State := chargeSw t n el (k * lossValue s n table i (tjSw s n el))
  let d (t : State) (el : Fin 6) : State := chargeD t n el (k * lossValue s n 480 i (tjD s n el))
  if decide (0 ≤ amps) then
    (if rising then d (sw s (elemH leg) 352) (elemL leg) else sw s (elemH leg) 416)
  else (if rising then sw s (elemL leg) 416 else d (sw s (elemL leg) 352) (elemH leg))

/-- A sample with its hold instant has come: the edges up to it are charged with the current of the nearer one of this sample and the last
(R351); halfway between them the earlier one counts. DESIGN CHOICE (log entry 234), unsafe. -/
def chargeEdges (s : State) (n : Fin 4) (amps : Fin 3 → Q) (hold : Nat) : State :=
  let old := (s.axis n).sense.holdTap
  let ready := (s.axis n).th.edges.filter fun e => decide (e.2.2 ≤ hold)
  let t := s.setTh n fun h => { h with edges := h.edges.filter fun e => decide (hold < e.2.2) }
  ready.foldl (fun u e => chargeEdge u n e.1 e.2.1 (if e.2.2 - old ≤ hold - e.2.2 then legAmps s n e.1 else amps e.1)) t

/-! ## Networks (R353, R357, R358) -/

/-- One Foster network stepped by `dt` with power `p`; `base` is the offset of its (R, TAU) pairs. -/
def fosterStep (s : State) (n : Fin 4) (base : Nat) (st : Vector Q 4) (p dt : Q) : Vector Q 4 :=
  Vector.ofFn fun k =>
    let r := thF s n (base + 8 * k.val)
    let tau := thF s n (base + 8 * k.val + 4)
    let a := if tau = 0 then 0 else Config.exp (-dt / tau)
    a * st[k.val] + (1 - a) * p * r

/-- The THERMAL contexts of an axis: 3, or 1 (R354). -/
def thermalContexts (s : State) (n : Fin 4) : Nat :=
  (List.range 128).countP fun k => cfgU s secContexts 0 (48 + 16 * k) 1 == 7 && cfgU s secContexts 0 (49 + 16 * k) 1 == n.val

/-- One element stepped, its energy taken. -/
def stepElement (s : State) (n : Fin 4) (k : Fin 6) (dt : Q) : State :=
  s.setTh n fun h => { h with
    rSw := vupd h.rSw k fun st => fosterStep s n 128 st (h.eSw[k.val] / dt) dt
    rD := vupd h.rD k fun st => fosterStep s n 160 st (h.eD[k.val] / dt) dt
    eSw := vupd h.eSw k fun _ => 0, eD := vupd h.eD k fun _ => 0 }

/-- T_w (R357). -/
def tWind (s : State) (n : Fin 4) : Q := tRefOf s n + (s.axis n).th.windRise

/-- T_mag as R209 takes it. -/
def tMagOf (s : State) (n : Fin 4) : Q := ((s.axis n).th.tMag).getD (ctlF s n 32)

/-- ψref (R209). -/
def psiRef (s : State) (n : Fin 4) : Q := ctlF s n 8 * (1 + ctlF s n 28 * (tMagOf s n - 29315 / 100))

/-- The winding and magnet networks, every 1 ms (R357, R358). -/
def windStep (s : State) (n : Fin 4) : State :=
  let a := s.axis n
  let tref := tRefOf s n
  let rs := ctlF s n 20
  let tc := ctlF s n 24
  let loss := 3 / 2 * (rs * (1 + tc * (tWind s n - 29315 / 100))) * (a.ctl.id * a.ctl.id + a.ctl.iq * a.ctl.iq)
  let w := Config.exp (-(1 / 1000) / thF s n 116)
  let rise := if a.ctl.rsValid ∧ rs ≠ 0 ∧ tc ≠ 0 then 29315 / 100 + (a.ctl.rsEst / rs - 1) / tc - tref
    else w * a.th.windRise + (1 - w) * loss * thF s n 112
  let goal := tref + thF s n 120 * rise
  let m := Config.exp (-(1 / 1000) / thF s n 124)
  s.setTh n fun h => { h with
    windRise := rise
    tMag := if bitAt (thU s n 0 1) 1 then some (goal + ((h.tMag).getD tref - goal) * m) else none }

/-- The coldest junction of an axis, or T_ref where lower, and the hottest junction (R359, R364). -/
def elems6 : List (Fin 6) := [0, 1, 2, 3, 4, 5]
def coldest (s : State) (n : Fin 4) : Q := elems6.foldl (fun m k => qmin m (qmin (tjSw s n k) (tjD s n k))) (tRefOf s n)
def hottest (s : State) (n : Fin 4) : Q := elems6.foldl (fun m k => qmax m (qmax (tjSw s n k) (tjD s n k))) (qmax (tjSw s n 0) (tjD s n 0))

/-- The fractions of T_MAX and I_MAX in force, along their ramps (R361). -/
def fracNow (s : State) (n : Fin 4) : Q × Q :=
  let h := (s.axis n).th
  let x (time : Q) : Q := if time = 0 then 1 else qclamp 0 1 ((((s.clk.now - h.fracAt : Nat) : Q) / 100000000) / time)
  (h.tFrom + (h.tTo - h.tFrom) * x h.tTime, h.iFrom + (h.iTo - h.iFrom) * x h.iTime)

/-- The LT current fraction at a temperature (R365). -/
def ltFraction (s : State) (n : Fin 4) (t : Q) : Q :=
  let pt (k : Nat) : Q × Q := (thF s n (68 + 8 * k), thF s n (72 + 8 * k))
  let seg (a b : Q × Q) : Q := if b.1 = a.1 then b.2 else a.2 + (b.2 - a.2) * (t - a.1) / (b.1 - a.1)
  if t ≤ (pt 0).1 then (pt 0).2 else if t < (pt 1).1 then seg (pt 0) (pt 1) else if t < (pt 2).1 then seg (pt 1) (pt 2)
  else if t < (pt 3).1 then seg (pt 2) (pt 3) else (pt 3).2

/-- The current fraction of R224: min(REEF_I, LT fraction) (R365); the LT fraction applies until the low temperature is withdrawn (R364). -/
def currentFraction (s : State) (n : Fin 4) : Q :=
  if (s.axis n).th.lowTemp then qmin (fracNow s n).2 (ltFraction s n (coldest s n)) else (fracNow s n).2

/-- I_LIM (R224). -/
def iLimOf (s : State) (n : Fin 4) : Q := iMaxOf s n * (if cfgHas s secThermal n.val then currentFraction s n else 1)

end Sys2Proof.Machine
end

