-- ==== Sys2Proof/Machine/FaultOps.lean ====
section
/-! DEFINITION. Driver faults (R155, R156) and the turn-offs that a level-2 latch forces (R351), which follow every command at once. -/
namespace Sys2Proof.Machine
open Sys2Proof

/-- FLT_SIDE (R156): 1 H, 2 L by the gate output high at the edge; failing that, by the switch that turned off within FLT_ATTRIB before
it; otherwise 3 UNKNOWN. Where both switches turned off within FLT_ATTRIB the rule names neither: UNKNOWN. DESIGN CHOICE (log entry
182), unsafe. -/
def fltSideOf (gateH gateL recentH recentL : Bool) : Nat :=
  if gateH && !gateL then 1 else if gateL && !gateH then 2
  else if gateH && gateL then 3
  else if recentH && !recentL then 1 else if recentL && !recentH then 2 else 3

/-- FLT_SIDE of a leg from its gate outputs now. -/
def fltSideNow (s : State) (n : Fin 4) (leg : Fin 3) : Nat :=
  let g := (s.axis n).pwm.gates[leg.val]
  let attrib := (tapsOf (cfgF s secTrip n.val 8)).toNat
  let recent (o : Option Nat) : Bool := match o with | some t => decide (tapNow s ≤ t + attrib) | none => false
  fltSideOf g.high g.low (recent g.offHigh) (recent g.offLow)

/-- A driver fault input is low (R155): its level-2 latch, FLT_SIDE, and a latched trip with DRIVER_FAULT. -/
def faultAct (s : State) (n : Fin 4) (leg : Fin 3) : State :=
  let side := fltSideNow s n leg
  let t := s.setAxis n fun a => { a with trip := { a.trip with
    fltLatch := setBit a.trip.fltLatch leg.val true, side := a.trip.side.set leg.val side } }
  raise (latchTrip t n (bitFlt leg)) evDriverFault n.val (place n.val 24 8 + place leg.val 8 8 + side)

/-- A driver fault input that is evaluated and low from cast-on step 1 on, whenever it fell, has set its latched trip (R155). -/
def settleFault1 (s : State) (n : Fin 4) (leg : Fin 3) : State :=
  if bitAt (fltLowNow s n) leg.val && !bitAt (s.axis n).trip.src (16 + leg.val) && hardwareUp s && axPresent s n then faultAct s n leg else s

def settleFaults (s : State) : State := allAxes.foldl (fun t n => if (t.axis n).trip.fltLow = 0 then t else legs3.foldl (settleFault1 · n) t) s

/-- A level-2 latch holds the outputs of a leg off. -/
def latchHolds : LegDrive → Bool
  | .latchedOff | .blocked => true
  | .released | .sto | .pattern _ | .switching | .off => false

/-- A level-2 latch forces a leg off: E_off at the current of the last sample for the switch that was on and conducted (R351). -/
def chargeForced (s : State) (n : Fin 4) (leg : Fin 3) : State :=
  if !cfgHas s secThermal n.val then s else
  let g := (s.axis n).pwm.gates[leg.val]
  let i := legAmps s n leg
  let off (el : Fin 6) : State := chargeSw s n el (switchScale s n * lossValue s n 416 (qabs i) (tjSw s n el))
  if g.high && decide (0 ≤ i) then off (elemH leg) else if g.low && decide (i < 0) then off (elemL leg) else s

/-- The legs that a level-2 latch forces off now, before their outputs follow. -/
def settleForced (s : State) : State :=
  allAxes.foldl (fun t n => legs3.foldl (fun u l =>
    if latchHolds (legDrive s n l) && !latchHolds (s.axis n).pwm.gates[l.val].drive then chargeForced u n l else u) t) s

end Sys2Proof.Machine
end

