-- ==== Sys2Proof/Machine/HalyardOps.lean ====
section
/-! DEFINITION. The Halyard (R486 to R505): the RING section, membership, receiving a frame, group shares. -/
namespace Sys2Proof.Machine
open Sys2Proof

def State.port (s : State) (p : Fin 2) : HalyardPort := s.ring.ports[p.val]
def State.setPort (s : State) (p : Fin 2) (f : HalyardPort → HalyardPort) : State := { s with ring := { s.ring with ports := vupd s.ring.ports p f } }
def State.member (s : State) (k : Nat) : RingMember := s.ring.members[k % 8]'(Nat.mod_lt _ (by decide))
def State.setMember (s : State) (k : Nat) (f : RingMember → RingMember) : State :=
  if h : k < 8 then { s with ring := { s.ring with members := vupd s.ring.members ⟨k, h⟩ f } } else s
def State.group (s : State) (g : Fin 4) : RingGroup := s.ring.groups[g.val]
def State.setGroup (s : State) (g : Fin 4) (f : RingGroup → RingGroup) : State := { s with ring := { s.ring with groups := vupd s.ring.groups g f } }

/-! ## The RING section (Tables 18.4, 18.5, 18.8) -/
def ringU (s : State) (off size : Nat) : Nat := cfgU s secRing 0 off size
def ringDevices (s : State) : Nat := ringU s 1 1
/-- RING_PERIOD in ticks of drive time. -/
def ringPeriod (s : State) : Nat := max 1 (roundHalfUp (cfgF s secRing 0 4 * 100000000)).toNat
def grpU (s : State) (g : Fin 4) (off size : Nat) : Nat := ringU s (32 + 32 * g.val + off) size
def grpF (s : State) (g : Fin 4) (off : Nat) : Q := cfgF s secRing 0 (32 + 32 * g.val + off)
/-- The axis of a group entry; none where it is unused. -/
def grpAxis (s : State) (g : Fin 4) : Option (Fin 4) :=
  if cfgRing s && cfgHas s secRing 0 && grpU s g 0 1 < 4 then some (Fin.ofNat 4 (grpU s g 0 1)) else none
/-- The group that an axis belongs to. -/
def grpOf (s : State) (n : Fin 4) : Option (Fin 4) := allAxes.find? fun g => grpAxis s g == some n
/-- PRIORITY of a UID, 0 where it is not listed (R489). -/
def ringPriority (s : State) (uid : Nat) : Nat :=
  match (List.range 8).find? fun k => ringU s (160 + 12 * k) 8 == uid && uid != 0 with
  | some k => ringU s (168 + 12 * k) 1
  | none => 0

/-! ## Membership -/

/-- The device is a ring member: master or follower. -/
def ringMember (s : State) : Bool := s.ring.role == .master || s.ring.role == .follower
/-- DIVERGENT on a ring of which it is a member (R499, log entry 46). -/
def ringDivergent (s : State) : Bool := s.ring.divergent && ringMember s
/-- A position has been heard within 3 ms (R498). -/
def heardNow (s : State) (k : Nat) : Bool := match (s.member k).heardAt with | some t => decide (s.clk.now ≤ t + 300000) | none => false
/-- Positions of the other members in step. A DIVERGENT member is one of them, only W_run leaves it out (R499): DEDUCED (log entry 275). -/
def othersInStep (s : State) : List Nat := (List.range 8).filter fun k => k != s.ring.pos && (s.member k).inStep
/-- Devices heard within 3 ms, the own one included (Table 18.6). -/
def ringSeen (s : State) : Nat := 1 + ((List.range 8).filter fun k => (k != s.ring.pos || !ringMember s) && heardNow s k).length
/-- A master is reachable: heard within 3 ms. -/
def masterHeard (s : State) : Bool := s.ring.role == .master || heardNow s s.ring.masterPos

def portUp (s : State) (p : Fin 2) : Bool := (s.port p).st == .up
def anyPortUp (s : State) : Bool := portUp s 0 || portUp s 1

/-! ## The reference of the PWM PLL (R20, R490) -/

/-- The UP port that carries SYNC nearer the master; HL0 at equal distance. -/
def nearPort (s : State) : Option (Fin 2) :=
  let at_ (p : Fin 2) : Option Nat := if portUp s p then (s.port p).syncHops else none
  match at_ 0, at_ 1 with
  | some a, some b => some (if b < a then 1 else 0)
  | some _, none => some 0
  | none, some _ => some 1
  | none, none => none

/-- A follower locks its PWM PLL to the recovered clock of that port; the master, and a device outside a ring, to XIN. -/
def lockPll (s : State) : State := { s with ring := { s.ring with pllPort := if s.ring.role == .follower then nearPort s else none } }

/-! ## Receiving a frame (R487) -/

/-- A frame of a port that is up (what is forwarded stands in `sent` by its header, its payload being the one received: log entry 242): a bad CRC is counted and raised; a frame of the own position, of seven hops, or received before is
discarded; any other is noted, forwarded where it is addressed to all devices, and taken. -/
def ringTake (s : State) (p : Fin 2) (h : FrameHead) (type : Nat) (broadcast : Bool) (f : State → State) : State :=
  if !unitPresent s (14 + p.val) || !portUp s p || bitAt s.clk.lost 6 then s
  else if !h.crcOk then
    raiseLimited (s.setPort p fun x => { x with crcErrors := satInc 16 x.crcErrors }) evHalyardFrameError p.val (14 + p.val) (place p.val 24 8)
  else if (ringMember s && h.src == s.ring.pos) || 7 ≤ h.hops || s.ring.frames.contains (h.src, h.seq) then s
  else
    let t := { s with ring := { s.ring with frames := ((h.src, h.seq) :: s.ring.frames).take 256 } }
    let other : Fin 2 := if p = 0 then 1 else 0
    let u := if broadcast && portUp t other then
        linkSend t [(other.val, type, frameBytes h.src (h.hops + 1) h.seq [])]
      else t
    f (u.setMember h.src fun m => { m with heardAt := some s.clk.now })

/-! ## Leaving (R504, R47) -/

/-- Every group axis is OFF. -/
def groupAxesOff (s : State) : Bool := allAxes.all fun g => match grpAxis s g with | some n => (s.axis n).core.st == .off | none => true

/-- LEAVE is sent, and the device is no member. -/
def ringLeaveNow (s : State) : State :=
  if !ringMember s && s.ring.role != .joining && s.ring.role != .isolated then { s with ring := { s.ring with leaving := false } } else
  let t := ringSend s 0x0C (leBytes 8 s.sec.fuses.uid)
  raiseLogged { t with ring := { t.ring with role := .none, leaving := false, tack := none, best := none, awaited := false, closed := false, pllPort := none } } evRingLeft 14 (place s.ring.pos 24 8) []

/-- A leave completes once the group axes have reached OFF. -/
def settleLeave (s : State) : State := if s.ring.leaving && groupAxesOff s then ringLeaveNow s else s

/-! ## Group shares (R494, R495) -/

/-- A fraction in force at this instant: it moves linearly over SHARE_RAMP. -/
def shareFraction (s : State) (g : Fin 4) : Q :=
  let x := s.group g
  let len := grpF s g 8
  let dt : Q := ((s.clk.now - x.fracAt : Nat) : Q) / 100000000
  if len ≤ 0 ∨ len ≤ dt then x.fracTo else x.fracFrom + (x.fracTo - x.fracFrom) * dt / len

/-- Members in step and not DIVERGENT whose group axis is in a RUN_ state, the own device included (R494, R499). WEIGHT is the same on every member (R492). -/
def runningMembers (s : State) (g : Fin 4) (n : Fin 4) : Nat :=
  ((othersInStep s).filter fun k => !(s.member k).divergent && bitAt (s.member k).run g.val).length + ofFlag (isRun (s.axis n).core.st)

/-- A ramp towards a new fraction starts at the present one. -/
def aimShare (s : State) (g : Fin 4) (goal : Q) : State :=
  if (s.group g).fracTo = goal then s else
  let f := shareFraction s g
  s.setGroup g fun x => { x with fracFrom := f, fracTo := goal, fracAt := s.clk.now }

/-- Some member in step selects ASC for the group of an axis (R496). -/
def groupAsc (s : State) (n : Fin 4) : Bool :=
  match grpOf s n with
  | some g => ringMember s && (othersInStep s).any fun k => bitAt (s.member k).asc g.val
  | none => false

/-- The own origin-trip bits: a group axis holds a latched source other than HALYARD and GROUP (R497). Held while the PWM clock stands;
once the clock monitor has reported it lost, every bit is forced to 1 (Table 1.4). -/
def originTrips (s : State) : Nat :=
  if bitAt s.clk.declared 2 then 15 else
  (allAxes.map fun g => match grpAxis s g with
    | some n => if setBit (setBit (s.axis n).trip.src bitHalyard false) bitGroup false != 0 then place 1 g.val 1 else 0
    | none => 0).sum

/-- The TRIP ordered set of the device, at every change of its bits and every 1 µs (Table 18.1, R497): its position and its origin-trip bits. -/
def sendTrip (s : State) : State :=
  if !ringMember s then s else linkSend s ((upPorts s).map fun p => (p, 0, [BitVec.ofNat 8 (32 * s.ring.pos + originTrips s)]))

/-- The ring trip bit of a group: another device's origin bit has been set within 5 µs (R497); inactive without the HALYARD clock (Table 1.4). -/
def ringTripBit (s : State) (g : Fin 4) : Bool :=
  !bitAt s.clk.lost 6 && (List.range 8).any fun k => k != s.ring.pos && (s.member k).inStep &&
    (match (s.member k).tripAt[g.val] with | some t => decide (s.clk.now < t + 500) | none => false)

/-! ## DIVERGENT (R498, R499) -/

/-- The device marks itself DIVERGENT: every axis that is not a group axis performs SS1; `stop` is the SS1 request. -/
def markDivergent (s : State) (stop : State → Fin 4 → State) : State :=
  let t := raise { s with ring := { s.ring with divergent := true } } evDivergent 14 (place s.ring.pos 24 8)
  t.forAxes (fun u n => axPresent u n && (grpOf u n).isNone) stop

end Sys2Proof.Machine
end

