-- ==== Sys2Proof/Machine/Ram.lean ====
section
/-! DEFINITION. A byte memory as a list of cells in one canonical form: addresses strictly rising and no cell holding 0, which
is what an unlisted address reads as. The mailbox RAM (R69) and the CAN message RAMs (R463) are held so. -/
namespace Sys2Proof.Machine
open Sys2Proof

/-- The byte at an address. -/
def cellRead : List Host.Cell → Nat → Byte
  | [], _ => 0
  | (a, b) :: m, x => if a = x then b else cellRead m x

/-- A byte stored at an address; storing 0 removes the cell. -/
def cellWrite : List Host.Cell → Nat → Byte → List Host.Cell
  | [], x, v => if v = 0 then [] else [(x, v)]
  | (a, b) :: m, x, v =>
    if a = x then (if v = 0 then m else (x, v) :: m)
    else if x < a then (if v = 0 then (a, b) :: m else (x, v) :: (a, b) :: m)
    else (a, b) :: cellWrite m x v

/-- Every address of the memory lies above the bound, in rising order, with no byte 0. -/
def cellsAbove : Option Nat → List Host.Cell → Bool
  | _, [] => true
  | lo, (a, b) :: m => (match lo with | none => true | some l => decide (l < a)) && b != 0 && cellsAbove (some a) m

/-- The canonical form. -/
def memWf (m : List Host.Cell) : Bool := cellsAbove none m

/-- Bytes stored from an address upwards. -/
def cellsWrite (m : List Host.Cell) (x : Nat) : List Byte → List Host.Cell
  | [] => m
  | b :: bs => cellsWrite (cellWrite m x b) (x + 1) bs

/-- `n` bytes from an address upwards. -/
def cellsRead (m : List Host.Cell) (x n : Nat) : List Byte := (List.range n).map fun i => cellRead m (x + i)

end Sys2Proof.Machine
end

