-- ==== Sys2Proof/Machine/Mailbox.lean ====
section
/-! DEFINITION. The mailbox layer: frames and their checks (R70 to R75, R590), the order in which commands start (R35, R73),
the answers, and the modes each command is accepted in (R82, Table 3.18). -/
namespace Sys2Proof.Machine
open Sys2Proof

/-! ## MODE_REFUSED reasons (Table 3.17) -/
def rsNotSeated : Nat := 0x01
def rsStoActive : Nat := 0x02
def rsTripLatched : Nat := 0x03
def rsDivergent : Nat := 0x04
def rsRunInhibited : Nat := 0x05
def rsTempTooLow : Nat := 0x06
def rsBackstayNotArmed : Nat := 0x07
def rsTackPending : Nat := 0x08
def rsSafeLatched : Nat := 0x09
def rsRotating : Nat := 0x0A
def rsLogExport : Nat := 0x0B
def rsBindOff : Nat := 0x0C
def rsRunning : Nat := 0x0D
def rsStoNotActive : Nat := 0x0E
def rsNotInMode : Nat := 0x0F
def rsPowerCycle : Nat := 0x10
def rsAxisNotSettled : Nat := 0x11
def rsTakeover : Nat := 0x12
def rsLocked : Nat := 0x13
def rsBadTransition : Nat := 0x14

/-! ## The catalogue (Tables 3.18 and 3.20) -/

/-- A row of Table 3.18: code, the modes B I R S V, and whether the command is long (R73). -/
structure CmdRow where
  code : Nat
  b : Bool
  i : Bool
  r : Bool
  s : Bool
  v : Bool
  long : Bool
  deriving DecidableEq, Repr

def cmdRowsA : List CmdRow :=
  [⟨0x0101, true, true, true, true, true, false⟩, ⟨0x0102, true, true, true, true, true, false⟩,
   ⟨0x0103, true, true, false, true, true, false⟩, ⟨0x0104, false, true, false, false, true, false⟩,
   ⟨0x0105, false, true, false, false, false, false⟩, ⟨0x0106, true, true, true, true, true, false⟩,
   ⟨0x0107, true, true, true, true, true, false⟩, ⟨0x0108, false, true, true, true, true, false⟩,
   ⟨0x0201, true, true, false, true, true, true⟩, ⟨0x0202, true, true, false, true, true, false⟩,
   ⟨0x0203, true, true, false, true, true, true⟩, ⟨0x0204, true, true, true, true, true, false⟩,
   ⟨0x0205, false, true, true, false, false, true⟩, ⟨0x0206, false, true, true, false, false, true⟩,
   ⟨0x0207, false, true, true, true, false, false⟩, ⟨0x0301, false, true, true, false, false, true⟩,
   ⟨0x0302, false, false, true, false, false, false⟩, ⟨0x0303, false, false, true, false, false, false⟩,
   ⟨0x0304, false, false, true, false, false, false⟩, ⟨0x0305, false, false, true, false, false, false⟩,
   ⟨0x0306, false, false, true, false, false, false⟩, ⟨0x0307, false, true, true, true, true, false⟩,
   ⟨0x0308, false, true, true, false, false, false⟩]
def cmdRowsB : List CmdRow :=
  [⟨0x0380, false, true, true, false, false, false⟩, ⟨0x0381, false, true, true, true, false, false⟩,
   ⟨0x0382, false, true, true, false, false, false⟩, ⟨0x0383, false, true, true, true, true, false⟩,
   ⟨0x0401, false, false, false, true, false, false⟩, ⟨0x0402, false, true, true, true, false, false⟩,
   ⟨0x0403, true, true, true, true, true, false⟩, ⟨0x0404, false, true, true, true, true, false⟩,
   ⟨0x0405, false, true, true, true, false, false⟩, ⟨0x0406, false, true, false, true, false, false⟩,
   ⟨0x0501, true, true, true, true, true, false⟩, ⟨0x0502, true, true, true, true, true, false⟩,
   ⟨0x0503, false, true, true, true, true, false⟩, ⟨0x0504, true, true, true, true, true, false⟩,
   ⟨0x0505, true, true, true, true, true, false⟩, ⟨0x0601, false, true, true, true, true, false⟩,
   ⟨0x0602, false, true, true, true, true, false⟩, ⟨0x0603, false, true, false, false, true, false⟩,
   ⟨0x0701, false, true, true, true, true, false⟩, ⟨0x0702, false, true, false, false, false, true⟩,
   ⟨0x0703, false, true, true, false, false, false⟩]
def cmdRowsC : List CmdRow :=
  [⟨0x0801, true, true, true, true, true, false⟩, ⟨0x0802, true, true, true, true, true, false⟩,
   ⟨0x0803, false, false, false, false, true, false⟩, ⟨0x0804, false, true, false, true, true, false⟩,
   ⟨0x0805, false, true, true, false, true, false⟩, ⟨0x0901, true, true, true, true, true, false⟩,
   ⟨0x0902, false, true, false, false, true, false⟩, ⟨0x0903, false, true, false, true, false, false⟩,
   ⟨0x0904, false, true, false, false, false, false⟩, ⟨0x0905, true, true, true, true, true, false⟩,
   ⟨0x01F0, false, false, false, false, false, false⟩, ⟨0x01F1, false, false, false, false, false, false⟩,
   ⟨0x01F2, false, false, false, false, false, false⟩]
def cmdRows : List CmdRow := cmdRowsA ++ cmdRowsB ++ cmdRowsC

def cmdRow (code : Nat) : Option CmdRow := cmdRows.find? fun r => r.code == code

/-- The command group (R73): the prefix of the command's name. AUX has its own prefix in the range of AXIS. -/
def cmdGroup (code : Nat) : Nat := if 0x0380 ≤ code ∧ code < 0x0400 then 0x38 else code / 256

/-- AXIS.STOP and AUX.STOP start at once (R73). -/
def cmdExempt (code : Nat) : Bool := code == 0x0302 || code == 0x0381

/-- Requests that change the major mode, handled one at a time (R35). -/
def cmdModeRequest (code : Nat) : Bool := [0x0103, 0x0104, 0x0105, 0x0301, 0x0401].contains code

/-! ## Service -/

/-- The boot ROM serves slot MB0 at a NO_VALID_FIRMWARE halt (R83); in BLANK it serves test alone, and in SCRAPPED nothing (Table 19.1). -/
def romServes (s : State) : Bool := s.boot.halt && s.boot.haltCode == evNoValidFirmware && s.sec.life != .blank && s.sec.life != .scrapped

/-- The halts at which firmware serves mailboxes (Table 2.5). -/
def haltServed (s : State) : Bool := s.boot.halt && (s.boot.haltCode == evNoValidConfig || s.boot.haltCode == evPlacementInfeasible)

/-- Mailboxes are served: cast-on has reached IDLE, or a halt serves them (R69). A lost CORE clock stops both pairs (R19). -/
def mailServed (s : State) : Bool :=
  !s.power.inReset && s.mode != .sleep && hostServed s && ((s.boot.phase == 0x0F && !s.boot.halt) || haltServed s || romServes s)

/-- ROM commands (R83). -/
def romCommand (code : Nat) : Bool := [0x0101, 0x0102, 0x0103, 0x01F0, 0x01F1, 0x01F2].contains code

/-! ## Slots (R66, R67) -/

/-- A slot of the Host SPI mailboxes; the others belong to the CAN transport. -/
def spiSlot (slot : Nat) : Bool := decide (slot < 16)
def slotProto (slot : Nat) : Nat := if slot < 8 ∨ slot = 16 then 1 else 2
def slotAddr (slot : Nat) : Nat := 0x1000 + slot * 0x200

def slotBusy (s : State) (slot : Nat) : Bool := s.host.jobs.any fun j => j.slot == slot
def slotFree (s : State) (slot : Nat) : Bool := !s.host.posted.contains slot && !bitAt s.host.done slot && !slotBusy s slot

/-- Payload limits of requests and of responses (R75). -/
def requestLimit (proto : Nat) : Nat := if proto = 1 then 56 else 496
def responseLimit (proto : Nat) : Nat := if proto = 1 then 52 else 496

/-! ## Answers -/

/-- The response frame of a request (Tables 3.14, 3.15). -/
def responseFrame (j : Job) (status : Nat) (payload : List Byte) : List Byte :=
  if j.proto = 1 then
    let f := leBytes 2 j.code ++ [BitVec.ofNat 8 j.seq, BitVec.ofNat 8 payload.length] ++ leBytes 2 status ++ [0, 0] ++ sliceZ payload 0 52 ++ [0, 0]
    f ++ leBytes 2 (crc16 f).toNat
  else
    let f := [0x02#8, BitVec.ofNat 8 j.tag] ++ leBytes 2 j.code ++ leBytes 2 payload.length ++ leBytes 2 status ++ leBytes 2 j.seq ++ leBytes 2 j.flags ++ payload
    f ++ leBytes 4 (crc32c f).toNat

/-- The key under which the last completed request is stored (R74). -/
def answerKey (j : Job) : Nat := if j.proto = 1 then j.slot else (if j.slot < 16 then 256 else 512) + j.tag

/-! ## Responses over CAN (R77 to R79) -/

def canU (s : State) (n : Fin 4) (off size : Nat) : Nat := cfgU s secCan n.val off size
/-- FLAGS (Table 17.10): 0 FD, 1 XL, 2 BRS, 3 XL_TMS, 4 MONITOR, 5 HOST_RECOVERY, 6 TS_BITRATE. -/
def canFlag (s : State) (n : Fin 4) (b : Nat) : Bool := bitAt (canU s n 0 1) b
/-- XL is enabled, on a variant that has it (R45). -/
def canXl (s : State) (n : Fin 4) : Bool := unitPresent s 13 && canFlag s n 1

/-- The timestamp counter: drive time / 100 without TS_BITRATE; with it, bit times that no rule ties to another clock: a free value
(R472). -/
def canStamp (s : State) (n : Fin 4) : Nat × State :=
  if canFlag s n 6 then let (v, t) := drawNat s; (v % 2 ^ 32, t) else (s.clk.drive.toNat / 100 % 2 ^ 32, s)

def hostU (s : State) (off size : Nat) : Nat := cfgU s secHost 0 off size
/-- The controller assigned to the host; none for 0xFF. -/
def hostCan (s : State) : Option (Fin 4) := if cfgHas s secHost 0 && hostU s 2 1 < 4 then some (Fin.ofNat 4 (hostU s 2 1)) else none

/-- A data field padded with 0x00 to the next CAN FD size. -/
def padFd (data : List Byte) : List Byte :=
  if data.length ≤ 8 then data else sliceZ data 0 (([12, 16, 20, 24, 32, 48].find? fun k => decide (data.length ≤ k)).getD 64)

/-- The segments of an MBP-2 frame from index `k` on: 62 bytes each, the last with LAST; `fuel` bounds them. -/
def segmentsOf (tag : Byte) : Nat → Nat → List Byte → List (List Byte)
  | 0, _, _ => []
  | fuel + 1, k, rest =>
    if rest.length ≤ 62 then [padFd ([BitVec.ofNat 8 (0xC0 + k), tag] ++ rest)]
    else ([BitVec.ofNat 8 (0x80 + k), tag] ++ rest.take 62) :: segmentsOf tag fuel (k + 1) (rest.drop 62)

/-- The data fields that carry a response: MBP-1 as 64 bytes, MBP-2 whole up to 64 bytes or by CAN XL, in segments otherwise. -/
def hostFields (xl : Bool) (proto : Nat) (frame : List Byte) : List (List Byte) :=
  if proto = 1 then [frame]
  else if frame.length ≤ 64 then [padFd frame]
  else if xl then [frame]
  else segmentsOf (frame.getD 1 0) 9 0 frame

/-- A response is queued at the host's controller on the response identifier of its protocol; ENQ starts its lifetime (R79). -/
def sendHost (s : State) (proto : Nat) (frame : List Byte) : State :=
  match hostCan s with
  | none => s
  | some n =>
    let id := hostU s (if proto = 1 then 8 else 16) 4
    let wide := canXl s n && proto == 2 && decide (64 < frame.length)
    let (stamp, t) := canStamp s n
    let out := (hostFields wide proto frame).map fun d =>
      ({ extended := bitAt id 31, ident := bitsOf id 0 29, xl := wide, data := d, enq := stamp, due := false } : HostTx)
    { t with host := { t.host with canOut := t.host.canOut ++ out } }

/-- A frame becomes the response of a slot: written over the slot with DONE set, or sent by the CAN transport (R67, R79). -/
def deliver (s : State) (slot : Nat) (frame : List Byte) : State :=
  if spiSlot slot then
    { s with host := { s.host with
        ram := cellsWrite s.host.ram (slotAddr slot) frame, done := setBit s.host.done slot true
        jobs := s.host.jobs.filter fun j => j.slot != slot } }
  else
    let t := sendHost s (slotProto slot) frame
    { t with host := { t.host with jobs := t.host.jobs.filter fun j => j.slot != slot } }

/-- A command completes: its response is stored for R74 and delivered. -/
def respond (s : State) (j : Job) (status : Nat) (payload : List Byte) : State :=
  let f := responseFrame j status payload
  let st : Answered := { key := answerKey j, code := j.code, seq := j.seq, crc := j.crc, response := f }
  deliver { s with host := { s.host with answered := st :: s.host.answered.filter fun a => a.key != st.key } } j.slot f

/-- Success with a payload. A response beyond the limit is FRAME_TOO_LONG, and the command has no effect (R75): `s` is
the state before the command, `t` after it. -/
def succeed (s t : State) (j : Job) (payload : List Byte) : State :=
  if responseLimit j.proto < payload.length then respond s j evFrameTooLong [] else respond t j 0 payload

def refuse (s : State) (j : Job) (reason : Nat) : State := respond s j evModeRefused (leBytes 2 reason)
def badParameter (s : State) (j : Job) : State := respond s j evBadParameter []
def absent (s : State) (j : Job) (unit : Nat) : State := respond s j evUnitAbsent (leBytes 2 unit)

/-- AUTH_REQUIRED answers and is logged: it has a severity (R581, Table 3.22). -/
def authRequired (s : State) (j : Job) : State := respond (raise s evAuthRequired 0xFF 0) j evAuthRequired []

/-! ## Intake: checks 1 to 6 of R590 -/

/-- The request of an MBP-1 slot. -/
def parse1 (slot : Nat) (f : List Byte) (now : Nat) : Job :=
  { slot := slot, proto := 1, code := fieldU f 0 2, seq := fieldU f 2 1, tag := 0, flags := 0, crc := fieldU f 62 2
    payload := slice f 4 (fieldU f 3 1), started := false, since := now }

/-- The request of an MBP-2 slot or CAN tag. -/
def parse2 (slot : Nat) (f : List Byte) (now : Nat) : Job :=
  { slot := slot, proto := 2, code := fieldU f 2 2, seq := fieldU f 8 2, tag := fieldU f 1 1, flags := fieldU f 10 2
    crc := fieldU f (12 + fieldU f 4 2) 4, payload := slice f 12 (fieldU f 4 2), started := false, since := now }

/-- The length check (check 1): LEN within the limit and, on MBP-2, within the frame received. -/
def lengthOk (proto : Nat) (f : List Byte) : Bool :=
  if proto = 1 then decide (fieldU f 3 1 ≤ 56) else decide (fieldU f 4 2 ≤ 496) && decide (12 + fieldU f 4 2 + 4 ≤ f.length)

/-- The CRC check (check 2). -/
def crcOk (proto : Nat) (f : List Byte) : Bool :=
  if proto = 1 then fieldU f 62 2 == (crc16 (f.take 62)).toNat
  else fieldU f (12 + fieldU f 4 2) 4 == (crc32c (f.take (12 + fieldU f 4 2))).toNat

/-- An answer that is not a completed request: it is delivered and not stored (R70, R72). -/
def reject (s : State) (j : Job) (status : Nat) : State := deliver s j.slot (responseFrame j status [])

/-- A request of which the stored response is returned unchanged (R74). -/
def repeated (s : State) (j : Job) : Option Answered :=
  s.host.answered.find? fun a => a.key == answerKey j && a.seq == j.seq && a.code == j.code && a.crc == j.crc

/-- Commands whose request exceeds the MBP-1 payload limit (R75). -/
def needsMbp2 (code : Nat) : Bool := code == 0x0902 || code == 0x0903 || code == 0x0904

/-- A frame is taken from its slot and checked in the order of R590, up to the command code. A frame that passes becomes a
command that waits to start. SEC.UNLOCK, SEC.CLEAR_LOCK and SEC.CERT on MBP-1 are answered with BAD_LENGTH whatever their LEN (R75), and no rule
gives that answer a place in the order: it comes after the code. DESIGN CHOICE (log entry 206), unsafe. -/
def intake (s : State) (slot : Nat) (f : List Byte) : State :=
  let proto := slotProto slot
  let j := if proto = 1 then parse1 slot f s.clk.now else parse2 slot f s.clk.now
  if !lengthOk proto f then reject s j evBadLength
  else if !crcOk proto f then reject s j evCrcError
  else if proto = 2 ∧ fieldU f 0 1 ≠ 2 then reject s j evUnknownCommand
  else if proto = 2 ∧ (s.host.jobs.any fun k => k.proto == 2 && k.tag == j.tag && (spiSlot k.slot == spiSlot slot)) then reject s j evTagInUse
  else match repeated s j with
  | some a => deliver s slot a.response
  | none =>
    if (cmdRow j.code).isNone ∨ (romServes s ∧ !romCommand j.code) then respond s j evUnknownCommand []
    else if proto = 1 ∧ needsMbp2 j.code then respond s j evBadLength []
    else { s with host := { s.host with jobs := s.host.jobs ++ [j] } }

/-- The 512 bytes of a slot. -/
def slotBytes (s : State) (slot : Nat) : List Byte := cellsRead s.host.ram (slotAddr slot) 512

/-- Firmware takes every posted slot in ring order; the boot ROM takes MB0 alone (R68, R69, R83). -/
def serve (s : State) : State :=
  if !mailServed s then s else
  let taken := s.host.posted.filter fun n => !romServes s || n == 0
  let t := { s with host := { s.host with posted := s.host.posted.filter fun n => !taken.contains n } }
  taken.foldl (fun u n => intake u n (slotBytes u n)) t

/-! ## The order of starts (R35, R73) -/

/-- A command may start, given the commands rung before it that are not complete. -/
def mayStart (earlier : List Job) (j : Job) : Bool :=
  !j.started &&
  (!bitAt j.flags 0 || earlier.isEmpty) &&
  (cmdExempt j.code || !(earlier.any fun e => cmdGroup e.code == cmdGroup j.code)) &&
  (!cmdModeRequest j.code || !(earlier.any fun e => cmdModeRequest e.code))

/-- The command that firmware starts next: the first in ring order that may start. -/
def nextStart : List Job → List Job → Option Job
  | _, [] => none
  | earlier, j :: js => if mayStart earlier j then some j else nextStart (earlier ++ [j]) js

/-- The command that starts next; none while the pair that serves the mailboxes does not work (R19, R377, R389), and none once a reset is due: the reset follows the answer that announced it, and nothing that starts in
between could take the device where Table 2.1 has no way to BOOT (R30). DEDUCED (log entry 193). -/
def nextJob (s : State) : Option Job := if s.power.resetDue.isSome || !hostServed s then none else nextStart [] s.host.jobs

/-- The job of a slot is marked as started: a long command runs in the background. -/
def markStarted (s : State) (slot : Nat) : State :=
  { s with host := { s.host with jobs := s.host.jobs.map fun j => if j.slot = slot then { j with started := true } else j } }

/-- The running command of a slot. -/
def runningJob (s : State) (slot : Nat) : Option Job := s.host.jobs.find? fun j => j.slot == slot && j.started

/-! ## Checks 7 and 8 of R590 -/

/-- Payload fields of a request; bytes beyond its LEN are not there and read 0. -/
def Job.u (j : Job) (off n : Nat) : Nat := fieldU j.payload off n
def Job.i (j : Job) (off n : Nat) : Int := fieldI j.payload off n
/-- A binary32 field; none where it is not a number. -/
def Job.f (j : Job) (off : Nat) : Option Q := f32Value (fieldU j.payload off 4)

/-- The unit that a DIAG map belongs to (R147, R173, R235, R298, R347, R369, R436, R457, R484, R507). -/
def mapUnit (map : Nat) : Option Nat :=
  if map = 0xA4 then some 17
  else if map = 0xE0 then some 16
  else if map = 0x100 then some 14
  else if [0x30, 0x40, 0x60, 0x80, 0xA0, 0xB0, 0xD0].contains (map / 4 * 4) then some (map % 4)
  else if map / 4 * 4 = 0xF0 then some (8 + map % 4)
  else none

/-- The unit that a command addresses and that can be absent (R2, R63); none where it addresses none. -/
def unitOf (j : Job) : Option Nat :=
  if (0x0301 ≤ j.code ∧ j.code ≤ 0x0308) ∨ j.code = 0x0402 ∨ j.code = 0x0406 ∨ j.code = 0x0505 then
    (if j.u 0 1 < 4 then some (j.u 0 1) else none)
  else if 0x0380 ≤ j.code ∧ j.code ≤ 0x0383 then some 17
  else if j.code = 0x0404 ∨ j.code = 0x0405 then some 16
  else if 0x0601 ≤ j.code ∧ j.code ≤ 0x0603 then (if j.u 0 1 < 4 then some (8 + j.u 0 1) else none)
  else if 0x0701 ≤ j.code ∧ j.code ≤ 0x0703 then some 14
  else if j.code = 0x0802 ∨ j.code = 0x0803 then mapUnit (j.u 0 2)
  else none

/-- LOG commands that read (R47, Table 2.5). -/
def logRead (code : Nat) : Bool := [0x0501, 0x0502, 0x0504, 0x0505].contains code

/-- The groups a NO_VALID_CONFIG or PLACEMENT_INFEASIBLE halt serves: SYS, CFG, DIAG, LOG read and SEC (Table 2.5). -/
def haltGroup (code : Nat) : Bool := [1, 2, 8, 9].contains (code / 256) || logRead code

/-- The life-cycle states in which SERVICE can be entered (R34). -/
def serviceLife (l : Life) : Bool := l == .development || l == .production || l == .fieldReturn

/-- Commands that Pair B serves after a failure of Pair A (R377). -/
def pairBServes (code : Nat) : Bool := [0x0101, 0x0102, 0x0103, 0x0106, 0x0107, 0x0801, 0x0802, 0x0905].contains code || logRead code

/-- The reason for which a command is not accepted in the present mode (R47, R82, R377); none where it is accepted. -/
def modeReason (s : State) (j : Job) : Option Nat :=
  match cmdRow j.code with
  | none => some rsNotInMode
  | some r =>
    if romServes s then none
    else if s.power.bindOff ∧ j.code ≠ 0x0101 ∧ !logRead j.code then some rsBindOff
    else if s.lock.pairAFailed ∧ !pairBServes j.code then some rsPowerCycle
    else
      let ok := match s.mode with
        | .boot => r.b && haltServed s && haltGroup j.code
        | .idle => r.i
        | .run => r.r
        | .safe => r.s
        | .service => r.v
        | .sleep => false
      if ok then none else if j.code = 0x0103 ∧ s.mode = .run then some rsRunning else some rsNotInMode

/-- Checks 7 and 8, then the command's own checks and effect. -/
def gate (s : State) (j : Job) (body : State → Job → State) : State :=
  match unitOf j with
  | some u => if unitPresent s u then (match modeReason s j with | some r => refuse s j r | none => body s j) else absent s j u
  | none => match modeReason s j with | some r => refuse s j r | none => body s j

end Sys2Proof.Machine
end

