-- ==== Sys2Proof/Machine/ProfileOps.lean ====
section
/-! DEFINITION. The profile of an axis: followers, the entry into a run state, moves that are held (R321 to R333). -/
namespace Sys2Proof.Machine
open Sys2Proof

/-! ## Fields of the PROFILE section (Table 12.3) -/
def profU (s : State) (n : Fin 4) (off size : Nat) : Nat := cfgU s secProfile n.val off size
def profF (s : State) (n : Fin 4) (off : Nat) : Q := cfgF s secProfile n.val off
def tqShape (s : State) (n : Fin 4) : Bool := cfgHas s secProfile n.val && bitAt (profU s n 0 1) 0
def accFf (s : State) (n : Fin 4) : Bool := bitAt (profU s n 0 1) 1

def State.setProf (s : State) (n : Fin 4) (f : Profile → Profile) : State := s.setAxis n fun a => { a with prof := f a.prof }

/-- DIV of the PROFILE context of an axis (kind 8 of Table 11.1). -/
def profileDiv (s : State) (n : Fin 4) : Nat :=
  let e := (List.range 128).find? fun k => cfgU s secContexts 0 (48 + 16 * k) 1 == 8 && cfgU s secContexts 0 (49 + 16 * k) 1 == n.val
  match e with | some k => max 1 (cfgU s secContexts 0 (51 + 16 * k) 1) | none => 1

/-- The profile period (R321). -/
def tpOf (s : State) (n : Fin 4) : Q := (profileDiv s n : Q) * ((s.axis n).pwm.active.period : Q) / 400000000

/-- The shaft position of the primary interface, in radians (R325), from a count. -/
def shaftOf (s : State) (i : Fin 4) (p : Int) : Q := (p : Q) * twoPi / (cpr s i : Q)
def shaftNow (s : State) (n : Fin 4) : Q := match ifcOf s n 0 with | some i => shaftOf s i (extP s i) | none => 0

/-- The jerk-limited follower (R323): value and rate after one period. -/
def follower (r d src lim j tp : Q) : Q × Q :=
  let e := src - r
  let want := qsign e * qmin lim (Config.sqrt (2 * j * qabs e))
  let d' := d + qlimit (j * tp) (want - d)
  if qabs e ≤ qabs d' * tp ∧ qabs d' ≤ j * tp then (src, 0) else (r + d' * tp, d')

/-- A move in progress becomes a held move as the axis leaves RUN_POSITION (R331). -/
def heldOf (p : Profile) : Profile :=
  if p.moving then { p with moving := false, segs := [], held := p.target, latched := none } else { p with segs := [] }
def holdMove (s : State) (n : Fin 4) : State := s.setProf n heldOf

/-- The axis enters a run state (R324, R325, R411): from CATCH at the speed found, from another run state with the present
torque reference. A move in progress is held, and what is latched of a held move stands (R331). SLS counts as becoming active at this instant. -/
def enterRun (s : State) (n : Fin 4) (st : AxState) (fromCatch : Bool) : State :=
  let pos := shaftNow s n
  let w := if fromCatch then (s.axis n).catch_.found else speedOf s n
  s.setAxis n fun a => { a with
    core := { a.core with st := st, nextRun := none }
    prof := { heldOf a.prof with
      p := pos, v := 0, a := 0, segs := [], target := none, moving := false, replan := false, settleSince := none
      xw := if fromCatch then 0 else a.ctl.tRef, wRef := w, aRef := 0, tq := a.ctl.tRef, tqRate := 0
      torque := a.ctl.tRef, sumW := 0, nW := 0, wm := w }
    saf := { a.saf with slsWas := false, slsBraking := false, slsOver := none } }

/-- A remaining distance in counts as turns and a 16-bit angle. -/
def remainTurns (c : Nat) (d : Int) : Int := d / (c : Int)
def remainAngle (c : Nat) (d : Int) : Nat := (d % (c : Int)).toNat * 65536 / c

/-- A stop of kind 0 takes the axis to STOPPING (R330): along the follower in RUN_SPEED and RUN_POSITION, along the torque ramp
otherwise; a recapture that runs holds it (R285). -/
def rampStop (s : State) (n : Fin 4) : State :=
  let a := s.axis n
  if a.obs.inUse && a.obs.st == .recapturing then s.setAxis n fun a => { a with obs := { a.obs with heldStop := max 1 a.obs.heldStop } }
  else
    let follow := cfgHas s secProfile n.val && a.core.st != .runTorque
    (enterStopping (holdMove s n) n false).setAxis n fun b => { b with saf := { b.saf with stopFollow := follow } }

/-- The axis has reached OFF: the remaining distance of a held move is latched, with MOVE_HELD (R331, R348). -/
def latchHeld (s : State) (n : Fin 4) : State :=
  match (s.axis n).prof.held, (s.axis n).prof.latched, ifcOf s n 0 with
  | some t, none, some i =>
    let d := t - extP s i
    raiseLogged (s.setProf n fun p => { p with latched := some d }) evMoveHeld n.val (place n.val 24 8 + remainAngle (cpr s i) d)
      (leBytes 4 (unsignedOf 32 (remainTurns (cpr s i) d)))
  | _, _, _ => s

/-- A held move is discarded, with MOVE_DISCARDED (R332). -/
def discardMove (s : State) (n : Fin 4) : State :=
  if (s.axis n).prof.held.isSome then
    raiseAxis (s.setAxis n fun a => { a with prof := { a.prof with held := none, latched := none } }) evMoveDiscarded n 0
  else s

/-- The axis has reached OFF: its failed interfaces are re-armed, which ends the reference of an incremental one and with it a
held move (R262, R332). -/
def rearmAxis (s : State) (n : Fin 4) : State :=
  s.forAxes (fun t i => posMode t i != 0 && posAxis t i == n && (t.ifc i).st == .failed) fun t i =>
    let u := rearmSource t i
    if (t.ifc i).referenced && !(u.ifc i).referenced && posU t i 1 1 == 0 then discardMove u n else u

/-- A run-time claim of AXIS.REFERENCE ends as its axis leaves its run state (Table 4.13). -/
def releaseReference (s : State) (n : Fin 4) : State :=
  { s with cfg := { s.cfg with claims := s.cfg.claims.filter fun c => !(c.function == 0x0F && c.owner == n.val) } }

end Sys2Proof.Machine
end

