-- ==== Sys2Proof/Machine/StoOps.lean ====
section
/-! DEFINITION. What engages Safe Torque Off and what it does (R166 to R170), and the safe outputs SO0 and SO1. -/
namespace Sys2Proof.Machine
open Sys2Proof

/-- SO0 and SO1, the gate-driver supplies GDEN_A and GDEN_B, switched together (R166, R168). -/
def setGden (s : State) (on : Bool) : State :=
  { s with
    so := { s.so with on := (s.so.on.set 0 (on && !s.so.failed[0])).set 1 (on && !s.so.failed[1]) }
    sto := { s.sto with gdenWaits := false } }

/-- The outputs may be on: cast-on is over, and the device neither sleeps nor has halted (R42, R44). -/
def outputsUp (s : State) : Bool := s.mode == .idle || s.mode == .run || s.mode == .safe || s.mode == .service

/-- GDEN_A and GDEN_B are to be on: now, or once the readback of both shows off (R168). -/
def askGden (s : State) : State :=
  if stoActive s || !outputsUp s then s
  else if s.so.fb[0] || s.so.fb[1] then { s with sto := { s.sto with gdenWaits := true } }
  else setGden s true

/-- The auxiliary outputs and the brakes act with STO through their own chapters: SBC_WITH_STO switches the brake outputs off on
the path that removes GDEN (R414). -/
def stoBrakes (s : State) : State :=
  if bitAt (cfgU s secSafety 0 0 1) 2 then s.forAxes axPresent brakeOff else s

def stoSourceCode : StoSource → Nat
  | .chA => 0 | .chB => 1 | .internal => 2
def stoBit : StoSource → Nat
  | .chA => bitStoA | .chB => bitStoB | .internal => bitStoInt

/-- The tick from which the channels differ (R169). -/
def stoSplit (old s : State) : State :=
  if s.sto.aLow != s.sto.bLow && old.sto.aLow == old.sto.bLow then { s with sto := { s.sto with differAt := s.clk.now } } else s

/-- A source engages STO (R166, R167, R170): level-1 off and GDEN removed; with an axis not OFF, a latched trip on every
present axis, SAFE, and FREEWHEEL reported for every axis. -/
def stoEngage (s : State) (src : StoSource) : State :=
  let t := stoSplit s { s with sto := match src with
    | .chA => { s.sto with aLow := true, aQual := false, qualifying := false, bothLow := s.sto.bothLow || s.sto.bLow }
    | .chB => { s.sto with bLow := true, bQual := false, qualifying := false, bothLow := s.sto.bothLow || s.sto.aLow }
    | .internal => { s.sto with intSet := true } }
  let u := auxOff (stoBrakes (setGden t false))
  let v := if anyAxis s fun n => (s.axis n).core.st != .off then freewheelAll (latchSafe (tripAll u (stoBit src))) else u
  raise v evStoEngaged 0xFF (place 0xFF 24 8 + stoSourceCode src)

/-- Something still sets STO_INT: a safe function, SAFE_IN_FAULT, or a failed gate-driver supply output (R441, R445, R453). -/
def stoIntHeld (s : State) : Bool := s.si.stoBy != 0 || s.si.fault || s.so.failed[0] || s.so.failed[1]

/-- STO_INT follows what sets it (R446): it engages at the first, and at the last withdrawal GDEN returns under R168. -/
def settleStoInt (s : State) : State :=
  if stoIntHeld s && !s.sto.intSet then stoEngage s .internal
  else if !stoIntHeld s && s.sto.intSet then
    askGden { s with sto := { s.sto with intSet := false } }
  else s

end Sys2Proof.Machine
end

