-- ==== Sys2Proof/Machine/SafeInOps.lean ====
section
/-! DEFINITION. The safe-input functions (R443 to R448): their state from the filtered inputs, and the results they request. -/
namespace Sys2Proof.Machine
open Sys2Proof

def allFns : List (Fin 8) := [0, 1, 2, 3, 4, 5, 6, 7]

/-! ## Fields of SAFE_IN (Tables 16.3, 16.4) -/
def siU (s : State) (f : Fin 8) (off size : Nat) : Nat := cfgU s secSafeIn 0 (32 + 16 * f.val + off) size
def siKind (s : State) (f : Fin 8) : Nat := if unitPresent s 16 then siU s f 0 1 else 0
def siFlag (s : State) (f : Fin 8) (b : Nat) : Bool := bitAt (siU s f 3 1) b
def siAxis (s : State) (f : Fin 8) (n : Fin 4) : Bool := bitAt (siU s f 2 1) n.val
/-- SI_A to SI_D, 0 to 3; none where it is not used. -/
def siInput (s : State) (f : Fin 8) (k : Nat) : Option Nat := let x := siU s f (4 + k) 1; if x < 16 then some x else none
def siUses (s : State) (f : Fin 8) (input : Nat) : Bool := siKind s f != 0 && [0, 1, 2, 3].any fun k => siInput s f k == some input
/-- TP_MAP of an input: 0 none, 1 to 4 TP0 to TP3. -/
def tpMap (s : State) (input : Nat) : Nat := bitsOf (cfgU s secSafeIn 0 12 8) (4 * input) 4
def siHigh (s : State) (f : Fin 8) (k : Nat) : Bool := match siInput s f k with | some x => bitAt s.si.filtered x | none => false

def State.fn (s : State) (f : Fin 8) : SiFn := s.si.fns[f.val]
def State.setFn (s : State) (f : Fin 8) (g : SiFn → SiFn) : State := { s with si := { s.si with fns := vupd s.si.fns f g } }

/-! ## Contacts (R443, R447) -/

/-- The demand states of a contact pair: channel A low; channel B low, or high where the pair is antivalent. -/
def demandA (s : State) (f : Fin 8) (k : Nat) : Bool := !siHigh s f k
def demandB (s : State) (f : Fin 8) (k : Nat) (antivalent : Bool) : Bool := siHigh s f (k + 1) == antivalent

/-- The buttons of a two-hand function are antivalent pairs (Table 16.1). -/
def isAntivalent (s : State) (f : Fin 8) : Bool := siKind s f == 3 || siFlag s f 0

/-- The pairs of a function: SI_A with SI_B, and SI_C with SI_D for the second button. -/
def siPairs (s : State) (f : Fin 8) : List Nat := if siKind s f = 3 then [0, 2] else [0]

def siHealthy (s : State) (f : Fin 8) : Bool := (siPairs s f).all fun k => !demandA s f k && !demandB s f k (isAntivalent s f)
/-- Both channels show demand together: of every pair. -/
def siBothDemand (s : State) (f : Fin 8) : Bool := (siPairs s f).all fun k => demandA s f k && demandB s f k (isAntivalent s f)
/-- A button is actuated: NO high and NC low. -/
def siActuated (s : State) (f : Fin 8) (k : Nat) : Bool := !demandA s f k && !demandB s f k true

def siLocked (s : State) (f : Fin 8) : Bool := (s.fn f).lockDisc || (s.fn f).lockTest

/-- The function is active (Table 16.1, R441, R443). -/
def siActive (s : State) (f : Fin 8) : Bool :=
  siKind s f != 0 && (s.si.fault || siLocked s f ||
    match siKind s f with
    | 1 | 4 => !siHealthy s f || (s.fn f).restart
    | 2 => !siHealthy s f || ((siInput s f 2).isSome && !siHigh s f 2)
    | _ => !(s.fn f).permit)

/-- The result in force: a guard door requests SLS while its jog-mode input is high (Table 16.1, log entry 41). -/
def siResult (s : State) (f : Fin 8) : Nat :=
  if siKind s f = 2 then (if (siInput s f 3).isSome && siHigh s f 3 then 2 else siU s f 1 1) else siU s f 1 1

/-- A start of an axis is refused for want of a two-hand permission (R447). -/
def siInhibits (s : State) (n : Fin 4) : Bool := allFns.any fun f => siKind s f == 3 && siAxis s f n && !(s.fn f).permit

/-! ## Locks and restarts -/

/-- The cycle that a lock asks for: both channels in demand together, then both healthy; and the test lock three pulse tests more
(R443). -/
def stepLock (s : State) (f : Fin 8) : State :=
  let x := s.fn f
  if !x.lockDisc && !x.lockTest then s else
  let both := x.sawBoth || siBothDemand s f
  let healthy := x.sawHealthy || (both && siHealthy s f)
  let failed := [0, 1, 2, 3].any fun k => match siInput s f k with | some i => bitAt s.si.testFail i | none => false
  s.setFn f fun y => { y with
    sawBoth := both, sawHealthy := healthy, lockDisc := y.lockDisc && !healthy, lockTest := y.lockTest && !(healthy && !failed) }

/-- A reset or restart becomes pending as the pair is unhealthy (R446, R448). A light curtain that becomes healthy raises
RESTART_REQUIRED. -/
def stepRestart (old s : State) (f : Fin 8) : State :=
  let kind := siKind s f
  if (kind = 1 ∧ (siInput s f 2).isSome ∨ kind = 4) ∧ !siHealthy s f then s.setFn f fun x => { x with restart := true }
  else if kind = 4 ∧ siHealthy s f ∧ !siHealthy old f ∧ (s.fn f).restart then raiseLogged s evRestartRequired 16 (place f.val 24 8 + 0xFF) []
  else s

/-- The permission of a two-hand function (R447). -/
def stepTwoHand (s : State) (f : Fin 8) : State :=
  if siKind s f ≠ 3 then s else
  let x := s.fn f
  let b1 := siActuated s f 0
  let b2 := siActuated s f 2
  if siBothDemand s f then s.setFn f fun x => { x with permit := false, awaitRelease := false, firstAt := none }
  else if x.permit then (if b1 && b2 && !siLocked s f then s else s.setFn f fun x => { x with permit := false, awaitRelease := true, firstAt := none })
  else if b1 && b2 then
    (let soon := match x.firstAt with | some t => decide (s.clk.now ≤ t + 50000000) | none => true
     if soon && !x.awaitRelease && !siLocked s f then s.setFn f fun x => { x with permit := true, firstAt := none } else s)
  else if b1 || b2 then (if x.firstAt.isSome then s else s.setFn f fun x => { x with firstAt := some s.clk.now })
  else s.setFn f fun x => { x with firstAt := none }

/-! ## Results (R445, R446) -/

/-- A function becomes active: its SS1 acts on the axes of AXES; a two-hand function stops those that run (R447). -/
def siDemand (s : State) (f : Fin 8) : State :=
  let t := s.forAxes (fun t n => siAxis s f n && (if siKind s f = 3 then isRun (t.axis n).core.st else siResult s f == 1)) requestSs1
  t.setFn f fun x => { x with endSto := siKind s f != 3 && siResult s f == 1 && siFlag s f 1 }

/-- The input that an event of a function names: the first of its inputs that changed, 0xFF for none (R458). -/
def siNamed (s : State) (f : Fin 8) (changed : Nat) : Nat :=
  match [0, 1, 2, 3].findSome? fun k => (siInput s f k).filter (bitAt changed) with
  | some i => i
  | none => 0xFF

/-- For how long the channels of each pair of a function differ (R443). -/
def stepDiffer (s : State) (f : Fin 8) : State :=
  let since (k : Nat) (old : Option Nat) : Option Nat :=
    if (siPairs s f).contains k && demandA s f k != demandB s f k (isAntivalent s f) then some (old.getD s.clk.now) else none
  s.setFn f fun x => { x with differAt := #v[since 0 x.differAt[0], since 2 x.differAt[1]] }

/-- The function takes its new state, with SI_DEMAND or SI_RELEASED. -/
def stepActive (s : State) (f : Fin 8) (changed : Nat) : State :=
  let input := siNamed s f changed
  let now_ := siActive s f
  if now_ == (s.fn f).active then s else
  let t := s.setFn f fun x => { x with active := now_ }
  let data := place f.val 24 8 + input
  if now_ then raiseLogged (siDemand { t with si := { t.si with demands := satInc 16 t.si.demands } } f) evSiDemand 16 data []
  else raiseLogged (t.setFn f fun x => { x with endSto := false }) evSiReleased 16 data []

/-- Functions that set STO_INT now: an active STO result, and an SS1 with END_STO whose axes have all reached OFF (R445). -/
def siStoNow (s : State) (f : Fin 8) : Bool :=
  let x := s.fn f
  x.active && siKind s f != 3 &&
  (siResult s f == 0 || (x.endSto && allAxes.all fun n => !siAxis s f n || (s.axis n).core.st == .off) ||
    (siResult s f == 1 && siFlag s f 1 && bitAt s.si.stoBy f.val))

/-- The level results follow the functions: STO_INT, SLS, and SS1 of the axes that run while a two-hand permission is absent (R445, R447). -/
def siResults (s : State) : State :=
  let by_ := allFns.foldl (fun m f => setBit m f.val (siStoNow s f)) 0
  let t := { s with si := { s.si with stoBy := by_ } }
  let u := t.forAxes (fun _ _ => true) fun v n => v.setAxis n fun a => { a with saf := { a.saf with
    inSls := allFns.any fun f => (t.fn f).active && siKind t f != 3 && siResult t f == 2 && siAxis t f n } }
  settleStoInt (u.forAxes (fun v n => isRun (v.axis n).core.st && allFns.any fun f => (t.fn f).active && siKind t f == 3 && siAxis t f n) requestSs1)

/-- Every function evaluated after a change of the filtered inputs in the mask. -/
def siEvaluate (old s : State) (changed : Nat) : State :=
  siResults (allFns.foldl (fun t f => if siKind t f = 0 then t else stepActive (stepTwoHand (stepRestart old (stepDiffer (stepLock t f) f) f) f) f changed) s)

/-! ## The contactor outputs (R450) -/

def soUse (s : State) (k : Nat) : Nat := cfgU s secSafeOut 0 (12 * k) 1

/-- SO2 and SO3 in contactor use are on in IDLE and RUN, and off while a function with their OPEN_SO flag is active. -/
def contactorOn (s : State) (k : Fin 4) : Bool :=
  (s.mode == .idle || s.mode == .run) && !s.so.failed[k.val] &&
  !allFns.any fun f => (s.fn f).active && siFlag s f (k.val)

def settleContactor (s : State) (k : Fin 4) : State :=
  if soUse s k.val = 3 then { s with so := { s.so with on := s.so.on.set k.val (contactorOn s k) } } else s

/-- What the safe outputs drive now, and since when (R451, R452). -/
def settleDriven (s : State) : State :=
  allAxes.foldl (fun t k =>
    let d := t.so.on[k.val] && !t.so.pulsing[k.val]
    if d == t.so.driven[k.val] then t else
    { t with so := { t.so with
      driven := t.so.driven.set k.val d, drivenAt := t.so.drivenAt.set k.val t.clk.now
      shown := t.so.shown.set k.val false, strayAt := t.so.strayAt.set k.val none } }) s

/-- What follows a command: END_STO, STO_INT and the contactors. -/
def settleSafeIo (s : State) : State :=
  if !firmwareUp s then s else
  settleContactor (settleContactor (siResults s) 2) 3

end Sys2Proof.Machine
end

