-- ==== Sys2Proof/Machine/TackOps.lean ====
section
/-! DEFINITION. What a tack writes and answers as it completes (R103, R104), and the log records of chapter 19 that it
brings (R528, R536). -/
namespace Sys2Proof.Machine
open Sys2Proof

/-! ## Records (Table 19.10) -/

/-- A 64-bit signed counter as bytes. -/
def i64Bytes (i : Int) : List Byte := leBytes 8 (unsignedOf 64 i)

/-- A COUNTERS record of an axis. -/
def counterRecord (s : State) (n : Fin 4) : State :=
  let c := s.log.counters[n.val]
  logRec s 0x0011 sevInfo n.val (i64Bytes c.revolutions ++ leBytes 8 c.motorWh ++ leBytes 8 c.regenWh ++ leBytes 8 c.seconds)

/-- The COUNTERS records of every present, enabled axis. -/
def counterRecords (s : State) : State := s.forAxes axEnabled counterRecord

/-- Two images differ in a section. -/
def sectionChanged (a b : List Byte) (id inst : Nat) : Bool := imgBody a id inst != imgBody b id inst

/-- A TACK record and the DIGEST records of the old and the new set. -/
def tackLine (s : State) (oldGeneration : Nat) (oldDigest new : List Byte) (flags carrier ts : Nat) : State :=
  let t := logRec s 0x0013 sevInfo 0xFF (leBytes 4 oldGeneration ++ leBytes 4 (imgGeneration new) ++ leBytes 4 flags ++ leBytes 4 carrier ++ leBytes 8 ts)
  logRec (logRec t 0x0014 sevInfo 0 oldDigest) 0x0014 sevInfo 1 (imgDigest new)

/-- The TACK record with its DIGEST records, and RATIO where ODOMETRY changed; a generation change at cast-on has the same form
(R104, R528). -/
def tackRecords (s : State) (old new : List Byte) (castOn ring : Bool) (carrier ts : Nat) : State :=
  let odo := sectionChanged old new secOdometry 0
  let flags := ofFlag castOn + 2 * ofFlag odo + 4 * ofFlag (sectionChanged old new secLimits 0) + 8 * ofFlag ring
  let u := tackLine s (imgGeneration old) (imgDigest old) new flags carrier ts
  if odo then
    logRec u 0x0015 sevInfo 0xFF (sliceZ ((imgBody old secOdometry 0).getD []) 0 16 ++ sliceZ ((imgBody new secOdometry 0).getD []) 0 16)
  else u

/-! ## Slots -/

/-- The slots as a pair selected by a flag: true is slot B. -/
def State.slot (s : State) (b : Bool) : CfgSlot := if b then s.cfg.slotB else s.cfg.slotA
def State.setSlot (s : State) (b : Bool) (x : CfgSlot) : State :=
  if b then { s with cfg := { s.cfg with slotB := x } } else { s with cfg := { s.cfg with slotA := x } }

/-- The image that a slot holds: its first SIZE bytes; what was not written reads erased (log entry 47). -/
def slotImg (x : CfgSlot) : List Byte :=
  let n := imgSize x.bytes
  if n ≤ 262144 then (x.bytes ++ List.replicate (n - x.bytes.length) 0xFF#8).take n else []

/-- A twin copy begins: the slot is rewritten from the active set (R100). -/
def startCopy (s : State) (b : Bool) : State := s.setSlot b ⟨[], .copying⟩

/-! ## Completion -/

/-- The command CFG.TACK that runs. -/
def tackJob (s : State) : Option Job := s.host.jobs.find? fun j => j.started && j.code == 0x0206

/-- A tack is announced on the ring: until 2 ms after Ts the old and the new digest are no difference (R498). -/
def announce (s : State) (generation : Nat) (digest : List Byte) : State :=
  { s with ring := { s.ring with announced := some (generation, digest), replaced := (s.cfg.active.map imgDigest).getD [], graceUntil := 2 ^ 64 } }

/-- Every unit has changed (R103): the tack is logged and answered, and the slot that was not staged is rewritten (R100). -/
def tackDone (s : State) : State :=
  match s.cfg.tack, s.cfg.prev, s.cfg.active with
  | some k, some old, some new =>
    if s.cfg.lag ≠ 0 then s else
    let t := counterRecords (tackRecords { s with cfg := { s.cfg with tack := none, prev := none }, ring := { s.ring with tack := none } } old new false k.ring k.carrier k.ts)
    let staged := t.slot t.cfg.shadowSlot
    let u := if slotImg staged = new then t.setSlot t.cfg.shadowSlot { staged with state := .current } else t
    let v := startCopy u (!u.cfg.shadowSlot)
    match tackJob v with
    | some j => respond v j 0 (leBytes 8 k.ts ++ leBytes 4 k.carrier)
    | none => v
  | _, _, _ => s

/-- A unit reaches its boundary: bit n the PWM and trip parameters of AXn, bit 4 the Backstay. -/
def tackReached (s : State) (bits : List Nat) : State :=
  if s.cfg.lag = 0 then s
  else tackDone { s with cfg := { s.cfg with lag := bits.foldl (fun m b => setBit m b false) s.cfg.lag } }

end Sys2Proof.Machine
end

