-- ==== Sys2Proof/Machine/Settle.lean ====
section
/-! DEFINITION. What follows every command at once: RUN and IDLE from the axis states (R32), the record and doorbell of a
mode change (R29, Table 3.12), the answers to starts whose catch has ended (R35, R294), the FAULT doorbell. -/
namespace Sys2Proof.Machine
open Sys2Proof

/-- RUN while an axis is not OFF, IDLE otherwise (R32, Table 2.1). The other modes stand. -/
def deriveMode (s : State) : State :=
  match s.mode with
  | .idle | .run => { s with mode := if allOff s then .idle else .run }
  | _ => s

/-- The payload of the AXIS.START response (Table 3.19). -/
def startPayload (s : State) (n : Fin 4) : List Byte :=
  [BitVec.ofNat 8 n.val, BitVec.ofNat 8 (axCode (s.axis n).core.st), BitVec.ofNat 8 (ofFlag (s.axis n).core.clamped), 0] ++ f32Bytes (s.axis n).catch_.found

/-- A start that waits for its catch, whose axis is no longer in CATCH, is answered (R294). When the device has entered SAFE it
is abandoned with SAFE_LATCHED (R35). -/
def settleStart (s : State) (n : Fin 4) : State :=
  match (s.axis n).catch_.answerSlot with
  | none => s
  | some slot =>
    if (s.axis n).core.st == .catching then s else
    let t := s.setAxis n fun a => { a with catch_ := { a.catch_ with answerSlot := none } }
    match runningJob t slot with
    | some j =>
      if t.mode == .safe then refuse t j rsSafeLatched
      else if (s.axis n).catch_.refusal == evModeRefused then refuse t j rsBackstayNotArmed
      else if (s.axis n).catch_.refusal != 0 then respond t j (s.axis n).catch_.refusal []
      else respond t j 0 (startPayload t n)
    | none => t

/-- A mode command of a running axis that had not been taken when its axis left the RUN_ states is answered: with SAFE_LATCHED in
SAFE (R35), else with what R591 answers in the state reached. -/
def settleNextRun (old s : State) (n : Fin 4) : State :=
  match (old.axis n).core.nextRun, (s.axis n).core.nextRun with
  | some (_, slot, _), none =>
    if isRun (s.axis n).core.st then s else
    match runningJob s slot with
    | some j => refuse s j (if s.mode == .safe then rsSafeLatched else if (s.axis n).core.st == .axisSafe && tripped s n then rsTripLatched else rsBadTransition)
    | none => s
  | _, _ => s

/-- A tack that SAFE has aborted answers its command with SAFE_LATCHED (R35, R104), one that LOCK or the loss of the shadow set has
aborted with TACK_REFUSED, reason LOCKED or NO_SHADOW (R522, R303, log entry 48). -/
def settleTack (s : State) : State :=
  if s.cfg.tack.isSome then s else
  match tackJob s with
  | some j => if s.mode == .safe then refuse s j rsSafeLatched else respond s j evTackRefused (leBytes 2 (if s.sec.locked then 3 else 1))
  | none => s

/-- The record and the doorbell that a mode change brings (R29, Table 3.12). The class of a difference does not depend on the
mode, since no use condition does, so the re-evaluation of R98 changes nothing (log entry 49). -/
def settleMode (old s : State) : State :=
  if old.mode = s.mode then s else
  let t := logRec s 0x0012 sevInfo 0xFF ([BitVec.ofNat 8 (modeCode old.mode), BitVec.ofNat 8 (modeCode s.mode), 0, 0] ++ leBytes 4 (regMode s))
  let u := if firmwareUp t then { t with host := { t.host with outSystem := true } } else t
  if u.mode == .safe then auxSafe u else if old.mode == .safe then auxSafeEnds u else u

/-- DOORBELL_OUT.FAULT is set by hardware when a bit of FAULTSUM[31:16] rises (Table 3.12). -/
def settleFault (old s : State) : State :=
  if (bitsOf (regFaultsum s) 16 16 &&& ((2 ^ 16 - 1) ^^^ bitsOf (regFaultsum old) 16 16)) != 0 then
    { s with host := { s.host with outFault := true } }
  else s

/-- What an axis does as it leaves a state or reaches another: the gate outputs begin to be low (R187), a move is held (R331),
a claim ends (Table 4.13), sources are re-armed at OFF (R262). A latched
trip ends a recapture (R285). -/
def settleAxis (old s : State) (n : Fin 4) : State :=
  let was := (old.axis n).core.st
  let now_ := (s.axis n).core.st
  let a := if gatesQuiet s n && !gatesQuiet old n then s.setAxis n fun a => { a with sense := { a.sense with gatesLowSince := s.clk.now } } else s
  let a := if !axSwitching s n && (s.axis n).obs.st == .recapturing then
      a.setAxis n fun x => { x with obs := { x.obs with st := .unlocked, heldStop := 0, lockRun := 0 } }
    else a
  if was == now_ then a else
  let b := if was == .runPosition then holdMove a n else a
  let c := if isRun was && !isRun now_ then releaseReference b n else b
  if now_ == .off then latchHeld (rearmAxis c n) n else c

/-- Outside SAFE, an axis in AXIS_SAFE that freewheels with no latched trip enters OFF (Table 2.3, R165). -/
def settleFreewheel (s : State) (n : Fin 4) : State :=
  let a := s.axis n
  let up := s.mode == .idle || s.mode == .run || s.mode == .service
  if axPresent s n && up && a.core.st == .axisSafe && a.trip.src == 0 && a.core.sub == .freewheel then axisOff s n else s

/-- A winding discharge whose axis has been taken from it runs no longer. -/
def settleDischarge (s : State) : State :=
  if s.disch.state = 1 ∧ s.disch.method = 2 ∧ !(allAxes.any fun n => (s.axis n).discharging) then
    { s with disch := { s.disch with state := 0, ending := false } }
  else s

/-- A debugger's halt that waits for SS1 is dropped when SAFE latches (R390). -/
def dropHalts (s : State) : State :=
  if s.mode == .safe then { s with lock := { s.lock with pairs := s.lock.pairs.map fun p => { p with haltHeld := false } } } else s

/-- Everything that follows a command at once. -/
def settle (old s : State) : State :=
  let a := settleLeave (deriveMode (settleSafeIo (allAxes.foldl (settleAxis old) (settleDischarge (allAxes.foldl settleFreewheel (settleFaults s))))))
  let b := ((settleTack a).forAxes (fun _ _ => true) settleStart).forAxes (fun _ _ => true) (settleNextRun old)
  let c := settleDriven (settleFault old (settleMode old (settleGates (settleForced (dropHalts b)))))
  if originTrips old == originTrips c then c else sendTrip c

/-- The next state of a command that took `old` to `s`. -/
def finish (old s : State) : Result := .next (settle old s)

/-- A mailbox command's meaning: it acts where the command of that slot and code is the next to start (R73), and changes
nothing otherwise (log entry 6). -/
def command (s : State) (slot code : Nat) (body : State → Job → State) : Result :=
  match nextJob s with
  | some j => if j.slot = slot ∧ j.code = code then finish s (gate s j body) else .next s
  | none => .next s

end Sys2Proof.Machine
end

