-- ==== Sys2Proof/Machine/AuxChannel.lean ====
section
/-! DEFINITION. The commands of the auxiliary channel and of the reference switches (R252, R334 to R344). -/
namespace Sys2Proof.Machine
open Sys2Proof

/-! ## Reference switches (R252, R340) -/

/-- EDGE of 1 rising, 2 falling, 3 both. -/
def edgeKept (sel : Nat) (rising : Bool) : Bool := if rising then bitAt sel 0 else bitAt sel 1

/-- An edge of a switch whose latch a position interface owns: P is captured, and a referencing event follows where it is
awaited (R252). -/
def positionSwitch (s : State) (sw i : Fin 4) (rising : Bool) : State :=
  if !edgeKept (posU s i 27 1) rising then s else
  let t := { s with refsw := vupd s.refsw sw fun _ => { value := extP s i, time := s.clk.drive.toNat, rising := rising } }
  if (s.ifc i).awaitSwitch then releaseClaim (refEvent t i (posU s i 88 4)) (resSwitch sw) else t

/-- An edge of the switch that the auxiliary channel owns: m is captured; it references an unreferenced stepper, and is the end
switch of a DC actuator (R340, R342). -/
def auxSwitch (s : State) (sw : Fin 4) (rising : Bool) : State :=
  if !edgeKept (auxU s 7 1) rising then s else
  let t := ({ s with refsw := vupd s.refsw sw fun _ => { value := s.aux.m, time := s.clk.drive.toNat, rising := rising } }).setAux
    fun a => { a with latch := a.m }
  if auxMode t = 1 ∧ !t.aux.referenced then
    let u := auxReference t
    { u with refsw := vupd u.refsw sw fun r => { r with value := u.aux.m } }
  else if auxMode t = 2 ∧ t.aux.moving then
    (if t.aux.parking then parkDone t else driveAll (auxStand t))
  else t

/-- An edge at the ball of a reference switch that holds for a time, in 10 ns, of at least REF_DEBOUNCE: the owner of the latch takes it. The
command comes with the edge, so that what is captured is in force at the edge: DESIGN CHOICE (log entry 267), unsafe. REF_DEBOUNCE stands in
the POSITION section that names the switch (R252); for the switch that AUX.REFSW names (R340) no section does, and every edge is kept: DESIGN
CHOICE (log entry 221), unsafe. -/
def execRefswLatch (sw : Fin 4) (rising : Bool) (held : Nat) (s : State) : Result :=
  match ownerOf s (resSwitch sw) with
  | some e =>
    if e.function = 0x04 ∧ held < ticksOf (posF s (Fin.ofNat 4 e.inst) 92) then .next s else
    if e.function = 0x06 ∧ auxU s 6 1 = sw.val then finish s (auxSwitch s sw rising)
    else if e.function = 0x04 then
      (if h : e.inst < 4 then finish s (positionSwitch s sw ⟨e.inst, h⟩ rising) else .next s)
    else .next s
  | none => .next s

/-! ## Choppers (R335, R336) -/

/-- The phase of a bridge has lasted for a time of the section. -/
def phaseFor (s : State) (b : Fin 2) (seconds : Q) : Bool := decide (s.aux.bridges[b.val].since + ticksOf seconds ≤ s.clk.now)

/-- The sense input is at `volts` after BLANK: the first crossing starts the decay (R335). -/
def execChopperCrossing (bridge : Fin 2) (volts : Q) (s : State) : Result :=
  let b := s.aux.bridges[bridge.val]
  if !s.aux.energised || b.phase != 1 || b.blank || !chopActive s bridge volts then .next s else
  finish s (setPhase s bridge 2 b.forward false)

/-- The end of BLANK after the turn-on, with the sense input at `volts` (R335, R336): it is compared with the code of I_TRIP, and a comparator already active
starts the decay. -/
def execBlankEnd (bridge : Fin 2) (volts : Q) (s : State) : Result :=
  let b := s.aux.bridges[bridge.val]
  if !s.aux.energised || b.phase != 1 || !b.blank || s.clk.now < turnOnAt s bridge + ticksOf (auxF s 12) then .next s else
  let above := decide (chopVolts s (auxF s 32) < volts)
  let active := chopActive s bridge volts
  let u := s.setAux fun a => { a with bridges := vupd a.bridges bridge fun x => { x with
    blank := false, above := above, overRun := if above then x.overRun + 1 else 0 } }
  let t := if active then setPhase u bridge 2 b.forward false else u
  finish s (if 2 ≤ (t.aux.bridges[bridge.val]).overRun then auxFault t 1 evAuxOvercurrent else t)

/-- The end of the fixed off-time TOFF (R335). -/
def execToffEnd (bridge : Fin 2) (s : State) : Result :=
  if !s.aux.energised || s.aux.bridges[bridge.val].phase != 2 || !phaseFor s bridge (auxF s 8) then .next s else finish s (driveBridge s bridge)

/-- A drive phase of OPEN_TIME without a crossing, its reference at least a tenth of I_RUN (R336). -/
def execAuxOpenLoad (bridge : Fin 2) (s : State) : Result :=
  if !s.aux.energised || s.aux.bridges[bridge.val].phase != 1 || !phaseFor s bridge (auxF s 68) || decide (qabs (bridgeRef s bridge) < auxF s 24 / 10) then .next s else
  finish s (auxFault s 2 evAuxOpenLoad)

/-! ## Moves (R337 to R344) -/

/-- The end of a stepper move at its target: the park de-energises, a commanded move ends with AUX_MOVE_DONE (R338, R344). -/
def stepperArrived (s : State) : State :=
  if s.aux.parking then parkDone s else raise (auxStand s) evAuxMoveDone 17 0

/-- The next microstep of a trapezoidal rate profile: at the constant acceleration ACC the square of the rate changes by at most 2 × ACC at each
microstep, also where a command has lowered the rate or moved the target inside the stopping distance, past which the channel then comes back;
the next microstep follows no sooner than the rate and 1 µs allow (R338). -/
def execAuxMicrostep (s : State) : Result :=
  if !s.aux.energised || !s.aux.moving || auxMode s != 1 || s.clk.now < s.aux.nextStep then .next s else
  let acc := auxF s 48
  let a := s.aux
  let dir : Int := if a.rate < 0 then -1 else if 0 < a.rate then 1 else if a.target < a.m then -1 else 1
  let m := a.m + dir
  let left : Int := (a.target - m) * dir
  let sq := a.rate * a.rate
  let want := if a.stopping then 0 else qmin (a.rateCap * a.rateCap) (qmin (sq + 2 * acc) (2 * acc * (left : Q)))
  let mag := Config.sqrt (qmax 0 (qmax (sq - 2 * acc) want))
  let rest := decide (qmax (sq - 2 * acc) want ≤ 0)
  let wait := max 100 (if rest then 0 else ticksOf (1 / mag))
  let t := s.setAux fun a => { a with
    m := signedOf 32 (unsignedOf 32 m), nextStep := s.clk.now + wait, rate := if rest then 0 else if dir < 0 then -mag else mag, holdCurrent := false }
  finish s <|
    if !rest then t
    else if a.stopping then auxStand t
    else if left = 0 then stepperArrived t
    else t

/-- Standstill for HOLD_DELAY (R337). -/
def execHoldDelay (s : State) : Result :=
  if !s.aux.energised || s.aux.moving || auxMode s != 1 || s.clk.now < s.aux.standSince + ticksOf (auxF s 36) then .next s else
  finish s (s.setAux fun a => { a with holdCurrent := true })

/-- Standstill for IDLE_OFF, where it is not 0 (R339). A solenoid that is on does not stand idle. -/
def execIdleOff (s : State) : Result :=
  if !s.aux.energised || s.aux.moving || auxF s 40 = 0 || s.aux.solOn[0] || s.aux.solOn[1] || s.clk.now < s.aux.standSince + ticksOf (auxF s 40) then .next s else finish s (auxOff s)

/-- The run time of a DC actuator has run out (R342). -/
def execAuxRunTimeEnd (s : State) : Result :=
  if !s.aux.energised || !s.aux.moving || auxMode s != 2 || s.clk.now < s.aux.runEnd then .next s else
  finish s (if s.aux.parking then parkDone s else driveAll (auxStand s))

/-- T_PULL after a solenoid was switched on (R343). In a park the solenoids are then where PARK wants them. -/
def execTPullElapsed (solenoid : Fin 2) (s : State) : Result :=
  if auxMode s != 3 || !s.aux.pullOn[solenoid.val] || s.clk.now < s.aux.pullAt[solenoid.val] + ticksOf (auxF s 52) then .next s else
  let t := s.setAux fun a => { a with pullOn := a.pullOn.set solenoid.val false }
  finish s (if t.aux.parking && !t.aux.pullOn[0] && !t.aux.pullOn[1] then parkDone t else t)

/-- PARK not reached within PARK_TIME (R344). -/
def execAuxParkIncomplete (s : State) : Result :=
  if !s.aux.parking || s.clk.now < s.aux.parkAt + ticksOf (auxF s 60) then .next s else
  let t := parkDone s
  finish s (raise { t with power := { t.power with parkShort := true } } evAuxParkIncomplete 17 0)

/-! ## Mailbox commands (Table 3.18) -/

/-- A move to a target is begun: a stepper's microstep, a DC actuator's run time, or the solenoid bits (R338, R342, R343). -/
def auxBegin (s : State) (target : Int) (rate : Q) : State :=
  let t := auxOn s
  match auxMode s with
  | 1 =>
    let u := t.setAux fun a => { a with target := target, rateCap := qmin (qabs rate) (auxF s 44), moving := true, stopping := false, holdCurrent := false }
    if target = u.aux.m ∧ u.aux.rate = 0 then stepperArrived u else u
  | 2 => driveAll (t.setAux fun a => { a with target := target, moving := target != 0, stopping := false, runEnd := s.clk.now + target.natAbs * 100000 })
  | 3 =>
    let bits := unsignedOf 32 target
    let on : Vector Bool 2 := #v[bitAt bits 0, bitAt bits 1]
    driveAll (t.setAux fun a => { a with
      target := target, pullOn := #v[on[0] && (!a.solOn[0] || a.pullOn[0]), on[1] && (!a.solOn[1] || a.pullOn[1])]
      pullAt := #v[if a.solOn[0] then a.pullAt[0] else s.clk.now, if a.solOn[1] then a.pullAt[1] else s.clk.now]
      solOn := on, standSince := s.clk.now })
  | _ => s

/-- AUX.MOVE (R336, R338 to R343). `overActive` is the level of the overcurrent comparator. Where the channel is off (MODE 0) or STO
holds its outputs, it is not accepted (log entry 30). -/
def auxMoveBody (overActive : Bool) (s : State) (j : Job) : State :=
  if s.aux.fault = 1 ∧ overActive then respond s j evClearRefusedSourceActive []
  else if auxMode s = 0 then refuse s j rsNotInMode
  else if stoActive s then refuse s j rsStoActive
  else if auxMode s = 1 ∧ (j.f 4).getD 0 ≤ 0 then badParameter s j
  else respond (auxBegin (auxDiscard s) (j.i 0 4) ((j.f 4).getD 0)) j 0 []

def execAuxMove (slot : Nat) (overActive : Bool) (s : State) : Result := command s slot 0x0380 (auxMoveBody overActive)

/-- AUX.STOP: the move is held, the remaining microsteps answered; solenoids are switched off (R341, R343). -/
def auxStopBody (s : State) (j : Job) : State :=
  let left := if s.aux.moving then auxRemaining s else (if s.aux.held.isSome then auxRemaining s else 0)
  let t :=
    if auxMode s = 3 then driveAll (s.setAux fun a => { a with solOn := Vector.replicate 2 false, pullOn := Vector.replicate 2 false, standSince := s.clk.now })
    else if !s.aux.moving then s
    else if auxMode s = 1 ∧ s.aux.rate ≠ 0 then s.setAux fun a => { a with stopping := true, held := some a.target }
    else driveAll (auxKeep (auxHold s))
  respond t j 0 (leBytes 4 (unsignedOf 32 left))

def execAuxStop (slot : Nat) (s : State) : Result := command s slot 0x0381 auxStopBody

/-- AUX.RESUME: a held move goes on at the rate of its command (R341); an overcurrent that still stands comes first (R336). -/
def auxResumeBody (overActive : Bool) (s : State) (j : Job) : State :=
  if s.aux.fault = 1 ∧ overActive then respond s j evClearRefusedSourceActive [] else
  match s.aux.held with
  | none => refuse s j rsNotInMode
  | some t =>
    if stoActive s then refuse s j rsStoActive
    else respond (auxBegin (s.setAux fun a => { a with held := none }) t s.aux.rateCap) j 0 []

def execAuxResume (slot : Nat) (overActive : Bool) (s : State) : Result := command s slot 0x0382 (auxResumeBody overActive)

/-- AUX.STATUS (Table 3.18). -/
def auxStatusBody (s : State) (j : Job) : State :=
  respond s j 0 (leBytes 4 (unsignedOf 32 (auxPosition s)) ++ leBytes 4 (unsignedOf 32 (auxRemaining s)) ++ [BitVec.ofNat 8 (ofFlag s.aux.referenced)])

def execAuxStatus (slot : Nat) (s : State) : Result := command s slot 0x0383 auxStatusBody

end Sys2Proof.Machine
end

