-- ==== Sys2Proof/Machine/CanOps.lean ====
section
/-! DEFINITION. The CAN controllers: configuration fields, filters, storing, end-to-end checks, error confinement (R459 to R483). -/
namespace Sys2Proof.Machine
open Sys2Proof

def State.canCtl (s : State) (n : Fin 4) : CanCtl := s.can.ctl[n.val]
def State.setCan (s : State) (n : Fin 4) (f : CanCtl → CanCtl) : State := { s with can := { s.can with ctl := vupd s.can.ctl n f } }

def canPresent (s : State) (n : Fin 4) : Bool := unitPresent s (8 + n.val)

/-- The controller works: present, configured and online since cast-on step 14, with its clock (R475, Table 1.5). -/
def canRuns (s : State) (n : Fin 4) : Bool :=
  canPresent s n && cfgHas s secCan n.val && decide (0x0E ≤ s.boot.phase) && !bitAt s.clk.lost 4 && !(s.canCtl n).failed && !s.power.inReset && s.mode != .sleep

/-- The controller can drive CANn_TX: it works, the FABRIC clock, whose loss forces the ball recessive, is there (Table 1.4), and the output
drivers are released (R54). -/
def canTalks (s : State) (n : Fin 4) : Bool := canRuns s n && !bitAt s.clk.lost 1 && driversOn s

/-- The state shown as bus-off: the controller is bus-off, or its clock is lost, which shows as an equivalent of it (Table 1.4). -/
def busOffNow (s : State) (n : Fin 4) : Bool := (s.canCtl n).busOff || bitAt s.clk.lost 4

/-! ## Buffer entries (Table 17.11) and descriptors (Table 17.4) -/
def bufU (s : State) (n : Fin 4) (b off size : Nat) : Nat := canU s n (1856 + 16 * b + off) size
def bufKind (s : State) (n : Fin 4) (b : Nat) : Nat := if b < canU s n 2 2 then bufU s n b 0 1 else 0
def bufFlag (s : State) (n : Fin 4) (b k : Nat) : Bool := bitAt (bufU s n b 2 1) k
def bufLifetime (s : State) (n : Fin 4) (b : Nat) : Nat := bufU s n b 12 4
/-- ROLE and AXES. -/
def bufRole (s : State) (n : Fin 4) (b : Nat) : Nat := bitsOf (bufU s n b 3 1) 6 2
def bufAxis (s : State) (n : Fin 4) (b : Nat) (m : Fin 4) : Bool := bitAt (bufU s n b 3 1) m.val
/-- The 16 bytes of an entry. -/
def bufEntry (s : State) (n : Fin 4) (b : Nat) : List Byte := slice (cfgBody s secCan n.val) (1856 + 16 * b) 16

/-- A descriptor built from its entry (R464). A shadow slot follows its slot (log entry 45). -/
def canDescOf (s : State) (n : Fin 4) (b : Nat) : CanDesc :=
  { buf := b, req := false, lock := false, shadowFull := false, sent := false, expired := false, cancelled := false, cancelDue := false
    expireDue := false, overwrite := 0, lost := 0, slot := bufU s n b 8 2
    shadow := if bufFlag s n b 1 then bufU s n b 8 2 + (if bufU s n b 1 1 = 4 then 20 else 1) else 0xFFFF
    enq := 0, reqAt := 0, valid := false, okRun := 0, counter := 0, acceptedAt := 0, timing := false }

def canDescs (s : State) (n : Fin 4) : List CanDesc := ((List.range (min 256 (canU s n 2 2))).filter fun b => bufKind s n b != 0).map (canDescOf s n)

/-- The four words of a descriptor as the fabric reads them (Table 17.4); CANCEL_REQ is write-only. -/
def descWords (s : State) (n : Fin 4) (d : CanDesc) : List Nat :=
  [place (bufKind s n d.buf) 30 2 + place (ofFlag d.req) 29 1 + place (ofFlag d.lock) 28 1 + place (ofFlag d.shadowFull) 27 1 + place (ofFlag d.sent) 26 1 +
     place (ofFlag d.expired) 25 1 + place (ofFlag d.cancelled) 24 1 + place d.overwrite 8 8 + place d.lost 0 8,
   place d.shadow 16 16 + place d.slot 0 16, d.enq, bufLifetime s n d.buf]

/-- A byte of the message RAM as the fabric reads it: a descriptor (R464), the filter area that firmware copies from the section (R462, R482),
or a slot (R463). -/
def messageByte (s : State) (addr : Nat) : Byte :=
  let areas := allAxes.findSome? fun n =>
    let table := 256 * canU s n 28 2
    let filters := 256 * canU s n 30 2
    if !cfgHas s secCan n.val then none
    else if table ≤ addr ∧ addr < table + 4096 then
      (match (s.canCtl n).descs.find? fun d => d.buf == (addr - table) / 16 with
       | some d => some (((descWords s n d).flatMap (leBytes 4)).getD (addr % 16) 0)
       | none => some 0)
    else if filters ≤ addr ∧ addr < filters + 1792 then (cfgBody s secCan n.val)[64 + (addr - filters)]?
    else none
  areas.getD (cellRead s.can.ram addr)

def canDesc (s : State) (n : Fin 4) (b : Nat) : Option CanDesc := (s.canCtl n).descs.find? fun d => d.buf == b
def State.setDesc (s : State) (n : Fin 4) (b : Nat) (f : CanDesc → CanDesc) : State :=
  s.setCan n fun c => { c with descs := c.descs.map fun d => if d.buf = b then f d else d }

/-- A TX buffer pends. -/
def canPending (s : State) (n : Fin 4) (b : Nat) : Bool := bufKind s n b == 1 && ((canDesc s n b).map (·.req)).getD false

/-- The drive time of a SOF sample point, and the timestamp that belongs to it (R472): with TS_BITRATE clear it follows from the drive time;
otherwise it is the count of bit times, which has no link to drive time. -/
def sofTimes (s : State) (n : Fin 4) (stamp sof : Nat) : Nat × Nat :=
  let d := min sof s.clk.drive.toNat
  (if canFlag s n 6 then stamp % 2 ^ 32 else d / 100 % 2 ^ 32, d % 2 ^ 32)

/-- A frame with the times of its SOF. -/
def timed (s : State) (n : Fin 4) (f : CanFrame) : CanFrame :=
  { f with stamp := (sofTimes s n f.stamp f.sof).1, sof := (sofTimes s n f.stamp f.sof).2 }

/-- Withdrawal of a pending buffer by cancel, tack or RAM fault (R470, R480, R481). -/
def canCancel (s : State) (n : Fin 4) (b : Nat) : State :=
  (s.setDesc n b fun d => { d with req := false, cancelled := true, cancelDue := false, expireDue := false }).setCan n fun c => { c with txCancelled := satInc 16 c.txCancelled }

/-- Withdrawal of an expired buffer (R471). -/
def canExpire (s : State) (n : Fin 4) (b : Nat) : State :=
  let t := (s.setDesc n b fun d => { d with req := false, expired := true, cancelDue := false, expireDue := false }).setCan n fun c => { c with txExpired := satInc 16 c.txExpired }
  raiseLimited t evTxExpired (n.val * 256 + b) (8 + n.val) (place n.val 24 8 + b)

/-! ## The head (R470) -/

/-- The arbitration field of the frame of a TX buffer as a number, of which the lower wins: the eleven base bits, RTR or SRR, IDE, the
extension, RTR. -/
def arbKey (s : State) (n : Fin 4) (b : Nat) : Nat :=
  let id := bufU s n b 4 4
  let rtr := ofFlag (bufU s n b 1 1 == 1)
  if bitAt id 31 then (bitsOf id 18 11 * 4 + 3) * 2 ^ 19 + bitsOf id 0 18 * 2 + rtr else (bitsOf id 0 11 * 4 + 2 * rtr) * 2 ^ 19

/-- Buffer `a` goes before buffer `b`: by arbitration, then by number. -/
def arbBefore (s : State) (n : Fin 4) (a b : Nat) : Bool := arbKey s n a < arbKey s n b || (arbKey s n a == arbKey s n b && decide (a < b))

/-- A pending buffer was the head at a start of arbitration at a drive time: requested by then, and before every other buffer so requested
that still pends. A buffer withdrawn since is not looked for: DEDUCED (log entry 240). -/
def canHead (s : State) (n : Fin 4) (b sof : Nat) : Bool :=
  match canDesc s n b with
  | none => false
  | some d => decide (d.reqAt ≤ sof) && (s.canCtl n).descs.all fun e => e.buf == b || !canPending s n e.buf || decide (sof < e.reqAt) || arbBefore s n b e.buf

/-! ## Filters (R465, R466) -/

/-- What a filter decides: action, target buffer, index of the entry (0xFF for the default), URGENT. -/
structure FilterHit where
  action : Nat
  target : Nat
  index : Nat
  urgent : Bool
  deriving DecidableEq, Repr

/-- The identifier test of a kind (Table 17.5). -/
def idTest (kind id1 id2 x : Nat) : Bool :=
  match kind with
  | 1 => decide (id1 ≤ x) && decide (x ≤ id2)
  | 2 => x == id1 || x == id2
  | 3 => (x &&& id2) == (id1 &&& id2)
  | _ => false

/-- MATCH: 0 all formats, 1 classic and FD, 2 XL. -/
def matchFormat (m : Nat) (f : CanFrame) : Bool := m == 0 || (m == 1 && f.format != 2) || (m == 2 && f.format == 2)

/-- The standard list from entry `k`; the entry after one with XL_AF is data and is not evaluated. -/
def stdFilters (s : State) (n : Fin 4) (f : CanFrame) : Nat → Nat → Bool → Option FilterHit
  | 0, _, _ => none
  | left + 1, k, isData =>
    let w0 := canU s n (64 + 8 * k) 4
    let w1 := canU s n (68 + 8 * k) 4
    let af := bitAt w0 26
    let value := canU s n (72 + 8 * k) 4
    let mask := canU s n (76 + 8 * k) 4
    if !isData && idTest (bitsOf w0 30 2) (bitsOf w0 0 11) (bitsOf w1 0 11) f.ident && matchFormat (bitsOf w0 24 2) f
        && (f.format != 2 || !af || (f.af &&& mask) == (value &&& mask)) then some ⟨bitsOf w0 28 2, bitsOf w0 16 8, k, bitAt w0 27⟩
    else stdFilters s n f left (k + 1) (!isData && af)

def extFilters (s : State) (n : Fin 4) (f : CanFrame) : Nat → Nat → Option FilterHit
  | 0, _ => none
  | left + 1, k =>
    let w0 := canU s n (1088 + 12 * k) 4
    if idTest (bitsOf w0 30 2) (bitsOf (canU s n (1092 + 12 * k) 4) 0 29) (bitsOf (canU s n (1096 + 12 * k) 4) 0 29) f.ident
        && matchFormat (bitsOf w0 24 2) f then some ⟨bitsOf w0 28 2, bitsOf w0 16 8, k, bitAt w0 27⟩
    else extFilters s n f left (k + 1)

/-- The decision on a frame (R465). -/
def canFilter (s : State) (n : Fin 4) (f : CanFrame) : FilterHit :=
  let hit := if f.extended && f.format != 2 then extFilters s n f (canU s n 23 1) 0 else stdFilters s n f (canU s n 22 1) 0 false
  hit.getD ⟨canU s n 1 1, 0, 0xFF, false⟩

/-! ## Storing (R463, R467 to R469) -/

/-- The slot header and the data of a received frame (Table 17.3). -/
def slotImage (f : CanFrame) (filter : Nat) : List Byte :=
  leBytes 4 (place (ofFlag (f.format == 2)) 31 1 + place (ofFlag (f.format == 1)) 30 1 + place (ofFlag f.brs) 29 1 + place (ofFlag f.esi) 28 1 +
    place (ofFlag f.rtr) 27 1 + place (ofFlag f.extended) 26 1 + place (ofFlag f.sec) 25 1 + place f.data.length 0 12) ++
  leBytes 4 f.ident ++ leBytes 4 f.af ++ leBytes 4 (place f.vcid 24 8 + place f.sdt 16 8 + place filter 8 8) ++ leBytes 4 f.stamp ++ leBytes 4 f.sof ++ f.data

/-- The byte address of a slot index: bits 15:1 granule, bit 0 half. -/
def slotBase (slot : Nat) : Nat := slot / 2 * 256 + slot % 2 * 128

/-- A store of a frame, with the urgent interrupt to Pair B where its filter entry or its buffer asks for one (R466). -/
def canPut (s : State) (n : Fin 4) (addr : Nat) (f : CanFrame) (h : FilterHit) (safety : Bool) : State :=
  let t := { s with can := { s.can with ram := cellsWrite s.can.ram addr (slotImage f h.index) } }
  if h.urgent || safety then t.setCan n fun c => { c with urgents := c.urgents + 1 } else t

/-- A frame discarded at a buffer. -/
def canLose (s : State) (n : Fin 4) (b : Nat) : State :=
  (s.setDesc n b fun d => { d with lost := satInc 8 d.lost }).setCan n fun c => { c with rxLost := satInc 16 c.rxLost }
def canOver (s : State) (n : Fin 4) (b : Nat) : State :=
  (s.setDesc n b fun d => { d with overwrite := satInc 8 d.overwrite }).setCan n fun c => { c with rxOverwrite := satInc 16 c.rxOverwrite }

/-- Storing to an RX buffer (Table 17.8). A frame that does not fit a small slot is discarded. -/
def storeBuffer (s : State) (n : Fin 4) (d : CanDesc) (f : CanFrame) (h : FilterHit) : State :=
  let b := d.buf
  let safety := bufFlag s n b 0
  let keep := bufFlag s n b 2
  let stamp (t : State) : State := t.setDesc n b fun d => { d with enq := f.stamp }
  if f.format = 2 ∧ bufU s n b 1 1 ≠ 4 then canLose s n b
  else if !d.lock then
    if keep && d.req then canLose s n b
    else stamp ((canPut (if d.req then canOver s n b else s) n (slotBase d.slot) f h safety).setDesc n b fun d => { d with req := true })
  else if d.shadow = 0xFFFF then canLose s n b
  else if !d.shadowFull then stamp ((canPut s n (slotBase d.shadow) f h safety).setDesc n b fun d => { d with shadowFull := true })
  else if keep then canLose s n b
  else stamp (canPut (canOver s n b) n (slotBase d.shadow) f h safety)

/-- Storing to FIFO `k` (R469). `taken` entries have been read by firmware since the last store. A FIFO of no slots is always full, and bit 23 of the
event's data word is the FIFO: DESIGN CHOICE (log entry 274), unsafe. -/
def storeFifo (s : State) (n k : Fin 4) (f : CanFrame) (h : FilterHit) (taken : Nat) : State :=
  let q := (s.canCtl n).fifos[k.val % 2]
  let slots := canU s n (24 + k.val % 2) 1
  let depth := max 1 slots
  let xl := bitAt (canU s n 26 1) (2 + k.val % 2)
  let got := min taken q.count
  let q := { q with head := (q.head + got) % depth, count := q.count - got }
  let put (t : State) (q : CanFifo) : State := t.setCan n fun c => { c with fifos := c.fifos.setIfInBounds (k.val % 2) q }
  let overflow (t : State) : State := raiseLimited t evFifoOverflow (n.val * 2 + k.val % 2) (8 + n.val) (place n.val 24 8 + place (k.val % 2) 23 1)
  let at_ (i : Nat) : Nat := canU s n (32 + 2 * (k.val % 2)) 2 * 256 + i * (if xl then 2304 else 128)
  if slots = 0 ∨ (f.format = 2 ∧ !xl) then overflow (put s { q with overflows := satInc 8 q.overflows })
  else if q.count < depth then put (canPut s n (at_ ((q.head + q.count) % depth)) f h false) { q with count := q.count + 1 }
  else if bitAt (canU s n 26 1) (k.val % 2) then overflow (put s { q with overflows := satInc 8 q.overflows })
  else overflow (put (canPut s n (at_ q.head) f h false) { q with head := (q.head + 1) % depth, overflows := satInc 8 q.overflows })

/-! ## End-to-end protection (R476 to R478) -/

/-- The CRC of a SAFETY frame: over the entry's ID word and bytes 2 to LENGTH − 1. -/
def e2eCrc (s : State) (n : Fin 4) (b : Nat) (data : List Byte) : Nat :=
  (crc16 (leBytes 4 (bufU s n b 4 4) ++ (data.take (bufU s n b 10 2)).drop 2)).toNat

/-- The group whose reference a buffer carries (R493). -/
def refGroup (s : State) (n : Fin 4) (b : Nat) : Option (Fin 4) :=
  allAxes.find? fun g => (grpAxis s g).isSome && grpU s g 1 1 == n.val && grpU s g 2 1 == b

/-- The reference buffer of a group is VALID at the timing master. -/
def refValid (s : State) (g : Fin 4) : Bool := ((canDesc s (Fin.ofNat 4 (grpU s g 1 1)) (grpU s g 2 1)).map (·.valid)).getD false

/-- A checked frame reaches what it is for: the axis of a torque-reference buffer (R478), or the group reference at the timing master
(R493). -/
def e2eUse (s : State) (n : Fin 4) (b : Nat) (data : List Byte) : State :=
  let value (old : Q) : Q := (f32Value (fieldU data 4 4)).getD old
  let t := match refGroup s n b with
    | some g => if s.ring.role == .master then s.setGroup g fun x => { x with reference := value x.reference } else s
    | none => s
  if bufRole s n b != 1 then t else
  t.forAxes (fun _ m => bufAxis s n b m) fun t m => t.setAxis m fun a => { a with core := { a.core with canRef := value a.core.canRef } }

def e2eFail (s : State) (n : Fin 4) (b code : Nat) : State :=
  raise (s.setCan n fun c => { c with e2eFails := satInc 8 c.e2eFails }) code (8 + n.val) (place n.val 24 8 + b)

/-- The E2E state of a receiving SAFETY buffer (R477). Pair B checks, or Pair A in its place (Table 14.4). -/
def e2eCheck (s : State) (n : Fin 4) (d : CanDesc) (f : CanFrame) : State :=
  let b := d.buf
  let good := decide (bufU s n b 10 2 ≤ f.data.length) && fieldU f.data 0 2 == e2eCrc s n b f.data
  let ctr := fieldU f.data 2 1
  let delta := (ctr + 256 - d.counter) % 256
  if d.valid then
    if !good then e2eFail s n b evE2eCrcFail
    else if delta = 0 then s
    else if delta ≤ canU s n 27 1 then
      e2eUse (s.setDesc n b fun d => { d with counter := ctr, acceptedAt := f.stamp, timing := true }) n b f.data
    else e2eFail (s.setDesc n b fun d => { d with valid := false, okRun := 0, counter := ctr }) n b evE2eCounterFail
  else if !good then s.setDesc n b fun d => { d with okRun := 0 }
  else
    let run := if d.okRun != 0 && delta == 1 then d.okRun + 1 else 1
    if canU s n 40 1 ≤ run then s.setDesc n b fun d => { d with valid := true, okRun := run, counter := ctr, acceptedAt := f.stamp, timing := true }
    else s.setDesc n b fun d => { d with okRun := run, counter := ctr }

/-- A torque-reference buffer of an axis is not VALID, so that its starts are refused (R478). -/
def canInhibits (s : State) (m : Fin 4) : Bool :=
  cfgU s secControl m.val 3 1 == 1 &&
  allAxes.any fun n => (s.canCtl n).descs.any fun d => bufKind s n d.buf == 2 && bufFlag s n d.buf 0 && bufRole s n d.buf == 1 && bufAxis s n d.buf m && !d.valid

/-! ## Error confinement (R473, R474) -/

def canPassive (c : CanCtl) : Bool := decide (127 < c.tec) || decide (127 < c.rec_)

/-- New error counts: entry into error-passive and bus-off are noticed. -/
def canCounts (s : State) (n : Fin 4) (tec rec_ : Nat) : State :=
  let was := canPassive (s.canCtl n)
  let t := s.setCan n fun c => { c with tec := tec, rec_ := min rec_ 65535 }
  if 255 < tec then
    let u := t.setCan n fun c => { c with
      busOff := true, recovering := !canFlag s n 5, waitHost := canFlag s n 5, busOffAt := s.clk.now, busOffs := satInc 16 c.busOffs }
    raise u evCanBusOff (8 + n.val) (place n.val 24 8)
  else if !was && canPassive (t.canCtl n) then raise t evCanErrorPassive (8 + n.val) (place n.val 24 8)
  else t

/-! ## Tack and RAM faults (R480, R481) -/

/-- The descriptors rebuilt at a tack (R481): an unchanged entry keeps its state, a changed pending one is withdrawn with CANCELLED;
a FIFO of another depth or slot size starts empty: DESIGN CHOICE (log entry 274), unsafe. `old` is the state with the old set in force. -/
def canAdopt (old s : State) (n : Fin 4) : State :=
  let lostTx := (old.canCtl n).descs.filter fun d => bufKind old n d.buf == 1 && d.req && (bufKind s n d.buf != 1 || bufEntry old n d.buf != bufEntry s n d.buf)
  let fifo (s : State) (k : Nat) : Nat × Bool := (canU s n (24 + k) 1, bitAt (canU s n 26 1) (2 + k))
  s.setCan n fun c => { c with
    txCancelled := min 65535 (c.txCancelled + lostTx.length)
    fifos := Vector.ofFn fun (k : Fin 2) => if fifo old k.val = fifo s k.val then c.fifos[k.val] else { c.fifos[k.val] with head := 0, count := 0 }
    descs := (canDescs s n).map fun d =>
      match c.descs.find? fun o => o.buf == d.buf && bufEntry old n d.buf == bufEntry s n d.buf with
      | some o => o
      | none => if lostTx.any fun o => o.buf == d.buf then { d with cancelled := true } else d }

def inGranules (base count g : Nat) : Bool := decide (base ≤ g) && decide (g < base + count)

/-- A slot covers a granule: one, or nine for an XL slot. -/
def slotCovers (s : State) (n : Fin 4) (b slot g : Nat) : Bool := slot != 0xFFFF && inGranules (slot / 2) (if bufU s n b 1 1 = 4 then 9 else 1) g

/-- An entry of a FIFO that holds a frame lies in a granule. -/
def fifoCovers (s : State) (n : Fin 4) (k g : Nat) : Bool :=
  let q := (s.canCtl n).fifos[k % 2]
  let depth := max 1 (canU s n (24 + k % 2) 1)
  let size := if bitAt (canU s n 26 1) (2 + k % 2) then 2304 else 128
  (List.range q.count).any fun i =>
    let base := canU s n (32 + 2 * (k % 2)) 2 * 256 + (q.head + i) % depth * size
    decide (base / 256 ≤ g) && decide (g ≤ (base + size - 1) / 256)

/-- An uncorrectable error in a granule of one controller (R480). A FIFO has no LOST of its own: the frame counts in RX_LOST (log entry
240). -/
def canRamFaultAt (s : State) (n : Fin 4) (g : Nat) : State :=
  let c := s.canCtl n
  let structural := inGranules (canU s n 28 2) 16 g || inGranules (canU s n 30 2) 7 g
  let hit := c.descs.filter fun d => slotCovers s n d.buf d.slot g || slotCovers s n d.buf d.shadow g
  if !canRuns s n then s
  else if structural then
    let pend := c.descs.filter fun d => bufKind s n d.buf == 1 && d.req
    let t := s.setCan n fun c => { c with
      stopped := true, link := .integrating, txCancelled := min 65535 (c.txCancelled + pend.length)
      descs := (canDescs s n).map fun d => if pend.any fun o => o.buf == d.buf then { d with cancelled := true } else d }
    raise t evCanRamFault (8 + n.val) (place n.val 24 8 + g)
  else if hit.isEmpty then
    (if fifoCovers s n 0 g || fifoCovers s n 1 g then
       raise (s.setCan n fun c => { c with rxLost := satInc 16 c.rxLost }) evCanRamFault (8 + n.val) (place n.val 24 8 + g)
     else s)
  else
    let t := hit.foldl (fun t d =>
      if bufKind s n d.buf = 1 then (if d.req then canCancel t n d.buf else t)
      else if slotCovers s n d.buf d.slot g && d.req then canLose (t.setDesc n d.buf fun d => { d with req := false }) n d.buf
      else if slotCovers s n d.buf d.shadow g && d.shadowFull then canLose (t.setDesc n d.buf fun d => { d with shadowFull := false }) n d.buf
      else t) s
    raise t evCanRamFault (8 + n.val) (place n.val 24 8 + g)

/-- An uncorrectable error at a 64-bit word of the message RAM. -/
def canRamFault (s : State) (word : Nat) : State := allAxes.foldl (fun t n => canRamFaultAt t n (word / 32)) s

/-- The balls of a controller (R107): CANn_TX and CANn_RX in row AA. -/
def canBalls (n : Fin 4) : List Nat := [0x01000000 + 19 * 32 + 13 + 2 * n.val, 0x01000000 + 19 * 32 + 14 + 2 * n.val]

end Sys2Proof.Machine
end

