-- ==== Sys2Proof/Machine/ContextOps.lean ====
section
/-! DEFINITION. The contexts of the loop engines as they are dispatched (R300 to R302, Tables 11.1, 11.8 and 11.9). -/
namespace Sys2Proof.Machine
open Sys2Proof

def entryBase (k : Nat) : Nat := 48 + 16 * k
def ctxU (s : State) (k off size : Nat) : Nat := cfgU s secContexts 0 (entryBase k + off) size

/-- The context number of a kind and instance, the `which`-th of them. -/
def ctxNumber (s : State) (kind inst which : Nat) : Option Nat :=
  ((List.range 124).filter fun k => ctxU s k 0 1 == kind && ctxU s k 1 1 == inst)[which]?

/-- An engine dispatches: its clock runs, it has not stopped at Tm, and it has not stopped by itself (R309, R311). A failed engine goes on
until Tm. -/
def engineRuns (s : State) (e : Engine) : Bool := !bitAt s.clk.lost 1 && !e.stopped && !e.hung

/-- The context of a kind and instance, the `which`-th of them, is on an engine that dispatches (R300, R311). -/
def ctxRuns (s : State) (kind inst which : Nat) : Bool :=
  match ctxNumber s kind inst which with
  | none => false
  | some k => s.rig.engines.toList.any fun e => e.ctx.contains k && engineRuns s e

/-- A dispatch of a context on its engine; `late` says that it finished after its deadline, `busy` is the busy fraction of the 1 ms window that
it falls in (Table 11.9). -/
def Engine.dispatch (k : Nat) (late : Bool) (busy : Nat) (e : Engine) : Engine :=
  { e with
    dispatches := (e.dispatches + 1) % 2 ^ 32, late := if late then satInc 16 e.late else e.late
    peak := max e.peak busy, overran := e.overran.filter (· != k) }

/-- A dispatch that has completed is counted on its engine and ends a run of overruns of its context (R302); then the engine writes the
context's state to its mirror. State holds that state once, and a mirror never differs from it between two dispatches (log entry 229).
Whether the dispatch met its deadline, and how busy the engine was, depend on timing that the model leaves out: a free value says so (log
entry 5). -/
def noteCtx (s : State) (k : Nat) : State :=
  let (f, t) := drawNat s
  let engines := t.rig.engines.map fun e => if e.ctx.contains k then e.dispatch k (bitAt f 0) (f / 2 % 10001) else e
  { t with rig := { t.rig with engines := engines } }

/-- A dispatch of the context of a kind and instance, the `which`-th of them. -/
def noteDispatch (s : State) (kind inst which : Nat) : State :=
  match ctxNumber s kind inst which with
  | none => s
  | some k => noteCtx s k

/-- The FILTER contexts of an axis, with DIV (Table 11.8). -/
def filterCtxs (s : State) (n : Fin 4) : List (Nat × Nat) :=
  if !cfgHas s secContexts 0 then [] else
  ((List.range 124).filter fun k => ctxU s k 0 1 == 9 && ctxU s k 1 1 == n.val).map fun k => (k, ctxU s k 3 1)

/-- FILTER is dispatched at every DIV-th valley of its axis (Table 11.1). The spec gives a filter no input and no output, so that the dispatch
itself is all there is; which valleys are the DIV-th ones is not said, and the valley count that DIV divides is taken: DESIGN CHOICE (log
entry 265), unsafe. -/
def filterDispatches (s : State) (n : Fin 4) : State :=
  (filterCtxs s n).foldl (fun t x =>
    if (t.axis n).pwm.carrier % max 1 x.2 == 0 && t.rig.engines.toList.any (fun e => e.ctx.contains x.1 && engineRuns t e) then noteCtx t x.1 else t) s

end Sys2Proof.Machine
end

