-- ==== Sys2Proof/Machine/Trips.lean ====
section
/-! DEFINITION. Trips, fast comparators and Safe Torque Off: rows STO_ENGAGED to LIVENESS_LOSS and their counterparts
(R149 to R173, R592, R18 to R23). -/
namespace Sys2Proof.Machine
open Sys2Proof

/-! ## What a source does to its scope -/

/-- A CBC block on the scope of an entry of axis `n` (R157); the period counts as blocked on `n` (R160). -/
def blockScope (s : State) (n : Fin 4) (off : Nat) : State :=
  let t := (axMembers s n).foldl (fun t m => t.setAxis m fun a => { a with pwm := { a.pwm with
    block := legs3.foldl (fun v l => v.set l.val (v[l.val] || cbcCovers s n off m l)) a.pwm.block } }) s
  t.setAxis n fun a => { a with pwm := { a.pwm with blockedPeriod := true } }

/-- The escalation of a CBC trip (R160): a latched trip with source ESCALATED; the latches of the CBC sources follow the
handover rule from here on. -/
def escalate (s : State) (n : Fin 4) : State :=
  let t := s.setAxis n fun a => { a with trip := { a.trip with
    escCmp := a.trip.cmpCbc, escDsf := a.trip.dsfCbc, cmpLatch := a.trip.cmpLatch ||| a.trip.cmpCbc
    dsfLatch := a.trip.dsfLatch ||| a.trip.dsfCbc, cmpCbc := 0, dsfCbc := 0 } }
  raiseAxis (latchTrip t n bitEscalated) evCbcEscalated n 0

/-- A block begins to hold in a period that no block held in: CBC_CONSECUTIVE counts it, and the trip escalates at
CBC_LIMIT (R160). -/
def countBlocked (s : State) (n : Fin 4) : State :=
  let t := s.setAxis n fun a => { a with trip := { a.trip with cbcConsec := min 255 (a.trip.cbcConsec + 1) } }
  if cfgU s secTrip n.val 1 1 ≤ (t.axis n).trip.cbcConsec ∧ !bitAt (t.axis n).trip.src bitEscalated then escalate t n else t

/-- A CBC trip by a comparator or fast flag (R157, R160, R163): the scope is blocked to the period's end. -/
def cbcTrip (s : State) (n : Fin 4) (off : Nat) : State :=
  let first := !(s.axis n).pwm.blockedPeriod
  let t := (blockScope s n off).setAxis n fun a => { a with trip := { a.trip with cbcTrips := satInc 24 a.trip.cbcTrips } }
  let u := raiseLimited t evCbcTrip n.val n.val (place n.val 24 8)
  if first then countBlocked u n else u

/-! ## Fast comparators (R150 to R153) -/

/-- The threshold in volts: the DAC code nearest to THRESHOLD (R150). -/
def cmpThreshold (s : State) (n : Fin 4) (off : Nat) : Q :=
  let code : Int := max 0 (min 4095 (roundHalfUp (cfgF s secTrip n.val (off + 4) * 4096 / 3)))
  (code : Q) * 3 / 4096

/-- HYST of an entry in volts (Table 6.9). -/
def cmpHyst (s : State) (n : Fin 4) (off : Nat) : Q :=
  match bitsOf (cfgU s secTrip n.val (off + 1) 1) 2 2 with | 0 => 0 | 1 => 1 / 100 | 2 => 1 / 50 | _ => 1 / 25

/-- The output of a comparator at an input of `v` volts: past the threshold, and once active until the input has moved back past it by
the hysteresis. POLARITY 1 trips below (R150). -/
def cmpOutput (s : State) (n : Fin 4) (off : Nat) (was : Bool) (v : Q) : Bool :=
  let by_ : Q := if bitAt (cfgU s secTrip n.val (off + 1) 1) 1 then cmpThreshold s n off - v else v - cmpThreshold s n off
  decide (0 < by_) || (was && decide (-(cmpHyst s n off) < by_))

/-- A comparator acts (Table 6.2) and raises its trigger (Table 7.2): outside its blanking window, or at the end of it (R152). -/
def actCmp (s : State) (n : Fin 4) (cmp : Fin 24) (off : Nat) : State :=
  let act := entryAction s n off
  let t := raiseTrigger (s.setAxis n fun a => { a with trip := { a.trip with cmpAct := setBit a.trip.cmpAct cmp.val true } }) (0x20 + cmp.val)
  let data := place n.val 24 8 + place cmp.val 8 8 + act
  let trips (u : State) : State := u.setAxis n fun a => { a with trip := { a.trip with cmpTrips := setBit a.trip.cmpTrips cmp.val true } }
  let latch (u : State) : State := u.setAxis n fun a => { a with trip := { a.trip with cmpLatch := setBit a.trip.cmpLatch cmp.val true } }
  if act = 0 then raiseLimited t evCmpReport cmp.val n.val (place cmp.val 24 8)
  else if act = 1 then
    cbcTrip (if bitAt (s.axis n).trip.escCmp cmp.val then latch t
      else t.setAxis n fun a => { a with trip := { a.trip with cmpCbc := setBit a.trip.cmpCbc cmp.val true } }) n off
  else if act = 2 then raise (latchTrip (latch (trips t)) n bitCmp) evCmpTrip n.val data
  else raise (latchTrip (trips t) n bitCmp) evCmpTrip n.val data

/-- The axis whose TRIP section uses a comparator, and the entry (R151). -/
def cmpUser (s : State) (cmp : Fin 24) : Option (Fin 4) := allAxes.find? fun n => axEnabled s n && (cmpEntry s n cmp.val).isSome

/-- The input of a comparator moves to a voltage (R150, R152, R153). A crossing inside the blanking window has no effect until the
window ends. -/
def execCmpTrip (cmp : Fin 24) (volts : Q) (s : State) : Result :=
  match cmpUser s cmp with
  | none => .next s
  | some n =>
    let off := (cmpEntry s n cmp.val).getD 0
    let out := cmpOutput s n off (bitAt (s.axis n).trip.cmpOut cmp.val) volts
    let t := s.setAxis n fun a => { a with trip := { a.trip with
      cmpOut := setBit a.trip.cmpOut cmp.val out, cmpAct := if out then a.trip.cmpAct else setBit a.trip.cmpAct cmp.val false
      cmpGone := if out || !bitAt a.trip.cmpOut cmp.val then a.trip.cmpGone else a.trip.cmpGone.set cmp.val s.clk.now } }
    finish s (if out && !bitAt (s.axis n).trip.cmpAct cmp.val && !blanked s n off then actCmp t n cmp off else t)

/-- A comparator whose latched trip and level-2 latch stand: acting again adds nothing to them. -/
def cmpStands (s : State) (n : Fin 4) (cmp : Fin 24) (off : Nat) : Bool :=
  let t := (s.axis n).trip
  bitAt t.cmpTrips cmp.val && (entryAction s n off == 3 || (entryAction s n off == 2 && bitAt t.cmpLatch cmp.val))

/-- The blanking window of one active comparator opens, and it is inactive until the window ends, or ends, and it acts if its output is
still past the threshold (R152). -/
def blankCmp (s : State) (k : Fin 24) : State :=
  match cmpUser s k with
  | none => s
  | some n =>
    let off := (cmpEntry s n k.val).getD 0
    let act (on : Bool) : State := s.setAxis n fun a => { a with trip := { a.trip with cmpAct := setBit a.trip.cmpAct k.val on } }
    if !bitAt (s.axis n).trip.cmpOut k.val then s
    else if blanked s n off then act false
    else if bitAt (s.axis n).trip.cmpAct k.val then s
    else if cmpStands s n k off then act true
    else actCmp s n k off

/-- The blanking windows of one instant (R152). -/
def blankEnds (s : State) : State :=
  if allAxes.all fun n => (s.axis n).trip.cmpOut == 0 then s else (List.finRange 24).foldl blankCmp s

/-! ## Delta-sigma fast flags (R154) -/

/-- A fast flag acts (Table 6.2). Table 22.2 gives CMP_REPORT the comparator in bits 31:24; what a fast flag puts there is stated
nowhere and is free (log entry 181). -/
def actDsf (s : State) (n : Fin 4) (ch : Fin 16) (off : Nat) : State :=
  let act := entryAction s n off
  let t := s.setAxis n fun a => { a with trip := { a.trip with dsfAct := setBit a.trip.dsfAct ch.val true } }
  let data := place n.val 24 8 + place ch.val 8 8 + act
  let trips (u : State) : State := u.setAxis n fun a => { a with trip := { a.trip with dsfTrips := setBit a.trip.dsfTrips ch.val true } }
  let latch (u : State) : State := u.setAxis n fun a => { a with trip := { a.trip with dsfLatch := setBit a.trip.dsfLatch ch.val true } }
  if act = 0 then
    (let (k, u) := drawNat t
     raiseLimited u evCmpReport (24 + ch.val) n.val (place k 24 8))
  else if act = 1 then
    cbcTrip (if bitAt (s.axis n).trip.escDsf ch.val then latch t
      else t.setAxis n fun a => { a with trip := { a.trip with dsfCbc := setBit a.trip.dsfCbc ch.val true } }) n off
  else if act = 2 then raise (latchTrip (latch (trips t)) n bitDsf) evDsfTrip n.val data
  else raise (latchTrip (trips t) n bitDsf) evDsfTrip n.val data

/-- The fast filter of a channel gives a fraction of full scale: the flag is active above HIGH or below LOW, with no blanking and no
hysteresis (R154). -/
def execDsfTrip (ch : Fin 16) (value : Q) (s : State) : Result :=
  match allAxes.find? fun n => axEnabled s n && (dsfEntry s n ch.val).isSome with
  | none => .next s
  | some n =>
    let off := (dsfEntry s n ch.val).getD 0
    let out := decide (cfgF s secTrip n.val (off + 4) < value) || decide (value < cfgF s secTrip n.val (off + 8))
    if out then finish s (if bitAt (s.axis n).trip.dsfAct ch.val then s else actDsf s n ch off)
    else finish s (s.setAxis n fun a => { a with trip := { a.trip with
      dsfAct := setBit a.trip.dsfAct ch.val false, dsfGone := if bitAt a.trip.dsfAct ch.val then a.trip.dsfGone.set ch.val s.clk.now else a.trip.dsfGone } })

/-! ## Driver faults (R155, R156) -/

/-- A driver fault input falls (R155): the leg or the axis is forced off at level 2, and a latched trip is set. An input that is not
evaluated, or not yet, is low and no more. -/
def execDriverFault (axis : Fin 4) (leg : Fin 3) (s : State) : Result :=
  if !axPresent s axis then .next s else
  let low := s.setAxis axis fun a => { a with trip := { a.trip with fltLow := setBit a.trip.fltLow leg.val true } }
  if !fltPresent s axis leg || !hardwareUp s then finish s low else
  finish s (faultAct low axis leg)

/-- A driver fault input returns high (R155): its DRVFLT bit clears; the latched trip stays. -/
def execFaultNHigh (axis : Fin 4) (leg : Fin 3) (s : State) : Result :=
  finish s (s.setAxis axis fun a => { a with trip := { a.trip with fltLow := setBit a.trip.fltLow leg.val false, fltGone := a.trip.fltGone.set leg.val s.clk.now } })

/-- The sources of a mask that are not in another. -/
def without (a b : Nat) : Nat := a &&& ((2 ^ (max a.log2 b.log2 + 1) - 1) ^^^ b)

/-- The bits of a mask whose sources, inactive since the given ticks, have been so for HANDOVER (R162). -/
def quietFor {k : Nat} (s : State) (n : Fin 4) (mask : Nat) (gone : Vector Nat k) : Nat :=
  ((List.finRange k).map fun j => if bitAt mask j.val && decide (cfgF s secTrip n.val 4 ≤ ((s.clk.now - gone[j.val] : Nat) : Q) / 100000000) then
    place 1 j.val 1 else 0).sum

/-- Level-2 latches whose sources have been inactive for HANDOVER are released into level 3, once each (R162): of the named comparators, fast
flags and driver fault inputs those latched, inactive, quiet for HANDOVER and never handed over, while the PWM clock runs. -/
def execHandover (axis : Fin 4) (cmps dsfs flts : Nat) (s : State) : Result :=
  let a := (s.axis axis).trip
  let c := quietFor s axis (without (without (cmps &&& a.cmpLatch) a.cmpHanded) (a.cmpOut ||| a.cmpAct)) a.cmpGone
  let d := quietFor s axis (without (without (dsfs &&& a.dsfLatch) a.dsfHanded) a.dsfAct) a.dsfGone
  let f := quietFor s axis (without (without (flts &&& a.fltLatch) (fltLowNow s axis)) a.fltHanded) a.fltGone
  if bitAt s.clk.lost 2 || a.src = 0 || (c = 0 && d = 0 && f = 0) then .next s else
  finish s (s.setAxis axis fun a => { a with trip := { a.trip with
    cmpLatch := without a.trip.cmpLatch c, dsfLatch := without a.trip.dsfLatch d, fltLatch := without a.trip.fltLatch f
    cmpHanded := a.trip.cmpHanded ||| c, dsfHanded := a.trip.dsfHanded ||| d, fltHanded := a.trip.fltHanded ||| f } })

/-! ## Safe Torque Off (R166 to R170) -/

/-- A low on a STO channel that lasted `ticks` passes its filter (R166): one shorter than 200 ns is ignored and counted, one of 400 ns or
more passes, and the rule leaves open what happens between (log entry 183). -/
def stoPasses (s : State) (ticks : Nat) : Bool × State :=
  if 40 ≤ ticks then (true, s) else if ticks < 20 then (false, s) else
  let (k, t) := drawNat s
  (k % 2 == 1, t)

/-- A STO channel goes low, or STO_INT is raised, which has no filter (R166, R167). -/
def execStoEngaged (src : StoSource) (ticks : Nat) (s : State) : Result :=
  let held := match src with | .chA => s.sto.aLow | .chB => s.sto.bLow | .internal => s.sto.intSet
  if held then .next s else
  match src with
  | .internal => finish s (stoEngage s src)
  | _ =>
    let (ok, t) := stoPasses s ticks
    finish s (if ok then stoEngage t src else { t with sto :=
      if src = .chA then { t.sto with aGlitch := satInc 8 t.sto.aGlitch } else { t.sto with bGlitch := satInc 8 t.sto.bGlitch } })

/-- A channel goes high after its filter: its 5 ms qualification starts and GDEN is switched on again, unless a discrepancy or
STO_INT stands or the other channel is low (R168). -/
def execStoQualifying (src : StoSource) (s : State) : Result :=
  let t := stoSplit s { s with sto := match src with
    | .chA => { s.sto with aLow := false, aHighAt := if s.sto.aLow then s.clk.now else s.sto.aHighAt }
    | .chB => { s.sto with bLow := false, bHighAt := if s.sto.bLow then s.clk.now else s.sto.bHighAt }
    | .internal => s.sto }
  let u := if t.sto.aLow || t.sto.bLow then t else { t with sto := { t.sto with qualifying := !(t.sto.aQual && t.sto.bQual) } }
  finish s (askGden u)

/-- A channel has been high for 5 ms (R168): it counts as high. With both qualified a discrepancy that has seen both low
clears (R169), and STO_RELEASED is raised. -/
def execStoReleased (src : StoSource) (s : State) : Result :=
  let for5ms (qualified low : Bool) (since : Nat) : Bool := !qualified && !low && decide (since + 500000 ≤ s.clk.now)
  let due := match src with
    | .chA => for5ms s.sto.aQual s.sto.aLow s.sto.aHighAt | .chB => for5ms s.sto.bQual s.sto.bLow s.sto.bHighAt | .internal => false
  if !due then .next s else
  let t := { s with sto := match src with
    | .chA => { s.sto with aQual := true } | .chB => { s.sto with bQual := true } | .internal => s.sto }
  if t.sto.aQual && t.sto.bQual then
    let u := { t with sto := { t.sto with
      qualifying := false, discrepancy := t.sto.discrepancy && !t.sto.bothLow, bothLow := t.sto.bothLow && !t.sto.discrepancy } }
    finish s (raise (askGden u) evStoReleased 0xFF (place 0xFF 24 8))
  else finish s t

/-- One channel low and the other high for 20 ms ±2 % (R169), so at least 19.6 ms: the outputs stay off until both have been low together
and then both high and qualified. -/
def execStoDiscrepancy (s : State) : Result :=
  if s.sto.aLow = s.sto.bLow || s.sto.discrepancy || decide (s.clk.now < s.sto.differAt + 1960000) then .next s else
  let t := setGden { s with sto := { s.sto with discrepancy := true, bothLow := false } } false
  finish s (raise t evStoDiscrepancy 0xFF (place 0xFF 24 8 + if s.sto.aLow then 0 else 1))

/-! ## Requests from firmware and clock losses -/

/-- A firmware trip request taken from the FIFO (R149). The cause is the code of the event that the requester raises. On an absent axis it is
a write to an absent unit, by Pair A (R4, log entry 201). -/
def execFirmwareTripRequest (axis : Fin 4) (cause : Nat) (s : State) : Result :=
  if !axPresent s axis then finish s (absentWrite s 0) else finish s (firmwareTrip s axis cause)

/-- The number of a monitored domain (Table 1.3), which CLOCK_LOSS carries; XIN is none of them (log entry 9). -/
def domainNumber : ClockDomain → Nat
  | .core => 0 | .fabric => 1 | .pwm => 2 | .adc => 3 | .can => 4 | .position => 5 | .halyard => 6 | .backstay => 7
  | .aon => 8 | .xin => 9

/-- A latched trip with source CLOCK, its domain kept for the clear test (Table 6.4). -/
def clockTripOne (s : State) (n : Fin 4) (d : Nat) : State :=
  latchTrip (s.setAxis n fun a => { a with trip := { a.trip with clockDomains := setBit a.trip.clockDomains d true } }) n bitClock

/-- The missing-edge detector (R22, R144): every main gate output is off within 100 ns of the last PWM clock edge. Drive time
stops (R17). The reaction that latches SAFE follows when the monitor declares the loss (R18, R19). -/
def execPwmClockLoss (s : State) : Result :=
  finish s { s with clk := { s.clk with driveRuns := false, lost := setBit s.clk.lost 2 true } }

end Sys2Proof.Machine
end

