-- ==== Sys2Proof/Machine/PwmUnit.lean ====
section
/-! DEFINITION. The PWM generator: carriers, compare sets, commits, edge records, the safe pattern (R111 to R148). -/
namespace Sys2Proof.Machine
open Sys2Proof

/-! ## Fields of the PWM section (Table 5.8) -/

/-- RELOAD selects the valley, the peak or both. -/
def reloadAt (s : State) (n : Fin 4) (peak : Bool) : Bool := bitAt (pwmU s n 1 1) (if peak then 1 else 0)
def sensePresent (s : State) (n : Fin 4) (leg : Fin 3) : Bool := bitAt (pwmU s n 3 1) leg.val
def wdLimit (s : State) (n : Fin 4) : Nat := max 1 (pwmU s n 75 1)

/-- A run-time PERIOD held in the range of the leader, whose carrier every member runs from (R118, R127). -/
def clampPeriod (s : State) (n : Fin 4) (p : Nat) : Nat := max (periodClocks s n) (min (periodMaxClocks s n) p)

/-! ## The start of a carrier (R117, R118, R491) -/

/-- Taps from the valley of carrier count 0 of an axis on the ring timebase to now: EPOCH + PHASE + p × PHASE_STEP (R491). -/
def ringTaps (s : State) (n : Fin 4) : Int :=
  let step := match grpOf s n with | some g => tapsOf (grpF s g 24) | none => 0
  128 * ((s.clk.drive.toNat : Int) - (s.ring.epoch : Int)) - (pwmTaps s n 12 : Int) - (s.ring.pos : Int) * step

/-- The carrier follows the ring timebase: by SYNC 5, by the SYNC of its leader (R118), or by that of the axis it is synchronised to (R117).
`fuel` bounds the chain. -/
def onRing (s : State) : Nat → Fin 4 → Bool
  | 0, _ => false
  | fuel + 1, n =>
    let l := axLeader s n
    let sync := pwmU s l 2 1
    sync == 5 || (1 ≤ sync && sync ≤ 4 && onRing s fuel (Fin.ofNat 4 (sync - 1)))

/-- Where a carrier stands, in taps after its valley (R117): one that `live` names where it is; free carriers at their valley; one on the
timebase of another axis PHASE after that axis's valley; one on the ring timebase by R491; a group member with its leader, half a period on
where its PHASE says so (R118). `fuel` bounds the chain of SYNC references. -/
def basePos (s : State) (live : Fin 4 → Bool) : Nat → Fin 4 → Nat
  | 0, _ => 0
  | fuel + 1, n =>
    let per : Int := 32 * (periodClocks s n : Int)
    let l := axLeader s n
    let sync := pwmU s n 2 1
    if live n then (s.axis n).pwm.pos + (s.axis n).pwm.overTaps
    else if per = 0 then 0
    else if l ≠ n then (((basePos s live fuel l : Int) + if antiPhase s n then per / 2 else 0) % per).toNat
    else if sync = 5 then (ringTaps s n % per).toNat
    else if sync = 0 then 0
    else (((basePos s live fuel (Fin.ofNat 4 (sync - 1)) : Int) - (pwmTaps s n 12 : Int)) % per).toNat

/-- Where a carrier stands as it starts: one that runs already goes on. -/
def startPos (s : State) (n : Fin 4) : Nat := basePos s (fun m => (s.axis m).pwm.running) 5 n

/-- A carrier that stands at a position. -/
def atPos (edge : Bool) (p : Pwm) (pos : Nat) : Pwm :=
  let past := decide (16 * p.active.period ≤ pos)
  { p with pos := pos, overTaps := 0, peaked := past, down := past && !edge }

/-- Carriers of newly enabled axes start, those of axes no longer enabled stop (R113, R117). -/
def startCarriers (s : State) : State :=
  s.forAxes axPresent fun t n =>
    if axEnabled t n && !(t.axis n).pwm.running then
      let per := periodClocks t n
      t.setAxis n fun a =>
        let p := { a.pwm with
          running := true, down := false, carrier := 0, eventAt := t.clk.drive.toNat, eventPeak := false, wdCount := 0, committed := false
          shadow := { a.pwm.shadow with period := per }, active := { CompareSet.reset with period := per }, before := { CompareSet.reset with period := per } }
        { a with pwm := atPos (pwmEdge t n) p (startPos s n), saf := { a.saf with selection := .freewheel, ownAsc := false, idleHandled := false } }
    else if axEnabled t n then t
    else t.setAxis n fun a => { a with pwm := { a.pwm with running := false, safepat := 0 } }

/-- The carriers that follow the ring timebase take their place on it, those of SYNC 5 and their group members with the count of R491 (R503). -/
def restartCarriers (s : State) : State :=
  s.forAxes (fun u n => axEnabled u n && (u.axis n).pwm.running && onRing s 5 n) fun u n =>
    let l := axLeader s n
    let per : Int := 32 * (periodClocks s l : Int)
    if per = 0 then u else
    let pos := basePos s (fun m => (s.axis m).pwm.running && !onRing s 5 m) 5 n
    let count := (ringTaps s l / per % 2 ^ 32).toNat
    u.setAxis n fun a =>
      let p := { a.pwm with carrier := if pwmU s l 2 1 = 5 then count else a.pwm.carrier }
      { a with pwm := atPos (pwmEdge s n) p pos }

/-! ## Reloads -/

/-- A pending set of one axis takes the place of its active set with a PERIOD of its leader (R115, R125, R127), whose clamp stands at the leader. -/
def transferOne (s : State) (l n : Fin 4) (set : CompareSet) (period : Nat) : State :=
  let p := clampPeriod s l period
  let t := s.setAxis n fun a => { a with pwm := { a.pwm with active := { set with period := p }, periodClamp := n == l && p != period, pending := none, deferred := false } }
  if n = l ∧ p ≠ period then raiseLimited t evPeriodClamped n.val n.val (place n.val 24 8) else t

/-- The pending set of a leader changes PERIOD (R127). -/
def changesPeriod (s : State) (n : Fin 4) : Bool :=
  match (s.axis n).pwm.pending with
  | some set => clampPeriod s n set.period != (s.axis n).pwm.active.period
  | none => false

/-- The pending sets of a group transfer together (R119): at a selected reload, but where the leader's set changes PERIOD at the next
valley, selected or not (R127). -/
def transferDue (s : State) (l : Fin 4) (peak : Bool) : Bool :=
  (s.axis l).pwm.pending.isSome && (if changesPeriod s l then !peak else reloadAt s l peak)

/-- The pending set of a member transfers with the PERIOD of its leader, whose carrier it runs from (R118). -/
def transferMember (l : Fin 4) (s : State) (m : Fin 4) : State :=
  match (s.axis m).pwm.pending, (s.axis l).pwm.pending with
  | some set, some lead => transferOne s l m set lead.period
  | some set, none => transferOne s l m set (s.axis l).pwm.active.period
  | none, _ => s

def countOverrun (s : State) (n : Fin 4) : State :=
  raiseLimited (s.setAxis n fun a => { a with pwm := { a.pwm with commitOverrun := satInc 16 a.pwm.commitOverrun } }) evCommitOverrun n.val n.val (place n.val 24 8)
def countLate (s : State) (n : Fin 4) : State :=
  raiseLimited (s.setAxis n fun a => { a with pwm := { a.pwm with lateCommit := satInc 16 a.pwm.lateCommit } }) evLateCommit n.val n.val (place n.val 24 8)

/-- A set taken in the reload cycle itself becomes pending, deferred to the next selected reload (Table 5.2); a set that still waits there
is replaced (R126). -/
def deferLate (s : State) (l : Fin 4) (ms : List (Fin 4)) : State :=
  if (s.axis l).pwm.late.isNone then s else
  let t := ms.foldl (fun u m => u.setAxis m fun a => { a with pwm := { a.pwm with pending := a.pwm.late, late := none, deferred := true } }) s
  if (s.axis l).pwm.pending.isSome then countOverrun t l else t

/-- At a selected reload a COMMIT that still waits for SHADOW_DONE of its dispatch is lost, as a late one, and the marks of that dispatch go
(R227). That a selected reload ends a dispatch's turn is DEDUCED (log entry 185), unsafe. -/
def endDispatch (s : State) (l : Fin 4) (ms : List (Fin 4)) : State :=
  let t := ms.foldl (fun u m => u.setAxis m fun a => { a with pwm := { a.pwm with shadowDone := false, commitHeld := false } }) s
  if (s.axis l).pwm.commitHeld then countLate t l else t

/-- What a selected reload does besides a transfer. -/
def selectedReload (s : State) (l : Fin 4) (ms : List (Fin 4)) : State :=
  (ms.foldl (fun u m => u.setAxis m fun a => { a with pwm := { a.pwm with safeHeld := !a.pwm.safeWritten, safeWritten := false } })
    (endDispatch (deferLate s l ms) l ms))

/-- The sources of a mask whose entries take CBC. -/
def cbcCmps (s : State) (n : Fin 4) (mask : Nat) : Nat :=
  if mask = 0 then 0 else ((List.range 24).map fun k =>
    if bitAt mask k && (match cmpEntry s n k with | some off => entryAction s n off == 1 | none => false) then place 1 k 1 else 0).sum
def cbcDsfs (s : State) (n : Fin 4) (mask : Nat) : Nat :=
  if mask = 0 then 0 else ((List.range 16).map fun k =>
    if bitAt mask k && (match dsfEntry s n k with | some off => entryAction s n off == 1 | none => false) then place 1 k 1 else 0).sum

/-- The valley of a leader counts the carrier of its whole group (R116, R119). -/
def countCarrier (s : State) (l : Fin 4) (ms : List (Fin 4)) : State :=
  let count := ((s.axis l).pwm.carrier + 1) % 2 ^ 32
  ms.foldl (fun u m => u.setAxis m fun a => { a with pwm := { a.pwm with carrier := count } }) s

/-- The sources of a mask become inactive at a tick. -/
def goneAt {k : Nat} (mask now : Nat) (v : Vector Nat k) : Vector Nat k :=
  if mask = 0 then v else Vector.ofFn fun j => if bitAt mask j.val then now else v[j.val]

/-- The valley of an axis counts its watchdog (R128), and samples its CBC sources: those that the masks do not name
are inactive, and their latches are released (R159). -/
def valleyCount (s : State) (cmps dsfs : Nat) (n : Fin 4) : State :=
  s.setAxis n fun a =>
    let goneC := without (cbcCmps s n (a.trip.cmpAct ||| a.trip.cmpOut)) cmps
    let goneD := without (cbcDsfs s n a.trip.dsfAct) dsfs
    { a with
      prof := { a.prof with valleys := a.prof.valleys + 1 }
      pwm := { a.pwm with
        down := false, committed := false
        wdCount := if a.pwm.committed then 0 else min (wdLimit s n) (a.pwm.wdCount + 1) }
      trip := { a.trip with
        cmpAct := without a.trip.cmpAct goneC, cmpOut := without a.trip.cmpOut goneC, dsfAct := without a.trip.dsfAct goneD
        cmpGone := goneAt goneC s.clk.now a.trip.cmpGone, dsfGone := goneAt goneD s.clk.now a.trip.dsfGone
        cmpCbc := a.trip.cmpCbc &&& cmps, dsfCbc := a.trip.dsfCbc &&& dsfs
        cbcConsec := if a.pwm.blockedPeriod then a.trip.cbcConsec else 0 } }

/-- The new period starts blocked where a CBC latch of some member still covers the leg (R159); a period that a source of the axis itself
blocks counts (R160). -/
def valleyBlocks (s : State) (n : Fin 4) : State :=
  let own := (s.axis n).trip.cmpCbc != 0 || (s.axis n).trip.dsfCbc != 0
  let t := s.setAxis n fun a => { a with pwm := { a.pwm with
    block := #v[cbcHolds s n 0, cbcHolds s n 1, cbcHolds s n 2], blockedPeriod := own } }
  if own then countBlocked t n else t

/-! ## The legs at an event of the carrier (R114, R115) -/

/-- The carrier event of a leader as its member meets it (R118). -/
def memberPeak (s : State) (peak : Bool) (m : Fin 4) : Bool := if antiPhase s m then !peak else peak

/-- The half period that an event ends: its edges that are still to come are issued now. An event that is commanded before its time takes
the carrier there: DESIGN CHOICE (log entry 186), unsafe. One that is commanded after its time has been reached changes no instant. -/
def reachEvent (s : State) (peak : Bool) (n : Fin 4) : State :=
  let stop := (if peak then 16 else 32) * (s.axis n).pwm.active.period
  runLegs s n stop stop (tapNow s) (tapNow s + 1)

/-- The fall that a leg still owes at the valley: CMPB = 0 of a centre-aligned carrier, unless CMPA = 0 follows (R114). -/
def owesFall (x : LegTiming) (g : GateLeg) : Bool :=
  !g.fell && (match fallAt x.edge x.period x.a x.b with | some f => decide (32 * x.period ≤ f) | none => false)

/-- A leg as the next half period begins. `moved` says that a set has transferred: a full-low or full-high one holds H from here on. -/
def beginHalf (x : LegTiming) (peak moved owed : Bool) (t : Nat) (g : GateLeg) : GateLeg :=
  let pos := if peak then 16 * x.period else 0
  let g0 := if peak then { g with rose := g.rose || !x.edge } else freeLeg { g with rose := false, fell := false }
  let g1 := if moved then replanPulse x g0 pos t else g0
  if moved && fullLow x.edge x.period x.a x.b then goLevel x g1 false pos t
  else if moved && fullHigh x.edge x.period x.a x.b then goLevel x g1 true pos t
  else if owed && !fullHigh x.edge x.period x.a x.b && riseAt x.edge x.period x.a x.b != some 0 then goLevel x g1 false pos t
  else g1

/-- The carrier of an axis has passed its valley or peak `over` taps ago, and its legs have begun the next half period there: what they have done
since follows at its own instants. -/
def leaveEvent (s : State) (peak moved : Bool) (owed : Fin 3 → Bool) (n : Fin 4) : State :=
  let p := (s.axis n).pwm
  let ran := min p.overTaps (16 * p.active.period)
  let start := if peak then 16 * p.active.period else 0
  let t0 := tapNow s - ran
  let t := runLegs (eachLeg s n fun l g => beginHalf (legTiming s n l) peak moved (owed l) t0 g) n start (start + ran) t0 (tapNow s)
  let u := t.setAxis n fun a => { a with pwm := { a.pwm with
    pos := start + ran, overTaps := p.overTaps - ran, peaked := peak, down := if peak then !pwmEdge s n else false } }
  if axLeader s n = n then carrierTriggers u n start (start + ran) else u

/-- The carrier event that the current loop measures its sample against (R188). -/
def noteEvent (s : State) (n : Fin 4) (peak : Bool) : State :=
  s.setAxis n fun a => { a with pwm := { a.pwm with before := a.pwm.active, eventAt := s.clk.drive.toNat - a.pwm.overTaps / 128, eventPeak := peak } }

/-- A position interface acts on an event of the carrier of axis `n`: its CODE is the valley, the peak or both (Table 7.2). -/
def triggersAt (s : State) (i n : Fin 4) (peak : Bool) : Bool :=
  let code := posU s i 23 1
  code == 0x18 + n.val || code == (if peak then 0x14 else 0x10) + n.val

/-- A carrier trigger at an interface, by the codes that the members of a group share with their leader (R176): MODE 3 starts a serial frame, or counts an overrun while one runs (R246); MODE 2 latches
its quadrant count (R242). -/
def positionTrigger (s : State) (n : Fin 4) (peak : Bool) : State :=
  allAxes.foldl (fun t i =>
    if !triggersAt t i n peak || bitAt t.clk.lost 5 then t
    else if posMode t i = 3 then
      (if (t.ifc i).frameBusy then t.setIfc i fun p => { p with serOverrun := satInc 8 p.serOverrun }
       else t.setIfc i fun p => { p with frameBusy := true, frameAt := t.clk.drive.toNat })
    else if posMode t i = 2 then t.setIfc i fun p => { p with quadAt := p.quad }
    else t) s

/-- One event of the carrier of a group (R115, R118, R119): the half period ends, the pending sets transfer, the next half period begins. -/
def carrierEvent (s : State) (l : Fin 4) (peak : Bool) (cmps dsfs : Nat) : State :=
  let ms := axMembers s l
  let at_ (u : State) (m : Fin 4) : Bool := memberPeak u peak m
  let s0 := carrierTriggers s l (s.axis l).pwm.pos ((if peak then 16 else 32) * (s.axis l).pwm.active.period)
  let a := ms.foldl (fun u m => reachEvent u (at_ u m) m) s0
  let owed (m : Fin 4) (k : Fin 3) : Bool := !at_ a m && owesFall (legTiming a m k) (a.axis m).pwm.gates[k.val]
  let b := ms.foldl (fun u m => if at_ u m then u else valleyCount u cmps dsfs m) (if peak then a else countCarrier a l ms)
  let c := ms.foldl (fun u m => if at_ u m then u else valleyBlocks u m) b
  let d := ms.foldl (fun u m => noteEvent u m (at_ u m)) c
  let goes := transferDue d l peak
  let e := if goes then (ms.reverse).foldl (transferMember l) d else d
  let f := if reloadAt e l peak then selectedReload e l ms else e
  ms.foldl (fun u m => leaveEvent u (at_ u m) goes (owed m) m) f

/-- The valley or the peak of a leader's carrier (R112), which is one of every member of its group (R118). The first selected reload after
a swap is the boundary of their PWM and trip parameters (R103). `cmps` and `dsfs` are the sources active at the synchronisers. -/
def execCarrierReload (axis : Fin 4) (peak : Bool) (cmps dsfs : Nat) (s : State) : Result :=
  if bitAt s.clk.lost 2 || !axEnabled s axis || !(s.axis axis).pwm.running || axLeader s axis != axis then .next s else
  let ms := axMembers s axis
  let b := if s.cfg.lag != 0 && reloadAt s axis peak then tackReached s (ms.map (·.val)) else s
  let v := carrierEvent b axis peak cmps dsfs
  let w := ms.foldl (fun u m => if memberPeak u peak m then u else filterDispatches u m) v
  finish s (ms.foldl (fun u m => positionTrigger u m peak) w)

/-- The watchdog (R128): WD_LIMIT carrier periods without a COMMIT set a latched trip on the axis or its group. After a loss of the
FABRIC clock the device latches SAFE with it (Table 1.5). -/
def execPwmWatchdog (axis : Fin 4) (s : State) : Result :=
  if !axEnabled s axis || axLeader s axis != axis || (s.axis axis).pwm.wdCount < wdLimit s axis then .next s else
  let t := raiseAxis (latchTrip s axis bitWatchdog) evPwmWatchdog axis 0
  finish s (if bitAt s.clk.lost 1 then latchSafe t else t)

/-! ## Shadow sets and commits -/

/-- No write reaches the PWM unit of an axis: the FABRIC or the PWM clock is lost (R143, R144), or the axis is absent (R4). -/
def pwmDeaf (s : State) (n : Fin 4) : Bool := bitAt s.clk.lost 1 || bitAt s.clk.lost 2 || !axPresent s n

/-- A shadow register is written (R124). -/
def execShadowWrite (axis : Fin 4) (reg : ShadowReg) (value : Nat) (s : State) : Result :=
  if !axPresent s axis then finish s (absentEngineWrite s) else
  if pwmDeaf s axis then .next s else
  finish s (s.setAxis axis fun a => { a with pwm := { a.pwm with shadow := match reg with
    | .cmpA leg => { a.pwm.shadow with cmpA := a.pwm.shadow.cmpA.set leg.val value }
    | .cmpB leg => { a.pwm.shadow with cmpB := a.pwm.shadow.cmpB.set leg.val value }
    | .period => { a.pwm.shadow with period := value } } })

/-- The shadow set of one axis is taken as its pending set (R124), or as a set that waits for the present reload to pass. -/
def takeShadow (s : State) (n : Fin 4) (atReload : Bool) : State :=
  s.setAxis n fun a => { a with
    pwm := { a.pwm with
      pending := if atReload then a.pwm.pending else some a.pwm.shadow
      late := if atReload then some a.pwm.shadow else a.pwm.late
      deferred := if atReload then a.pwm.deferred else false
      wdCount := 0, committed := true, shadowDone := false }
    trip := { a.trip with commitSince := true } }

/-- Every other member of the leader's group has reported its shadow set written (R227). -/
def membersDone (s : State) (leader : Fin 4) : Bool :=
  (axMembers s leader).all fun m => m == leader || (s.axis m).pwm.shadowDone

/-- The sets of an axis or of its whole group are snapshot together (R119, R124 to R126). -/
def takeCommit (s : State) (axis : Fin 4) (atReload : Bool) : State :=
  let a := s.axis axis
  let replaced := if atReload then a.pwm.late.isSome else a.pwm.pending.isSome
  let t := (axMembers s axis).foldl (fun u m => takeShadow u m atReload) s
  let t' := t.setAxis axis fun a => { a with pwm := { a.pwm with commitHeld := false } }
  let u := if replaced then countOverrun t' axis else t'
  if atReload then countLate u axis else u

/-- A leader's COMMIT is taken when SHADOW_DONE of every member has arrived, and waits for it otherwise (R227). -/
def leaderCommit (s : State) (axis : Fin 4) (atReload : Bool) : State :=
  if membersDone s axis then takeCommit s axis atReload
  else s.setAxis axis fun a => { a with pwm := { a.pwm with commitHeld := true } }

/-- SHADOW_DONE of a member (R227): a COMMIT that waits for the last of them is taken. -/
def markShadowDone (s : State) (axis : Fin 4) : State :=
  let t := s.setAxis axis fun a => { a with pwm := { a.pwm with shadowDone := true } }
  let l := axLeader t axis
  if (t.axis l).pwm.commitHeld && membersDone t l then takeCommit t l false else t

/-- A group member reports its shadow set written for the dispatch (R227). -/
def execShadowDone (axis : Fin 4) (s : State) : Result :=
  if !axPresent s axis then finish s (absentEngineWrite s) else
  if pwmDeaf s axis then .next s else finish s (markShadowDone s axis)

/-- A COMMIT taken from the FIFO: a member's own COMMIT has no effect but its flag (R119). -/
def commitAxis (s : State) (axis : Fin 4) (atReload : Bool) : State :=
  if axLeader s axis != axis then s.setAxis axis fun a => { a with pwm := { a.pwm with memberCommit := true } }
  else leaderCommit s axis atReload

def execCommit (axis : Fin 4) (atReload : Bool) (s : State) : Result :=
  if !axPresent s axis then finish s (absentEngineWrite s) else
  if pwmDeaf s axis || !axEnabled s axis then .next s else finish s (commitAxis s axis atReload)

/-! ## The safe pattern (R141) -/

/-- Whether a pattern can stand at level 3: neither STO, nor EARLY_N, nor the loss of the PWM clock holds the outputs. -/
def patternStands (s : State) : Bool := !stoActive s && !s.power.earlyHigh && !bitAt s.clk.lost 2 && !s.back.livenessLost

/-- SAFEPAT is written; a change takes effect at once on an axis that applies a pattern. -/
def writeSafepat (s : State) (n : Fin 4) (pattern : Nat) : State :=
  let t := s.setAxis n fun a => { a with pwm := { a.pwm with
    safepat := pattern % 4, safeSeq := (a.pwm.safeSeq + 1) % 256, safeWritten := true, safeHeld := false } }
  let a := t.axis n
  if a.core.st == .axisSafe && !a.discharging && patternStands t && !(a.core.sub == .discharge && appliedPattern a == .freewheel) then
    t.setAxis n fun a => { a with core := { a.core with sub := appliedPattern a } }
  else t

def execSafepatWrite (axis : Fin 4) (pattern : Nat) (s : State) : Result :=
  if !axPresent s axis then finish s (absentWrite s 0) else
  if pwmDeaf s axis || !axEnabled s axis then .next s else finish s (writeSafepat s axis pattern)

/-! ## Edge records (R130 to R140) -/

/-- The transitions of a sense input that count (R130): the new level holds for SN_FILTER. `out` is the filtered level, `level` the raw one,
both before the transitions, whose instants are in taps after t_ref with the input and filter delay taken off. -/
def countedEdges (filter : Nat) (out level : Bool) : List Nat → List (Nat × Bool)
  | [] => []
  | t :: ts =>
    let holds := match ts with | u :: _ => decide (t + filter ≤ u) | [] => true
    if holds && level == out then (t, !level) :: countedEdges filter (!level) (!level) ts else countedEdges filter out (!level) ts

/-- The record of a window that has ended (R131, Tables 5.4, 5.5): `start` is the raw level of the sense input at t_ref, `toggles` are its
transitions. The first counted transition towards the level of the incoming switch is the measured edge; a second counted transition in the
window makes the record NOISY, with ERR from the last one. -/
def recordOf (s : State) (n : Fin 4) (leg : Fin 3) (w : EdgeWindow) (start : Bool) (toggles : List Nat) : EdgeRecord :=
  let seen := if sensePresent s n leg && !w.dropped then
      (countedEdges (32 * pwmU s n 72 1) start start toggles).filter fun e => decide (e.1 ≤ w.stop - w.tref) else []
  let first := seen.find? fun e => e.2 == w.rising
  let noisy := first.isSome && decide (2 ≤ seen.length)
  let err : Nat := match first, seen.getLast? with | some f, some e => if noisy then e.1 else f.1 | _, _ => 0
  { leg := leg, rising := w.rising, valid := first.isSome, noisy := noisy, short := w.short || w.brief, stretched := w.stretched, dropped := w.dropped
    err := if w.dropped then (w.width : Int) else (err : Int), carrier := w.carrier, whole := w.whole }

/-- The raw level of the sense input as a window ends. -/
def levelAt (w : EdgeWindow) (start : Bool) (toggles : List Nat) : Bool :=
  (toggles.filter fun t => decide (t ≤ w.stop - w.tref)).foldl (fun b _ => !b) start

/-- A switch has missed EDGE_MISS_LIMIT edges in a row (R139): it is marked for the safe-state logic, and a latched trip is set. The event
names leg and switch as DRIVER_FAULT does: leg in bits 15:8, 1 H or 2 L in bits 7:0. DESIGN CHOICE (log entry 187), unsafe. -/
def edgeMissing (s : State) (n : Fin 4) (leg : Fin 3) (high : Bool) : State :=
  let t := s.setAxis n fun a => { a with pwm := { a.pwm with legs := vupd a.pwm.legs leg fun l =>
    if high then { l with markH := true } else { l with markL := true } } }
  raiseAxis (latchTrip t n bitEdgeMissing) evEdgeMissing n (place leg.val 8 8 + if high then 1 else 2)

/-- The counters of consecutive missing edges (R139, R140). `opposite` says that the sense input shows the level opposite to that of the
incoming switch as the window ends. -/
def countEdge (s : State) (n : Fin 4) (r : EdgeRecord) (opposite : Bool) : State :=
  if r.dropped || r.short || !axSwitching s n || !sensePresent s n r.leg then s else
  let l := (s.axis n).pwm.legs[r.leg.val]
  let was := if r.rising then l.missH else l.missL
  let now_ := if r.valid then 0 else if opposite then min 255 (was + 1) else was
  let t := s.setAxis n fun a => { a with pwm := { a.pwm with legs := vupd a.pwm.legs r.leg fun l =>
    if r.rising then { l with missH := now_ } else { l with missL := now_ } } }
  if was < now_ ∧ max 1 (pwmU s n 73 1) ≤ now_ then edgeMissing t n r.leg r.rising else t

/-- The NOISY window of 1,024 expected edges (R138). Whether SHORT and DROPPED records are among the expected edges, or their NOISY marks
among those counted, the rule does not say: they are not, as in R139. DESIGN CHOICE (log entry 188), unsafe. -/
def countNoisy (s : State) (n : Fin 4) (r : EdgeRecord) : State :=
  if r.dropped || r.short || !sensePresent s n r.leg then s else
  let l := (s.axis n).pwm.legs[r.leg.val]
  let edges := l.noisyEdges + 1
  let count := l.noisyCount + ofFlag r.noisy
  let reached := decide (max 1 (pwmU s n 74 1) ≤ count)
  let stop := decide (1024 ≤ edges)
  let t := s.setAxis n fun a => { a with pwm := { a.pwm with legs := vupd a.pwm.legs r.leg fun l => { l with
    noisyEdges := if stop then 0 else edges, noisyCount := if stop then 0 else count
    noisy := if reached then true else if stop && count == 0 then false else l.noisy } } }
  if reached && !l.noisy then raiseAxis t evSenseNoisy n (place r.leg.val 8 8) else t

/-- The record leaves the PWM domain: it enters the FIFO to the current-loop context, which holds 32 records (Table 1.4), and the thermal context
is to charge the edge (R132, R351). No rule says what happens to a record that finds the FIFO full: it is lost. DESIGN CHOICE (log entry
192), unsafe. -/
def deliverRecord (s : State) (n : Fin 4) (r : EdgeRecord) (tref : Nat) : State :=
  let t := s.setAxis n fun a => { a with pwm := { a.pwm with records := if a.pwm.records.length < 32 then a.pwm.records ++ [r] else a.pwm.records } }
  if r.dropped || !cfgHas s secThermal n.val then t else t.setTh n fun h => { h with edges := h.edges ++ [(r.leg, r.rising, tref)] }

/-- The oldest window of a leg has ended, with what its sense input did from t_ref on. -/
def execEdgeRecord (axis : Fin 4) (leg : Fin 3) (start : Bool) (toggles : List Nat) (s : State) : Result :=
  if bitAt s.clk.lost 2 || !axEnabled s axis then .next s else
  match (s.axis axis).pwm.gates[leg.val].windows with
  | [] => .next s
  | w :: rest =>
    if tapNow s < w.stop then .next s else
    let r := recordOf s axis leg w start toggles
    let t := s.setAxis axis fun a => { a with pwm := { a.pwm with gates := vupd a.pwm.gates leg fun g => { g with windows := rest } } }
    finish s (countEdge (countNoisy (deliverRecord t axis r w.tref) axis r) axis r (levelAt w start toggles != w.rising))

end Sys2Proof.Machine
end

