-- ==== Sys2Proof/Machine/ControlOps.lean ====
section
/-! DEFINITION. The parts of the current loop (R186 to R192, R203 to R226): samples, angles, limits, references, regulators,
modulation and the measured-edge correction. -/
namespace Sys2Proof.Machine
open Sys2Proof

/-! ## Samples (R186 to R190) -/

/-- The angle in turns of a time in taps within the period of a set: an edge of the leg within `k` taps before `ph`. -/
def edgeBefore (edge : Bool) (set : CompareSet) (leg : Fin 3) (ph : Int) (k : Int) : Bool :=
  let p := set.period
  let near (e : Nat) : Bool :=
    let d := ph - (e : Int)
    let d' := d + 32 * (p : Int)
    (decide (0 ≤ d) && decide (d ≤ k)) || (decide (0 ≤ d') && decide (d' ≤ k))
  (match riseAt edge p set.cmpA[leg.val] set.cmpB[leg.val] with | some e => near e | none => false) ||
  (match fallAt edge p set.cmpA[leg.val] set.cmpB[leg.val] with | some e => near e | none => false)

/-- A SAR value is NEAR_EDGE (R188): the set in force at its hold instant is the one before the reload for a hold instant
before it, the active one otherwise. While the axis does not switch no compare set makes an edge, and no value is NEAR_EDGE: DESIGN CHOICE
(log entry 252), unsafe. -/
def nearEdge (s : State) (n : Fin 4) (leg : Fin 3) (hold : Nat) : Bool :=
  let w := (s.axis n).pwm
  if entryKind s n (curOff leg) != 1 || !axSwitching s n then false else
  let d : Int := ((hold : Int) - (w.eventAt : Int)) * 128
  let set := if d < 0 then w.before else w.active
  let base : Int := if w.eventPeak then 16 * (set.period : Int) else if d < 0 then 32 * (set.period : Int) else 0
  edgeBefore (pwmEdge s n) set leg (base + d) (tapsOf (senseF s n 8))

/-- The phase currents of one sample and what was seen of them. -/
structure Sample where
  iU : Q
  iV : Q
  iW : Q
  /-- Values replaced for NEAR_EDGE. -/
  nearCount : Nat
  /-- The sum check ran and failed; it ran and passed (R189). -/
  sumBad : Bool
  sumGood : Bool
  ovr : Bool
  /-- Drive time of the hold instant. -/
  hold : Nat
  deriving DecidableEq, Repr

/-- The sample of an axis (R186 to R190): a value that is NEAR_EDGE, or whose record carries FAULT, is replaced. -/
def sampleOf (s : State) (n : Fin 4) : Sample :=
  let v := (s.axis n).sense
  let here := legs3.filter (curPresent s n)
  let rd (l : Fin 3) := readEntry s n (curOff l)
  let hold := match here.head? with | some l => (rd l).time | none => s.clk.drive.toNat
  let near (l : Fin 3) : Bool := nearEdge s n l (rd l).time
  let skip (l : Fin 3) : Bool := near l || (rd l).bad
  let pred (l : Fin 3) : Q := if l.val = 0 then v.predU else if l.val = 1 then v.predV else v.predW
  let skipped := (here.filter skip).length
  let all3 := decide (here.length = 3)
  let one (l : Fin 3) : Q := if skip l then pred l else ampsOf s n l
  let others (l : Fin 3) : Q := -((here.filter (· != l)).map (ampsOf s n)).sum
  let val (l : Fin 3) : Q :=
    if all3 then (if skip l && skipped == 1 then others l else one l)
    else if curPresent s n l then one l else -((here.filter (· != l)).map one).sum
  let check := all3 && skipped == 0
  let bad := decide (senseF s n 16 < qabs (ampsOf s n 0 + ampsOf s n 1 + ampsOf s n 2))
  { iU := val 0, iV := val 1, iW := val 2, nearCount := (here.filter near).length, sumBad := check && bad
    sumGood := check && !bad, ovr := here.any fun l => (rd l).ovr, hold := hold }

/-- The stationary vector of a sample (R207). -/
def sampleAb (s : State) (n : Fin 4) (x : Sample) : Q × Q :=
  if (legs3.filter (curPresent s n)).length = 3 then clarke3 x.iU x.iV x.iW else clarke2 x.iU x.iV

/-! ## The angle (R13, R206, R258 to R262) -/

/-- A record extrapolated to a drive time, in turns. -/
def snapAngle (r : Snapshot) (at_ : Nat) : Q :=
  wrapTurn ((r.elec : Q) / 65536 + r.speed * ((signedOf 32 (unsignedOf 32 ((at_ : Int) - (r.time : Int))) : Int) : Q) / 100000000 / twoPi)

/-- The observer's angle at a drive time: its estimate carried on at its speed (R13, R276); in a recapture the angle extrapolated at ω_h
(R283). -/
def obsAngle (s : State) (n : Fin 4) (at_ : Nat) : Q :=
  let o := (s.axis n).obs
  let dt := ((at_ : Q) - o.time) / 100000000 / twoPi
  if o.st == .recapturing then wrapTurn (o.thH + o.wH * dt) else wrapTurn (o.th + o.w * dt)

/-- The voltage pulses of a standstill identification run, after 1.0 ms of injection alone (R288). -/
def pulsing (s : State) (n : Fin 4) : Bool := (s.axis n).catch_.identify && decide ((s.axis n).catch_.syncAt + 100000 ≤ s.clk.now)

/-- Angle and electrical speed of a source: 1 primary, 2 secondary interface, 3 observer. -/
def srcAngle (s : State) (n : Fin 4) (src at_ : Nat) : Option (Q × Q) :=
  match src with
  | 1 | 2 => (ifcOf s n (src - 1)).bind fun i => (s.ifc i).snap.map fun r => (snapAngle r at_, r.speed)
  | 3 => if cfgHas s secSensorless n.val then some (obsAngle s n at_, if (s.axis n).obs.st == .recapturing then (s.axis n).obs.wH else (s.axis n).obs.w) else none
  | _ => none

/-- A source is VALID: an interface whose last record is REFERENCED too, since the current loop has its angle from that; the observer only
while it runs, that is while the axis switches (R257, R261, R276, R281). -/
def srcGood (s : State) (n : Fin 4) (src : Nat) : Bool :=
  match src with
  | 1 | 2 => match ifcOf s n (src - 1) with | some i => srcValid (s.ifc i) && (s.ifc i).snap.any (·.referenced) | none => false
  | 3 => cfgHas s secSensorless n.val && bitAt (cfgU s secSensorless n.val 0 1) 0 && axSwitching s n && (s.axis n).obs.st == .valid
  | _ => false

/-- The source states at a dispatch (R258): STALE without a fresh record, FAILED after LOST_LIMIT of them. -/
def ageSource (s : State) (i : Fin 4) : State :=
  let p := s.ifc i
  if p.st == .failed then s else
  let stale := !p.fresh || (match p.snap with | some r => r.stale | none => true)
  let t := s.setIfc i fun p => { p with fresh := false, st := if stale then .stale else .valid, staleRun := if stale then min 16 (p.staleRun + 1) else 0 }
  if stale && decide (max 1 (posU s i 22 1) ≤ (t.ifc i).staleRun) then failSource t i failStale else noteRestored t i

/-- The comparison of the two sources (R261), in turns against XCHECK_LIMIT. -/
def crossCheck (s : State) (n : Fin 4) (at_ : Nat) : State :=
  let sec := secondaryOf s n
  match ifcOf s n 0, srcAngle s n 1 at_, srcAngle s n sec at_ with
  | some i, some a, some b =>
    if !srcGood s n 1 || !srcGood s n sec then s else
    let far := decide (posF s i 76 < qabs (wrapHalf (a.1 - b.1)) * twoPi)
    let long (t : Option Nat) : Bool := match t with | some x => decide (x + ticksOf (posF s i 80) ≤ s.clk.now) | none => false
    s.setAxis n fun x => { x with ctl :=
      let c := { x.ctl with
        disSince := if far then some (x.ctl.disSince.getD s.clk.now) else none
        farLast := if far then some s.clk.now else x.ctl.farLast
        agreeSince := if far then none else some (x.ctl.agreeSince.getD s.clk.now) }
      { c with secBad := c.secBad && !long c.agreeSince } }
  | _, _, _ => s

/-- The secondary may take over: it is VALID, not marked by R261, and has not exceeded XCHECK_LIMIT in the last XCHECK_TIME. -/
def secEligible (s : State) (n : Fin 4) : Bool :=
  let c := (s.axis n).ctl
  let time := match ifcOf s n 0 with | some i => ticksOf (posF s i 80) | none => 0
  let recent := match c.farLast with | some t => decide (s.clk.now < t + time) | none => false
  srcGood s n (secondaryOf s n) && !c.secBad && !recent

/-- An axis without a primary interface has the observer as its primary source (R282). -/
def observerPrimary (s : State) (n : Fin 4) : Bool := (ifcOf s n 0).isNone && cfgHas s secSensorless n.val && bitAt (cfgU s secSensorless n.val 0 1) 0

/-- The source that an axis takes at its start: the primary, or the secondary, or none. -/
def bestSource (s : State) (n : Fin 4) : Nat :=
  if srcGood s n 1 then 1 else if observerPrimary s n then 3 else if srcGood s n (secondaryOf s n) then secondaryOf s n else 0

/-- No source serves the axis: POSITION_SOURCE_NONE with the interface that has failed, and SS1, once (R260, R269). -/
def sourceNone (s : State) (n i : Fin 4) : State :=
  if (s.axis n).ctl.sourceNone then s else
  requestSs1 (raise (s.setAxis n fun a => { a with ctl := { a.ctl with sourceNone := true } }) evPositionSourceNone n.val (place i.val 24 8)) n

/-- The choice of the source at a dispatch (R260 to R262). -/
def chooseSource (s : State) (n : Fin 4) (at_ : Nat) : State :=
  let c := (s.axis n).ctl
  let set (t : State) (k : Nat) : State := t.setAxis n fun a => { a with ctl := { a.ctl with src := k }, obs := { a.obs with inUse := k == 3 } }
  let good := srcGood s n 1
  let t :=
    if !axSwitching s n then
      let k := bestSource s n
      (set s k).setAxis n fun a => { a with ctl := { a.ctl with sourceNone := a.ctl.sourceNone && k == 0 } }
    else if c.src = 1 then
      (match ifcOf s n 0 with
       | some i => if (s.ifc i).st == .failed then (if secEligible s n then set s (secondaryOf s n) else sourceNone s n i) else s
       | none => s)
    else if c.src = 2 then
      (match ifcOf s n 1 with
       | some i => if (s.ifc i).st == .failed then sourceNone s n i else s
       | none => s)
    else s
  let close := match ifcOf s n 0, srcAngle s n 1 at_, srcAngle s n c.src at_ with
    | some i, some a, some b => decide (qabs (wrapHalf (a.1 - b.1)) * twoPi ≤ posF s i 76)
    | _, _, _ => false
  let u := if axSwitching s n && 2 ≤ c.src && good && !c.priWas && close then set t 1 else t
  u.setAxis n fun a => { a with ctl := { a.ctl with priWas := good } }

/-! ## Torque limits and the reference (R219 to R224) -/

/-- U_LIM (R214). -/
def uLim (s : State) (n : Fin 4) (udc : Q) : Q := ctlF s n 64 * udc / Config.sqrt3

/-- λv, the flux coordinate (R222). -/
def fluxCoord (s : State) (n : Fin 4) (udc w : Q) : Q :=
  if !ctlFlag s n 1 then ctlF s n 112 else
  qclamp (ctlF s n 108) (ctlF s n 112) ((1 - ctlF s n 72) * uLim s n udc / qmax (qabs w) 1 + (s.axis n).ctl.dl)

/-- A coordinate on the 32 table points, as the lower point and the weight of the upper one. -/
def gridAt (x : Q) : Nat × Q :=
  let y := qclamp 0 31 x
  let k := min 30 y.floor.toNat
  (k, y - (k : Q))
def columnAt (s : State) (n : Fin 4) (lv : Q) : Nat × Q :=
  gridAt (31 * (lv - ctlF s n 108) / (ctlF s n 112 - ctlF s n 108))
def rowAt (s : State) (n : Fin 4) (t : Q) : Nat × Q := gridAt (qabs t / (ctlF s n 104 / 31))

def mix (a b w : Q) : Q := a + (b - a) * w

/-- A table entry (R222). -/
def tableId (s : State) (n : Fin 4) (r c : Nat) : Q := ctlF s n (272 + 8 * (32 * r + c))
def tableIq (s : State) (n : Fin 4) (r c : Nat) : Q := ctlF s n (276 + 8 * (32 * r + c))

/-- The bilinear lookup: id and iq for a torque at a flux coordinate. -/
def mtpa (s : State) (n : Fin 4) (t lv : Q) : Q × Q :=
  let (r, wr) := rowAt s n t
  let (c, wc) := columnAt s n lv
  let at_ (f : Nat → Nat → Q) : Q := mix (mix (f r c) (f r (c + 1)) wc) (mix (f (r + 1) c) (f (r + 1) (c + 1)) wc) wr
  (at_ (tableId s n), at_ (tableIq s n) * (if t < 0 then -1 else 1))

/-- Values per column interpolated at a flux coordinate: COLMAX and T_ILIM. -/
def colMaxAt (s : State) (n : Fin 4) (lv : Q) : Q :=
  let (c, w) := columnAt s n lv
  mix (ctlF s n (144 + 4 * c)) (ctlF s n (148 + 4 * c)) w
def tIlimAt (s : State) (n : Fin 4) (lv : Q) : Q :=
  let (c, w) := columnAt s n lv
  let v := (s.axis n).ctl.tIlim.toList
  mix (v.getD c 0) (v.getD (c + 1) 0) w

/-- Certificate ceilings of an axis in force: torque, power, speed (R515). -/
def certF (s : State) (n : Fin 4) (k : Nat) : Option Q := s.sec.cert.map fun c => fieldF c (40 + 12 * n.val + 4 * k)
/-- The effective speed ceiling (R519). -/
def wEff (s : State) (n : Fin 4) : Q :=
  let lim := cfgF s secLimits 0 (4 * n.val)
  match certF s n 2 with | some w => qmin lim w | none => lim

/-- The ceilings of Table 8.3 that apply at a dispatch, in the order of the table. -/
def ceilings (s : State) (n : Fin 4) (wm src lv : Q) : List (Nat × Q) :=
  let fast := decide (1 ≤ qabs wm)
  let tm := tMaxOf s n
  (match certF s n 0 with | some t => [(1, t)] | none => []) ++
  (match certF s n 1 with | some p => if fast then [(1, p / qabs wm)] else [] | none => []) ++
  [(2, tm)] ++
  (if fast then [(2, (if 0 < src * wm then ctlF s n 88 else ctlF s n 92) / qabs wm)] else []) ++
  (if cfgHas s secThermal n.val then [(3, (fracNow s n).1 * tm)] else []) ++
  [(4, tIlimAt s n lv), (5, colMaxAt s n lv)] ++
  (if cfgBench s then [(6, cfgF s secSystem 0 12 * tm)] else []) ++
  (if (s.axis n).ctl.wrongMotor then [(7, tm / 20)] else [])

/-- The smallest ceiling with its code, the first where two are equal. -/
def smallest : List (Nat × Q) → Nat × Q
  | [] => (0, 0)
  | x :: xs => xs.foldl (fun m y => if y.2 < m.2 then y else m) x

/-- SS1 torque (R408). -/
def ss1Torque (s : State) (n : Fin 4) (wm : Q) : Q :=
  -(qsign wm) * safetyF s n 8 * tMaxOf s n * qmin 1 (qabs wm / (2 * safetyF s n 16))

/-- SLS is active on an axis (R411), and SDI in each direction (R412). -/
def slsActive (s : State) (n : Fin 4) : Bool := bitAt (safetyU s n 3 1) 0 || (s.axis n).saf.inSls
def sdiFwd (s : State) (n : Fin 4) : Bool := bitAt (safetyU s n 3 1) 1
def sdiRev (s : State) (n : Fin 4) : Bool := bitAt (safetyU s n 3 1) 2

/-- The factors on a motoring source value (R411, R519), and the forbidden direction of SDI (R412). The flag SDI_FWD permits
forward motion only where it is set alone. -/
def shapeSource (s : State) (n : Fin 4) (wm t : Q) : Q :=
  let motor := decide (0 < t * wm)
  let lim := safetyF s n 20
  let f1 : Q := if motor && slsActive s n then qclamp 0 1 ((lim - qabs wm) / (lim / 10)) else 1
  let we := wEff s n
  let f2 : Q := if motor && decide (19 / 20 * we < qabs wm) then qclamp 0 1 ((we - qabs wm) / (we / 20)) else 1
  let t' := t * f1 * f2
  let noRev := sdiFwd s n && decide (t' < 0) && decide (wm ≤ 0)
  let noFwd := sdiRev s n && decide (0 < t') && decide (0 ≤ wm)
  if noRev || noFwd then 0 else t'

/-- A move from one reference to another, linearly over 10 ms (R408). -/
def moveOver10 (from_ to_ : Q) (ticks : Nat) : Q := from_ + (to_ - from_) * qmin 1 ((ticks : Q) / 1000000)

/-- The source value of the torque reference of an axis (R219, R330, R408, R411, R413), and whether it bypasses the ramp of
R221. The factors of SLS and of the speed ceiling, and SDI, act on it in STOPPING as well: they leave a braking torque as it is. -/
def torqueSource (s : State) (n : Fin 4) (wm : Q) : Q × Bool :=
  let a := s.axis n
  if a.core.warmup then (0, true) else
  match a.core.st with
  | .stopping =>
    let raw :=
      if a.saf.stopFollow then a.prof.torque
      else
        let goal := ss1Torque s n wm
        if a.saf.stopSs1 then moveOver10 a.saf.stopTq goal (s.clk.now - a.saf.stopAt)
        else
          let step := ctlF s n 96 * ((s.clk.now - a.saf.stopAt : Nat) : Q) / 100000000
          if qabs (goal - a.saf.stopTq) ≤ step then goal else a.saf.stopTq + qsign (goal - a.saf.stopTq) * step
    (shapeSource s n wm raw, true)
  | .runTorque | .runSpeed | .runPosition =>
    if a.saf.brakeHolding then (a.saf.stopTq, false)
    else if a.saf.slsBraking then (shapeSource s n wm (moveOver10 a.saf.slsTq (ss1Torque s n wm) (s.clk.now - a.saf.slsAt)), true)
    else
      let raw := match a.core.st with
        | .runTorque =>
          if tqShape s n then a.prof.torque
          else if ctlU s n 3 1 = 1 then a.core.canRef else if ctlU s n 3 1 = 2 then a.core.shareRef * a.core.shareFrac else a.core.ref
        | _ => a.prof.torque
      (shapeSource s n wm raw, false)
  | _ => (0, true)

/-- One step of the ramp of R221 from `cur` towards `goal`: it rises at `up` and falls at `down`, through zero where the sign
changes. -/
def rampStep (cur goal up down : Q) : Q :=
  if 0 ≤ cur * goal ∧ qabs cur ≤ qabs goal then
    (if qabs goal ≤ qabs cur + up then goal else cur + qsign goal * up)
  else if 0 ≤ cur * goal then
    (if qabs cur ≤ qabs goal + down then goal else cur - qsign cur * down)
  else if qabs cur ≤ down then 0 else cur - qsign cur * down

/-- The value that the ramp of R221 reaches from `cur` towards `goal` in a time, rising at `up` and falling at `down` per second, through zero
where the sign changes. -/
def rampFor (cur goal up down time : Q) : Q :=
  if 0 ≤ cur * goal then rampStep cur goal (up * time) (down * time)
  else if down = 0 || time * down ≤ qabs cur then rampStep cur goal (up * time) (down * time)
  else rampStep 0 goal (up * (time - qabs cur / down)) 0

/-! ## Regulators (R208 to R211, R214) -/

/-- The voltage limit with priority for d (R214). -/
def limitVoltage (lim ud uq : Q) : Q × Q :=
  if ud * ud + uq * uq ≤ lim * lim then (ud, uq)
  else if qabs ud ≤ lim then (ud, qsign uq * Config.sqrt (lim * lim - ud * ud))
  else (qsign ud * lim, 0)

/-- What a regulator answers: its voltages before the limit and the integrators. -/
structure RegOut where
  ud : Q
  uq : Q
  xd : Q
  xq : Q
  deriving DecidableEq, Repr

/-- Decoupling terms (R208). -/
def decoupling (s : State) (n : Fin 4) (w id iq : Q) : Q × Q :=
  if ctlFlag s n 0 then (-(w * lqOf s n * iq), w * ldOf s n * id) else (0, 0)

/-- The PI regulator (R208). -/
def regPi (s : State) (n : Fin 4) (w id iq idRef iqRef xd xq : Q) (integrate : Bool) : RegOut :=
  let tu := if integrate then tuOf s n else 0
  let ed := idRef - id
  let eq := iqRef - iq
  let xd' := xd + ctlF s n 40 * tu * ed
  let xq' := xq + ctlF s n 48 * tu * eq
  let (cd, cq) := decoupling s n w id iq
  ⟨ctlF s n 36 * ed + xd' + cd, ctlF s n 44 * eq + xq' + w * psiRef s n + cq, xd', xq'⟩

/-- The prediction of R210, also the predicted current of R188: `ud`, `uq` are the limited voltages of the previous dispatch. -/
def predictDq (s : State) (n : Fin 4) (w id iq ud uq : Q) : Q × Q :=
  let tu := tuOf s n
  (id + tu / ldOf s n * (ud - rsOf s n * id + w * lqOf s n * iq),
   iq + tu / lqOf s n * (uq - rsOf s n * iq - w * (ldOf s n * id + psiRef s n)))

/-- The deadbeat regulator (R210). -/
def regDeadbeat (s : State) (n : Fin 4) (w id iq idRef iqRef udp uqp : Q) : RegOut :=
  let tu := tuOf s n
  let (idp, iqp) := predictDq s n w id iq udp uqp
  let rs := rsOf s n
  let g := ctlF s n 52
  ⟨g * ldOf s n / tu * (idRef - idp) + rs * idp - w * lqOf s n * iqp,
   g * lqOf s n / tu * (iqRef - iqp) + rs * iqp + w * (ldOf s n * idp + psiRef s n), 0, 0⟩

/-- Integrators that make the output equal (ud0, uq0) at zero references (R212). -/
def presetXd (s : State) (n : Fin 4) (w id iq ud0 : Q) : Q := ud0 + ctlF s n 36 * id - (decoupling s n w id iq).1
def presetXq (s : State) (n : Fin 4) (w id iq uq0 : Q) : Q := uq0 + ctlF s n 44 * iq - w * psiRef s n - (decoupling s n w id iq).2

/-! ## Modulation (R215 to R218) -/

def max3 (a b c : Q) : Q := qmax a (qmax b c)
def min3 (a b c : Q) : Q := qmin a (qmin b c)

/-- The strategy in force (Table 8.2): 0 space-vector, 1 discontinuous, 2 region I, 3 region II or six-step. -/
def strategyOf (s : State) (n : Fin 4) (m : Q) : Nat :=
  if 10494 / 10000 < m then 3 else if 1 < m then 2
  else if ctlU s n 1 1 = 0 then 0
  else if ctlF s n 68 ≤ m then 1
  else if (s.axis n).ctl.strategy = 1 ∧ ctlF s n 68 - 1 / 20 ≤ m then 1 else 0

/-- v0 that clamps a phase of value `v`. -/
def clampZero (udc v : Q) : Q := if 0 < v then udc / 2 - v else -udc / 2 - v

/-- The phase with the largest magnitude of three values. -/
def largest (a b c : Q) : Fin 3 := if qabs b ≤ qabs a ∧ qabs c ≤ qabs a then 0 else if qabs c ≤ qabs b then 1 else 2
def pick (l : Fin 3) (a b c : Q) : Q := if l.val = 0 then a else if l.val = 1 then b else c

/-- The zero sequence (R216). -/
def zeroSeq (strategy modulation : Nat) (udc a b c iU iV iW : Q) : Q :=
  if strategy ≠ 1 then -(max3 a b c + min3 a b c) / 2 else
  let lv := largest a b c
  let li := largest iU iV iW
  let vi := pick li a b c
  if modulation = 2 ∧ (vi = max3 a b c ∨ vi = min3 a b c) then clampZero udc vi else clampZero udc (pick lv a b c)

/-- 1.1027, the top of M_MAX, as the configuration can hold it (R215): the nearest binary32. -/
def sixStepM : Q := 9250118 / 8388608

/-- The nearest multiple of 60° in turns. -/
def nearestSixth (t : Q) : Q := (roundHalfUp (t * 6) : Q) / 6

/-- The reference vector in overmodulation (R217): the gain of region I and the hold angle of region II come from tables that
the spec does not print, so `free` stands for them (log entry 5). -/
def overmod (strategy : Nat) (m free : Q) (ab : Q × Q) : Q × Q :=
  if strategy = 2 then (ab.1 * free, ab.2 * free)
  else if strategy = 3 then
    let mag := hypot ab.1 ab.2
    let t := atan2T ab.2 ab.1
    let hold := if sixStepM ≤ m then 1 / 12 else qclamp 0 (1 / 12) free
    let t' := if qabs (t - nearestSixth t) ≤ hold then nearestSixth t else t
    (mag * cosT t', mag * sinT t')
  else ab

/-! ## Measured-edge correction (R133 to R137) -/

/-- Taps as seconds. -/
def secondsOf (taps : Int) : Q := (taps : Q) / 12800000000

/-- The model value c_m (R137), with the dead times as the PWM unit rounds them (R113). -/
def modelCorr (s : State) (n : Fin 4) (leg : Fin 3) (i : Q) : Q :=
  -(qlimit 1 (i / pwmF s n 68)) * (secondsOf (pwmTaps s n (20 + 8 * leg.val) + pwmTaps s n (24 + 8 * leg.val) : Nat) / 2 + pwmF s n 64)

/-- What a record gives the correction of its leg (R133, R135): a completed pulse whose two records can be used updates c, a dropped pulse
adds to the carry. `cmax` is CORR_MAX, `al` CORR_ALPHA, `ratio` the voltage of the pulse over that of the commit. -/
def takeRecord (cmax al ratio : Q) (l : PwmLeg) (r : EdgeRecord) : PwmLeg :=
  if r.dropped then { l with carry := qlimit cmax (l.carry + ratio * secondsOf (if r.rising then r.err else -r.err)) } else
  let usable := r.valid && !r.noisy && !r.short
  if r.rising then { l with riseErr := if usable then some r.err else none, short := r.short } else
  { l with
    riseErr := none, short := r.short
    corr := match l.riseErr with
      | some e => if usable && r.whole then qlimit cmax ((1 - al) * l.corr + al * (-(ratio * secondsOf (r.err - e)))) else l.corr
      | none => l.corr }

/-- The correction and the carry of a leg before a commit. A leg that the commit clamps keeps both (R218). -/
def corrUpdate (s : State) (n : Fin 4) (leg : Fin 3) (i ratio : Q) (clamped : Bool) : PwmLeg :=
  let l := (s.axis n).pwm.legs[leg.val]
  let cmax := pwmF s n 56
  let sg : Int := if i < 0 then -1 else if 0 < i then 1 else l.lastSign
  let l0 := { l with lastSign := sg, carry := if sg = l.lastSign then l.carry else 0 }
  let l1 := ((s.axis n).pwm.records.filter fun r => r.leg == leg).foldl (takeRecord cmax (pwmF s n 60) ratio) l0
  if clamped then { l1 with corr := l.corr, carry := l.carry, lastSign := l.lastSign }
  else if !sensePresent s n leg || l.noisy || l1.short || decide (qabs i < pwmF s n 68) then { l1 with corr := qlimit cmax (modelCorr s n leg i) }
  else l1

/-- The compare values of one leg from its duty, with the correction and the carry left over (R134, R218). -/
def compareOf (s : State) (n : Fin 4) (l : PwmLeg) (d : Q) (period : Nat) : Nat × Nat × PwmLeg :=
  let half : Int := 16 * (period : Int)
  let hold (hi x : Int) : Int := max 0 (min hi x)
  if pwmEdge s n then
    let full := 2 * half
    let base := roundHalfUp (d * (full : Q))
    if d ≤ 0 ∨ 1 ≤ d then (0, base.toNat, l) else
    let want := base + tapsOf (l.corr + l.carry)
    let got := hold full want
    (0, got.toNat, { l with carry := qlimit (pwmF s n 56) (secondsOf (want - got)) })
  else
    let base := roundHalfUp ((1 - d) * (half : Q))
    if d ≤ 0 ∨ 1 ≤ d then (base.toNat, base.toNat, l) else
    let want := base - tapsOf ((l.corr + l.carry) / 2)
    let got := hold half want
    (got.toNat, got.toNat, { l with carry := qlimit (pwmF s n 56) (secondsOf (2 * (got - want))) })

/-- The regulator acts: on an axis that switches, or that discharges through its windings. -/
def regulates (s : State) (n : Fin 4) : Bool :=
  axSwitching s n || (s.axis n).discharging

end Sys2Proof.Machine
end

