-- ==== Sys2Proof/Machine/DischargeOps.lean ====
section
/-! DEFINITION. Readings of the DC link for the safe state, and active discharge (R402, R426 to R429). -/
namespace Sys2Proof.Machine
open Sys2Proof

/-- A time of drive time lies within the last 1 ms. -/
def fresh1ms (s : State) (time : Nat) : Bool := decide (s.clk.drive.toNat ≤ time + 100000)

/-- The main reading of the DC link of an axis, where it is valid (R402). -/
def mainUdc (s : State) (n : Fin 4) : Option Q :=
  let r := readEntry s n dcOff
  let c := s.conv (Fin.ofNat 8 (entryUnit s n dcOff))
  if entryKind s n dcOff = 0 ∨ r.bad ∨ c.outlier ∨ s.sensing.unresolved ∨ !fresh1ms s r.time then none else some (udcOf s n)

/-- The Backstay's reading of the input that BS_UDC names, where it is valid (R402). The model scales it as the axis's own
DC-link entry, which measures the same link (log entry 31). -/
def backUdc (s : State) (n : Fin 4) : Option Q :=
  let r := slotOf s 7 (cfgU s secSafety 0 2 1 - 28)
  if !r.valid ∨ (s.conv 7).outlier ∨ bitAt s.clk.lost 7 ∨ !fresh1ms s r.time then none
  else some (entryGain s n dcOff * (codeVolts r.code - entryZero s n dcOff))

/-- U_dc of the safe-state rule: the lower valid reading, 0 V where neither is valid (R402). -/
def safeUdc (s : State) (n : Fin 4) : Q :=
  match mainUdc s n, backUdc s n with
  | some a, some b => qmin a b
  | some a, none => a
  | none, some b => b
  | none, none => 0

/-- U_dc of a discharge: the higher reading (R429). -/
def dischUdc (s : State) (n : Fin 4) : Q :=
  match mainUdc s n, backUdc s n with
  | some a, some b => qmax a b
  | some a, none => a
  | none, some b => b
  | none, none => 0

/-- U_dc of a discharge is below 60 V: a reading says so (R427 to R429). -/
def dischBelow (s : State) (n : Fin 4) : Bool := ((mainUdc s n).isSome || (backUdc s n).isSome) && decide (dischUdc s n < 60)

/-- The electrical speed of an axis: of its source while it switches or discharges, of the monitor otherwise. -/
def wNow (s : State) (n : Fin 4) : Q :=
  let a := s.axis n
  if (axSwitching s n || a.discharging) && a.ctl.src != 0 then a.ctl.w else a.mon.speed

def dischSpeed (s : State) : Q := cfgF s secSafety 0 20

/-- A present axis turns at or above DISCH_SPEED. -/
def rotating (s : State) : Bool := anyAxis s fun n => decide (dischSpeed s ≤ qabs (wNow s n))

/-- A discharge is running: DISCH is high, or a winding discharge drives its axis. -/
def dischRuns (s : State) : Bool := s.disch.ball || (allAxes.any fun n => (s.axis n).discharging)

/-- RESISTOR needs DISCH_PRESENT (R426). -/
def resistorOk (s : State) : Bool := bitAt (cfgU s secSafety 0 0 1) 0

/-- WINDINGS needs DISCH_WINDINGS, no marked switch, and an angle (R426); both STO channels are looked at apart. -/
def windingsOk (s : State) (n : Fin 4) : Bool :=
  axEnabled s n && bitAt (safetyU s n 3 1) 3 && marksLow (s.axis n) == 0 && marksHigh (s.axis n) == 0 &&
  (srcGood s n 1 || srcGood s n 2 || bitAt (cfgU s secSensorless n.val 0 1) 1)

def stoQualified (s : State) : Bool := s.sto.aQual && s.sto.bQual && !s.sto.aLow && !s.sto.bLow

def dischBegin (s : State) (method : Nat) (n : Fin 4) : State :=
  { s with disch := { s.disch with state := 1, method := method, axis := n.val, startedAt := s.clk.now, ms := 0, ending := false } }

/-- RESISTOR drives the DISCH ball high (R427). -/
def startResistor (s : State) (n : Fin 4) : State :=
  let t := dischBegin s 1 n
  { t with disch := { t.disch with ball := true } }

/-- WINDINGS takes the axis into AXIS_SAFE with substate DISCHARGE (R428). -/
def startWindings (s : State) (n : Fin 4) : State :=
  (dischBegin (enterAxisSafe s n .discharge) 2 n).setAxis n fun a => { a with
    ctl := { a.ctl with idRef := 0, iqRef := 0, xd := 0, xq := 0, preset := none, tqZero := false, fwHold := false, tRef := 0
                        src := bestSource s (axLeader s n) } }

/-- A winding discharge is over on its axis: OFF, or AXIS_SAFE with DISCHARGE complete while the device is in SAFE (R428). -/
def endWindings (s : State) (n : Fin 4) : State :=
  if s.mode == .safe then s.setAxis n fun a => { a with core := { a.core with discharged := true }, pwm := { a.pwm with pending := none, late := none } }
  else axisOff s n

/-- The automatic discharge (R426): once SAFE has latched and every present axis freewheels below DISCH_SPEED, the resistor is
taken where there is one, and else the first axis whose windings can be used (log entry 32). -/
def autoDischarge (s : State) : State :=
  if s.mode != .safe then { s with disch := { s.disch with autoTried := false } } else
  let quiet := allAxes.all fun n => !axPresent s n || (s.axis n).core.st == .off || ((s.axis n).core.st == .axisSafe && (s.axis n).core.sub == .freewheel)
  if !bitAt (cfgU s secSafety 0 0 1) 1 || s.disch.autoTried || dischRuns s || !quiet || rotating s then s else
  let t := { s with disch := { s.disch with autoTried := true } }
  if resistorOk t then startResistor t 0
  else if !stoQualified t then s
  else match allAxes.find? (windingsOk t) with
    | some n => startWindings t n
    | none => s

/-- Rotation at or above DISCH_SPEED ends a winding discharge, and the safe-state rule applies (R428). -/
def checkDischarge (s : State) (n : Fin 4) : State :=
  let a := s.axis n
  if a.discharging && decide (dischSpeed s ≤ qabs a.ctl.w) then
    enterAxisSafe { s with disch := { s.disch with state := 0, ending := false } } n (appliedPattern a)
  else s

end Sys2Proof.Machine
end

