-- ==== Sys2Proof/Machine/Odometry.lean ====
section
/-! DEFINITION. The revolution counters: their source at each instant and how they advance (R274, R536, Table 10.1). -/
namespace Sys2Proof.Machine
open Sys2Proof

/-- An ASC pattern is applied, and all switches of an axis are off (R272, R273). -/
def ascApplied (s : State) (n : Fin 4) : Bool :=
  let c := (s.axis n).core
  c.st == .axisSafe && (c.sub == .ascLow || c.sub == .ascHigh) && !stoActive s && !bitAt s.clk.lost 2 && !(s.axis n).bs.geRemoved
def allSwitchesOff (s : State) (n : Fin 4) : Bool :=
  !axSwitching s n && !ascApplied s n && !(s.axis n).discharging

/-- The row of Table 10.1 that holds. -/
def odoSource (s : State) (n : Fin 4) : Nat :=
  if axSwitching s n then 1
  else if ascApplied s n && hasMonitor s n then 2
  else if allSwitchesOff s n && (s.axis n).mon.rotating then 3
  else if allSwitchesOff s n && (countingIfc s n).isSome then 4
  else 0

/-- What the sources stand at, in electrical turns, each where it is at hand: the angle of the current loop, the turns that the monitor has
counted, the position of the interface that counts. -/
def odoNow (s : State) (n : Fin 4) : Vector (Option Q) 3 :=
  #v[if axSwitching s n then some (s.axis n).ctl.theta else none, if hasMonitor s n then some (s.axis n).mon.turns else none,
     (countingIfc s n).map fun i => (extP s i : Q) * polePairs s n / (cpr s i : Q)]

/-- The motion of a source since the odometry was advanced last, in electrical turns; none where it was not at hand at both ends. -/
def odoChange (s : State) (n : Fin 4) (src : Nat) : Option Q :=
  let k : Fin 3 := if src = 1 then 0 else if src = 4 then 2 else 1
  match (s.axis n).mon.odoPrev[k.val], (odoNow s n)[k.val] with
  | some a, some b => some (if k = 0 then wrapHalf (b - a) else b - a)
  | _, _ => none

/-- The revolution counter advances by the change of the angle of the source (R274). The interval in which the source changes is counted once, by
the new source where it was at hand at both ends, else by the old one. -/
def odoStep (s : State) (n : Fin 4) : State :=
  let src := odoSource s n
  let was := (s.axis n).mon.odoSrc
  let turned : Q := if src = 0 then 0 else ((odoChange s n src).orElse fun _ => if was = 0 then none else odoChange s n was).getD 0
  let t := s.setAxis n fun a => { a with mon := { a.mon with odoSrc := src, odoPrev := odoNow s n } }
  { t with log := { t.log with counters := vupd t.log.counters n fun c =>
      let x := c.turnPart + turned / polePairs s n
      { c with revolutions := c.revolutions + x.floor, turnPart := x - (x.floor : Q) } } }

end Sys2Proof.Machine
end

