-- ==== Sys2Proof/Machine/RiggerOps.lean ====
section
/-! DEFINITION. The Rigger's schedule: contexts, engine checks, placement and migration plans (R300 to R312). -/
namespace Sys2Proof.Machine
open Sys2Proof

/-! ## Contexts (Tables 11.1, 11.8) -/

/-- A used context entry. Times are in engine cycles of 2.5 ns. -/
structure Ctx where
  num : Nat
  kind : Nat
  axis : Fin 4
  /-- ENGINE of its entry, 0xFF for automatic. -/
  pin : Nat
  /-- Worst-case cycles, and those of them in tier 2. -/
  cycles : Nat
  tier2 : Nat
  /-- Dispatches per second. -/
  rate : Q
  deadline : Q
  /-- Local memory and SRAM in units of 64 bytes. -/
  local_ : Nat
  sram : Nat
  deriving DecidableEq, Repr

/-- The axis that a context counts for: a POSITION context counts for the axis of its interface (R305). -/
def ctxAxis (s : State) (k : Nat) : Fin 4 :=
  if ctxU s k 0 1 = 6 then posAxis s (Fin.ofNat 4 (ctxU s k 1 1)) else Fin.ofNat 4 (ctxU s k 1 1)

/-- The context is placed: its axis is present and enabled (R301). -/
def ctxUsed (s : State) (k : Nat) : Bool := ctxU s k 0 1 != 0 && axEnabled s (ctxAxis s k)

/-- The configured update interval of an axis in seconds (R204). -/
def tuConfig (s : State) (n : Fin 4) : Q := (if pwmU s n 1 1 = 3 then 1 / 2 else 1) * (periodClocks s n : Q) / 400000000

/-- Dispatches per second of a kind (Table 11.1). -/
def ctxRate (s : State) (k : Nat) : Q :=
  let n := ctxAxis s k
  let tu := tuConfig s n
  let div : Q := (max 1 (ctxU s k 3 1) : Nat)
  let per : Q := (periodClocks s n : Q) / 400000000
  let inv (x : Q) : Q := if x = 0 then 0 else 1 / x
  match ctxU s k 0 1 with
  | 1 | 2 | 3 | 10 => inv tu
  | 4 | 7 => 10000
  | 5 => 1000
  | 6 =>
    let i : Fin 4 := Fin.ofNat 4 (ctxU s k 1 1)
    if posMode s i = 4 then 2 * posF s i 48 else (if 0x18 ≤ posU s i 23 1 then 2 else 1) * inv per
  | 8 | 9 => inv (div * per)
  | _ => 0

/-- Worst-case cycles of a kind (Table 11.1). -/
def ctxCycles (s : State) (k : Nat) : Nat :=
  match ctxU s k 0 1 with
  | 1 => 380 | 2 => 48 | 3 => 180 | 4 => 400 | 5 => 2000 | 6 => 260 | 7 => 1600 | 8 => 500
  | 9 => 60 + 40 * ctxU s k 12 1
  | 10 => 120
  | _ => 0

def ctxOf (s : State) (k : Nat) : Ctx :=
  let c := ctxCycles s k
  { num := k, kind := ctxU s k 0 1, axis := ctxAxis s k, pin := ctxU s k 2 1, cycles := c
    tier2 := if ctxU s k 0 1 = 1 then c - 320 else c, rate := ctxRate s k, deadline := cfgF s secContexts 0 (entryBase k + 4) * 400000000
    local_ := ctxU s k 8 2, sram := ctxU s k 10 2 }

/-- SELFTEST of an engine: ctx 124 to 127 (R301). -/
def selftestCtx (e : Nat) : Ctx :=
  { num := 124 + e, kind := 0, axis := 0, pin := e, cycles := 2400, tier2 := 2400, rate := 100, deadline := 4000000, local_ := 0, sram := 0 }

/-- Every context to be placed. -/
def ctxAll (s : State) : List Ctx := ((List.range 124).filter (ctxUsed s)).map (ctxOf s)

/-- A context that goes with the current loop of its axis (R305). -/
def inBundle (c : Ctx) : Bool := c.kind == 1 || c.kind == 2 || c.kind == 3 || c.kind == 10

/-! ## Checks on one engine (Table 11.2) -/

/-- Contexts with their engines. -/
abbrev Placement := List (Ctx × Nat)

def onEngine (p : Placement) (e : Nat) : List Ctx := (p.filter fun x => x.2 == e).map (·.1)

/-- The load of an engine as a fraction (R306). -/
def engineLoad (p : Placement) (e : Nat) : Q :=
  (((onEngine p e).map fun c => (c.cycles : Q) * c.rate).sum + 240000) / 400000000

/-- The place of an axis on the ring timebase in half clocks: PHASE + p × PHASE_STEP (R491). -/
def ringOffset (s : State) (n : Fin 4) : Int :=
  let step := match grpOf s n with | some g => tapsOf (grpF s g 24) | none => 0
  ((pwmTaps s n 12 : Int) + (s.ring.pos : Int) * step) / 16

/-- The offset of an axis's valley in half clocks (R117); `fuel` bounds the chain of SYNC references. -/
def carrierOffset (s : State) : Nat → Fin 4 → Int
  | 0, _ => 0
  | fuel + 1, n =>
    let y := pwmU s n 2 1
    if y = 5 then ringOffset s n else if y = 0 ∨ 5 < y then 0 else carrierOffset s fuel (Fin.ofNat 4 (y - 1)) + 2 * (clocksOf (pwmEdge s n) (pwmF s n 12) : Int)

/-- The interval between reservations of an axis in half clocks, and the offset of the first. -/
def resStep (s : State) (n : Fin 4) : Nat := if pwmU s n 1 1 = 3 then periodClocks s n else 2 * periodClocks s n
/-- SENSE.OFFSET in half clocks (R181). -/
def senseOffset (s : State) (n : Fin 4) : Int := 2 * roundHalfUp (cfgF s secSense n.val 4 * 400000000)
/-- From the trigger instant to the arrival of the current sample, in half clocks, at the latest. SAR: 37.5 ns to the sampling window (R181), the
conversions of the slots before it (R178), 282.5 ns to the result (Table 1.2). Delta-sigma: 1 / f_mod + 62.5 ns to te and 57.5 ns to the record
(R184). The rules bound the arrival and do not fix it: the latest instant stands for all. DESIGN CHOICE (log entry 205), unsafe. -/
def sampleLag (s : State) (n : Fin 4) : Nat :=
  ([36, 48, 60].map fun off =>
    let unit := cfgU s secSense n.val (off + 1) 1
    let slot := cfgU s secSense n.val (off + 2) 1
    match cfgU s secSense n.val off 1 with
    | 1 =>
      let code := match ownerOf s (resSarSlot unit slot) with | some e => e.select / 256 | none => 0
      256 + 200 * ((injectedSlots s unit code).countP fun k => decide (k < slot))
    | 2 => 96 + (800000000 / dsRate s unit).ceil.toNat
    | _ => 0).foldl max 0
/-- The first reservation starts as the sample of the first selected reload arrives (R12). -/
def resOffset (s : State) (n : Fin 4) : Int :=
  carrierOffset s 4 (axLeader s n) + (if pwmU s n 1 1 = 2 then (periodClocks s n : Int) else 0) + senseOffset s n + sampleLag s n

/-- Two trains of 800 ns reservations overlap at some instant: their offsets differ by less than 640 half clocks modulo the
greatest common divisor of their intervals. -/
def resOverlap (s : State) (a b : Fin 4) : Bool :=
  let g := Nat.gcd (resStep s a) (resStep s b)
  if g = 0 then true else
  let r := ((resOffset s a - resOffset s b) % (g : Int)).toNat
  decide (r < 640) || decide (g - r < 640)

/-- RESERVATION: no two current loops of an engine overlap. -/
def reservationsOk (s : State) (cs : List Ctx) : Bool :=
  let ax := (cs.filter fun c => c.kind == 1).map (·.axis)
  ax.all fun a => ax.all fun b => a == b || !resOverlap s a b

def ceilQ (x : Q) : Int := -((-x).floor)

/-- A tier-2 context runs before another: the shorter deadline, then the lower number (R304). -/
def runsBefore (a b : Ctx) : Bool := decide (a.deadline < b.deadline) || (a.deadline == b.deadline && decide (a.num < b.num))

/-- The iteration of R307, in cycles; `fuel` bounds its rounds. -/
def responseLoop (s : State) (cs : List Ctx) (c : Ctx) : Nat → Q → Q
  | 0, r => r
  | fuel + 1, prev =>
    let res : Q := ((cs.filter fun k => k.kind == 1).map fun k => (ceilQ (prev / (tuConfig s k.axis * 400000000)) : Q) * 320).sum
    let early : Q := ((cs.filter fun j => j.num != c.num && runsBefore j c && j.rate != 0).map fun j => (ceilQ (prev / (400000000 / j.rate)) : Q) * (j.tier2 : Q)).sum
    let r := (c.tier2 : Q) + res + early
    if r = prev ∨ c.deadline < r then r else responseLoop s cs c fuel r

/-- DEADLINE: the worst-case response of every tier-2 context lies within its deadline. -/
def deadlinesOk (s : State) (cs : List Ctx) : Bool := cs.all fun c => decide (responseLoop s cs c 4096 (c.tier2 : Q) ≤ c.deadline)

/-- The first failing check of an engine, 0 where all pass (Table 11.2). Plans look at the load apart (R310). -/
def engineReason (s : State) (p : Placement) (e : Nat) (withLoad : Bool) : Nat :=
  let cs := onEngine p e
  if withLoad && decide (17 / 20 < engineLoad p e) then 1
  else if !reservationsOk s cs then 2
  else if !deadlinesOk s (selftestCtx e :: cs) then 3
  else if 1536 < (cs.map (·.local_)).sum then 4
  else 0

/-! ## Placing (R305) -/

/-- Engines that have not failed (R312). -/
def goodEngines (s : State) : List Nat := (List.range 4).filter fun e => !(s.rig.engines[e]?.map (·.failed)).getD true

/-- A refusal: engine (0xFF where none is named), context, reason (R306). -/
structure Infeasible where
  eng : Nat
  ctx : Nat
  reason : Nat
  deriving DecidableEq, Repr

/-- Engines by rising load, the lower number first where two are equal. -/
def byLoad (p : Placement) (es : List Nat) : List Nat := sortBy (fun a b => decide (engineLoad p a ≤ engineLoad p b)) es

/-- The contexts of one unit of placement go to the first engine that passes. -/
def placeOn (s : State) (p : Placement) (cs : List Ctx) (engines : List Nat) (withLoad : Bool) : Except Infeasible Placement :=
  let try_ (e : Nat) : Placement := p ++ cs.map fun c => (c, e)
  match engines.find? fun e => engineReason s (try_ e) e withLoad == 0 with
  | some e => .ok (try_ e)
  | none =>
    let ctx := (cs.head?.map (·.num)).getD 0
    let pin := (cs.head?.map (·.pin)).getD 0xFF
    match engines with
    | [] => .error ⟨pin, ctx, if pin != 0xFF && !(goodEngines s).contains pin then 7 else if (goodEngines s).isEmpty then 1 else 6⟩
    | e :: _ => .error ⟨pin, ctx, engineReason s (try_ e) e withLoad⟩

/-- Engines that hold a current loop of the group of an axis. -/
def groupEngines (s : State) (p : Placement) (n : Fin 4) : List Nat :=
  (p.filter fun x => x.1.kind == 1 && x.1.axis != n && axGroup s n != 0 && axGroup s x.1.axis == axGroup s n).map (·.2)

def bundleOf (cs : List Ctx) (n : Fin 4) : List Ctx := sortBy (fun a b => decide (a.kind ≤ b.kind)) (cs.filter fun c => inBundle c && c.axis == n)

/-- One bundle (steps 1 and 2 of R305). -/
def placeBundle (s : State) (good : List Nat) (cs : List Ctx) (withLoad : Bool) (p : Placement) (n : Fin 4) : Except Infeasible Placement :=
  let b := bundleOf cs n
  if b.isEmpty then .ok p else
  let pin := (b.head?.map (·.pin)).getD 0xFF
  let taken := groupEngines s p n
  let free := (good.filter fun e => !taken.contains e && (pin == 0xFF || pin == e))
  placeOn s p b (if axGroup s n != 0 && axLeader s n == n then free else byLoad p free) withLoad

/-- One of the remaining contexts (step 3): the engine of its axis's bundle first, then by load. -/
def placeRest (s : State) (good : List Nat) (withLoad : Bool) (p : Placement) (c : Ctx) : Except Infeasible Placement :=
  let home := ((p.find? fun x => x.1.kind == 1 && x.1.axis == c.axis).map (·.2)).toList
  let free := good.filter fun e => c.pin == 0xFF || c.pin == e
  placeOn s p [c] (home.filter free.contains ++ byLoad p (free.filter fun e => !home.contains e)) withLoad

/-- Remaining contexts in order of decreasing load, then of axis and number. -/
def restOrder (cs : List Ctx) : List Ctx :=
  sortBy (fun a b =>
    let la := (a.cycles : Q) * a.rate
    let lb := (b.cycles : Q) * b.rate
    decide (lb < la) || (la == lb && (decide (a.axis < b.axis) || (a.axis == b.axis && decide (a.num ≤ b.num))))) (cs.filter fun c => !inBundle c)

/-- Axes in the order of steps 1 and 2: the groups in ascending number with their members, then the ungrouped axes. -/
def bundleOrder (s : State) : List (Fin 4) :=
  sortBy (fun a b => decide (axGroup s a < axGroup s b) || (axGroup s a == axGroup s b && decide (a ≤ b))) (allAxes.filter fun n => axGroup s n != 0) ++
  allAxes.filter fun n => axGroup s n == 0

/-! ## SRAM (R308) -/

/-- The pool banks of BANKS. -/
def poolBanks (s : State) : List Nat := (List.range 8).filter fun b => bitAt (cfgU s secContexts 0 0 1) b

/-- One item placed whole in the first bank with room; bank sizes used so far beside their numbers. -/
def sramPut (size : Nat) : List (Nat × Nat) → Option (List (Nat × Nat))
  | [] => none
  | (b, used) :: rest => if used + size ≤ 1048576 then some ((b, used + size) :: rest) else (sramPut size rest).map ((b, used) :: ·)

/-- What the pool holds: size, and the number of the context, 128 + v for the result table of converter v. -/
def sramItems (s : State) : List (Nat × Nat) :=
  ((ctxAll s).map fun c => (64 * c.local_, c.num)) ++ ((ctxAll s).map fun c => (64 * c.sram, c.num)) ++
  ((List.range 7).map fun v => (8 * ((regularSlots s v).filter (· != 15)).length, 128 + v))

/-- The pool as R308 fills it, the largest items first: the banks with the bytes used, and each item with its bank, none where it finds no
room. -/
def sramPlaces (s : State) : List (Nat × Option Nat) :=
  let items := sortBy (fun a b => decide (b.1 ≤ a.1)) (sramItems s)
  (items.foldl (fun (acc : List (Nat × Nat) × List (Nat × Option Nat)) it =>
    match sramPut it.1 acc.1 with
    | some banks => (banks, (it.2, (acc.1.find? fun b => decide (b.2 + it.1 ≤ 1048576)).map (·.1)) :: acc.2)
    | none => (acc.1, (it.2, none) :: acc.2)) ((poolBanks s).map fun b => (b, 0), [])).2.reverse

/-- The first item that finds no room, 0xFF for a table. -/
def sramFails (s : State) : Option Nat := ((sramPlaces s).find? fun x => x.2.isNone).map fun x => if x.1 < 128 then x.1 else 0xFF

/-- A bank of the pool holds the mirror or the buffer of a context, or a result table. -/
def bankHolds (s : State) (bank item : Nat) : Bool := (sramPlaces s).any fun x => x.1 == item && x.2 == some bank

/-- Every context with its engine as steps 1 to 3 of R305 place them, or the refusal. -/
def placeAll (s : State) : Except Infeasible Placement := do
  let cs := ctxAll s
  let good := goodEngines s
  let p ← (bundleOrder s).foldlM (fun p n => placeBundle s good cs true p n) []
  (restOrder cs).foldlM (fun p c => placeRest s good true p c) p

/-- The schedule of the active set of `s` (R305), or the refusal by the first failing check of Table 11.2: SRAM comes after the checks of an
engine and before GROUP and PIN. -/
def schedule (s : State) : Except Infeasible Placement :=
  match placeAll s, sramFails s with
  | .error f, some k => .error (if f.reason < 5 then f else ⟨0xFF, k, 5⟩)
  | .ok _, some k => .error ⟨0xFF, k, 5⟩
  | r, none => r

/-- The data word of PLACEMENT_INFEASIBLE (R306). -/
def infeasibleData (f : Infeasible) : Nat := place f.eng 24 8 + place f.ctx 16 8 + place f.reason 8 8

/-! ## Migration plans (R310) -/

/-- The rank of an axis in SHED_RANK, 0 shed first. -/
def shedRank (s : State) (n : Fin 4) : Nat := bitsOf (cfgU s secContexts 0 1 1) (2 * n.val) 2

/-- What a shed axis keeps. The plan is built with the schedule, so that the angle source is the one the set names. -/
def shedKeeps (s : State) (c : Ctx) : Bool := c.kind == 1 || c.kind == 2 || c.kind == 10 || (c.kind == 3 && (ifcOf s c.axis 0).isNone)

/-- The state of building a plan: axes shed, axes marked TRIP. -/
structure PlanTry where
  shed : List (Fin 4)
  trip : List (Fin 4)
  deriving DecidableEq, Repr

/-- What placing the contexts of a failed engine comes to: a placement, or an axis to shed or to mark TRIP. -/
inductive PlanStep where
  | done (p : Placement)
  | shed (n : Fin 4)
  | trip (n : Fin 4)

/-- The axis of lowest rank among those with contexts on an engine, not shed yet. -/
def shedFrom (s : State) (t : PlanTry) (p : Placement) (e : Nat) : Option (Fin 4) :=
  let here := allAxes.filter fun n => !t.shed.contains n && (onEngine p e).any fun c => c.axis == n
  (sortBy (fun a b => decide (shedRank s a ≤ shedRank s b)) here).head?

/-- The answer to a placement that takes an engine over 85 % (R310). -/
def planOver (s : State) (good : List Nat) (t : PlanTry) (q : Placement) (n : Fin 4) : Option PlanStep :=
  match good.find? fun e => decide (17 / 20 < engineLoad q e) with
  | none => none
  | some e => some (match shedFrom s t q e with | some m => .shed m | none => .trip n)

/-- The remaining contexts, one at a time, until an engine exceeds 85 %. -/
def planOthers (s : State) (good : List Nat) (t : PlanTry) : List Ctx → Placement → PlanStep
  | [], p => .done p
  | c :: cs, p =>
    match placeRest s good false p c with
    | .error _ => .shed c.axis
    | .ok q => (planOver s good t q c.axis).getD (planOthers s good t cs q)

/-- The bundles, one at a time, then the remaining contexts. A bundle that finds no engine loses all that a shed axis drops, before its axis
is marked TRIP (R310). -/
def planUnits (s : State) (good : List Nat) (t : PlanTry) (moved rest : List Ctx) : List (Fin 4) → Placement → PlanStep
  | [], p => planOthers s good t rest p
  | n :: ns, p =>
    match placeBundle s good moved false p n with
    | .error _ => .shed n
    | .ok q => (planOver s good t q n).getD (planUnits s good t moved rest ns q)

/-- The plan for engine `e` over a placement; `fuel` bounds the sheds and trips. An axis marked TRIP loses the bundle that finds no engine; what
stands on the other engines stays, and a member of a group takes its whole group with it (R310). A pin of a moved context is one on the failed engine, and
falls away: DEDUCED (log entry 230), unsafe. -/
def planTry (s : State) (p : Placement) (e : Nat) : Nat → PlanTry → PlanTry × Placement
  | 0, t => (t, [])
  | fuel + 1, t =>
    let kept (c : Ctx) : Bool := !t.shed.contains c.axis || shedKeeps s c
    let base := p.filter fun x => x.2 != e && kept x.1
    let moved := ((p.filter fun x => x.2 == e && kept x.1 && !(t.trip.contains x.1.axis && inBundle x.1)).map (·.1)).map fun c => { c with pin := 0xFF }
    let good := (goodEngines s).filter (· != e)
    match planUnits s good t moved (restOrder moved) (bundleOrder s) base with
    | .done q => (t, q)
    | .shed n => if t.shed.contains n then planTry s p e fuel { t with trip := axMembers s n ++ t.trip } else planTry s p e fuel { t with shed := n :: t.shed }
    | .trip n => planTry s p e fuel { t with trip := axMembers s n ++ t.trip }

def axisMask (ns : List (Fin 4)) : Nat := (allAxes.map fun n => if ns.contains n then place 1 n.val 1 else 0).sum

/-- A load in units of 0.01 %. -/
def loadUnits (q : Q) : Nat := min 65535 (roundHalfUp (q * 10000)).toNat

def planOf (s : State) (p : Placement) (e : Nat) : Plan :=
  let (t, q) := planTry s p e 9 ⟨[], []⟩
  { place := q.map fun x => (x.1.num, x.2), shed := axisMask (t.shed.filter fun n => !t.trip.contains n), trip := axisMask t.trip
    load := ((List.range 4).map fun k => loadUnits (engineLoad q k)).foldl max 0 }

/-! ## The schedule in force -/

/-- A placement is loaded into the engines, with the plans that belong to it; SELFTEST has its place on each (R301). -/
def loadPlacement (s : State) (p : Placement) : State :=
  { s with rig := { s.rig with
      engines := Vector.ofFn fun e =>
        let cs := onEngine p e.val
        { s.rig.engines[e.val] with
          ctx := cs.map (·.num) ++ (if s.rig.engines[e.val].stopped then [] else [124 + e.val]), load := loadUnits (engineLoad p e.val), localUsed := (cs.map (·.local_)).sum }
      plans := Vector.ofFn fun e => planOf s p e.val } }

/-- The contexts and engines of a schedule held as numbers, as the placement they give. -/
def placementOf (s : State) (l : List (Nat × Nat)) : Placement := l.map fun x => (ctxOf s x.1, x.2)

/-- A change of the schedule reckons with the PWM parameters of the active set, also where an axis has not reached its boundary (R103, R303). -/
def unlagged (f : State → State) (s : State) : State :=
  let t := f { s with cfg := { s.cfg with lag := 0 } }
  { t with cfg := { t.cfg with lag := s.cfg.lag } }

/-- A new schedule takes effect: every axis is placed in full (R303, R312). -/
def adoptSchedule (s : State) (p : Placement) : State :=
  let t := loadPlacement s p
  ({ t with rig := { t.rig with shed := 0 } }).forAxes (fun _ _ => true) fun u n => u.setAxis n fun a => { a with core := { a.core with shed := false } }

end Sys2Proof.Machine
end

