-- ==== Sys2Proof/Machine/ShareOps.lean ====
section
/-! DEFINITION. The SHARE context of a group axis (R494, R495): its reference, its fraction and the balance loop. -/
namespace Sys2Proof.Machine
open Sys2Proof

/-- A cause for which the fraction ramps to zero and starts are refused (R494, R495, R499, R504, R505);
a follower none of whose ports carries SYNC is in the HALYARD row of Table 1.5. -/
def shareCause (s : State) (g : Fin 4) : Bool :=
  (s.group g).stale || !ringMember s || s.ring.divergent || s.ring.leaving || bitAt s.clk.lost 6 ||
    (s.ring.role == .follower && s.ring.pllPort.isNone) || (s.ring.role == .master && !refValid s g)

/-- A start of an axis is refused for its share (R495). -/
def shareInhibits (s : State) (n : Fin 4) : Bool := match grpOf s n with | some g => shareCause s g | none => false

/-- The SHARE frame of a dispatch of a group axis (Table 18.1, R493, R496): group, run flag, id, iq, safe-state selection, and from the master the
group reference while it is VALID. -/
def sendShare (s : State) (n : Fin 4) : State :=
  match grpOf s n with
  | none => s
  | some g =>
    if !ringMember s then s else
    let a := s.axis n
    ringSend s 0x05 ([BitVec.ofNat 8 g.val, BitVec.ofNat 8 (ofFlag (isRun a.core.st))] ++ f32Bytes a.ctl.id ++ f32Bytes a.ctl.iq ++
      [BitVec.ofNat 8 (subCode a.saf.selection)] ++ (if s.ring.role == .master && refValid s g then f32Bytes (s.group g).reference else []))

/-- At each dispatch the reference and the fraction are formed; an axis whose fraction has ramped to zero goes to OFF (R495). -/
def shareStep (s : State) (n : Fin 4) : State :=
  match grpOf s n with
  | none => s
  | some g =>
    let s := if s.ring.role == .master && refValid s g then s.setGroup g fun x => { x with stale := false } else s
    let cause := shareCause s g
    let run := isRun (s.axis n).core.st
    let t := aimShare s g (if cause || !run then 0 else 1 / (max 1 (runningMembers s g n) : Nat))
    let f := shareFraction t g
    let u := t.setAxis n fun a => { a with core := { a.core with shareRef := (t.group g).reference, shareFrac := f } }
    if cause && run && f == 0 then axisOff u n else u

/-- Own currents minus the mean of the members in step that run, from their last dispatch (R494). -/
def shareDiff (s : State) (n : Fin 4) (i : Q × Q) : Option (Fin 4 × Q × Q) :=
  match grpOf s n with
  | none => none
  | some g =>
    if !ringMember s then none else
    let c := (s.axis n).ctl
    let others := (othersInStep s).filter fun k => bitAt (s.member k).run g.val
    let ids := c.memberId :: others.map fun k => (s.member k).id[g.val]
    let iqs := c.memberIq :: others.map fun k => (s.member k).iq[g.val]
    let cnt : Q := (ids.length : Nat)
    some (g, i.1 - ids.sum / cnt, i.2 - iqs.sum / cnt)

/-- The balance loop (R494): the voltages it adds, and its integrators. -/
def balance (s : State) (n : Fin 4) (i : Q × Q) (tu : Q) : State × Q × Q :=
  match shareDiff s n i with
  | none => (s, 0, 0)
  | some (g, dd, dq) =>
    let x := s.group g
    let bd := x.balD - grpF s g 16 * tu * dd
    let bq := x.balQ - grpF s g 16 * tu * dq
    (s.setGroup g fun x => { x with balD := bd, balQ := bq }, bd - grpF s g 12 * dd, bq - grpF s g 12 * dq)

end Sys2Proof.Machine
end

