-- ==== Sys2Proof/Machine/Control.lean ====
section
/-! DEFINITION. The current-loop context (R203 to R227): rows CURRENT_LOOP_DISPATCH and SAMPLE_MISSING. -/
namespace Sys2Proof.Machine
open Sys2Proof

def State.setCtl (s : State) (n : Fin 4) (f : Control → Control) : State := s.setAxis n fun a => { a with ctl := f a.ctl }

/-! ## Transitions that a dispatch takes (R407, R591) -/

/-- A run state named by AXIS.START of a running axis takes effect, and its command is answered (R591). -/
def takeRun (s : State) (n : Fin 4) : State :=
  match (s.axis n).core.nextRun with
  | none => s
  | some (st, slot, ref, ramp) =>
    let t := (enterRun s n st false).setAxis n fun a => { a with core := { a.core with ref := ref, ramp := ramp } }
    match runningJob t slot with
    | some j => respond t j 0 (startPayload t n)
    | none => t

/-- An SS1 request in force at this dispatch (R407); a group stops as one, each member by its own request. -/
def takeSs1 (s : State) (n : Fin 4) : State :=
  if (s.axis n).core.ss1Asked && isRun (s.axis n).core.st then enterStopping (holdMove s n) n true else s

/-! ## Stage 1: samples (R186 to R194) -/

/-- Low-side pairs against the valley sample nearest in drive time (R194). -/
def checkPair (s : State) (n : Fin 4) (x : Sample) : State :=
  let v := (s.axis n).sense
  if (s.axis n).pwm.eventPeak then s else
  let one (t : State) (p : Q × Q × Nat) : State :=
    let old := decide (p.2.2 - v.valleyAt ≤ x.hold - p.2.2)
    let (u, w) := if old && v.valleyAt != 0 then (v.valleyU, v.valleyV) else (x.iU, x.iV)
    let bad := decide (senseF t n 20 < qabs (p.1 - u)) || decide (senseF t n 20 < qabs (p.2.1 - w))
    let fails := if bad then (t.axis n).sense.lsFails + 1 else 0
    let t1 := t.setAxis n fun a => { a with sense := { a.sense with lsFails := if 10 ≤ fails then 0 else fails } }
    if 10 ≤ fails then raiseStop t1 evLegCurrentMismatch n 0 else t1
  (v.lsPairs.foldl one s).setAxis n fun a => { a with sense := { a.sense with lsPairs := [], valleyU := x.iU, valleyV := x.iV, valleyAt := x.hold } }

/-- While no phase current flows, the samples of every channel are summed for its zero, up to 1,024 of them (R187). -/
def sumZero (s : State) (n : Fin 4) : State :=
  let calm := zeroConditions s n
  legs3.foldl (fun t l =>
    let r := readEntry t n (curOff l)
    let more (v : SenseAxis) : SenseAxis :=
      if !calm then { v with zeroSum := vupd v.zeroSum l fun _ => 0, zeroN := vupd v.zeroN l fun _ => 0 }
      else if !curPresent t n l || r.bad || decide (1024 ≤ v.zeroN[l.val]) then v
      else { v with zeroSum := vupd v.zeroSum l (· + r.x), zeroN := vupd v.zeroN l (· + 1) }
    t.setAxis n fun a => { a with sense := more a.sense }) s

/-- The hold instant of a sample in taps of model time. -/
def holdTapOf (s : State) (hold : Nat) : Nat := 128 * (s.clk.now - (s.clk.drive.toNat - hold))

/-- The sample is taken over, with the checks of R189 and R190. A sample on which the sum check does not run (a NEAR_EDGE value, two phases) neither
adds to the run of failures nor ends it: DESIGN CHOICE (log entry 253), unsafe. -/
def takeSample (s : State) (n : Fin 4) (x : Sample) : State :=
  let v := (s.axis n).sense
  let sum := if x.sumBad then v.sumFails + 1 else if x.sumGood then 0 else v.sumFails
  let ovr := if x.ovr then v.ovrFails + 1 else 0
  let sumTrip := decide (max 1 (senseU s n 2 1) ≤ sum)
  let ovrTrip := decide (max 1 (senseU s n 3 1) ≤ ovr)
  let hold := holdTapOf s x.hold
  let s := if cfgHas s secThermal n.val then chargeEdges s n (fun l => pick l x.iU x.iV x.iW) hold else s
  let t := s.setAxis n fun a => { a with sense := { a.sense with
    hold := x.hold, holdTap := hold, iU := x.iU, iV := x.iV, iW := x.iW, nearCount := min 65535 (a.sense.nearCount + x.nearCount)
    sumFails := if sumTrip then 0 else sum, ovrFails := if ovrTrip then 0 else ovr, missFails := 0, completeSince := true
    udc := udcAt s n x.hold
    uU := voltsOf s n (voltOff 0), uV := voltsOf s n (voltOff 1), uW := voltsOf s n (voltOff 2) } }
  let u := if sumTrip then firmwareTrip (raiseAxis t evCurrentSum n 0) n evCurrentSum else t
  let w := if ovrTrip then firmwareTrip (raiseAxis u evCurrentOverrange n 0) n evCurrentOverrange else u
  sumZero (checkPair w n x) n

/-! ## SLS and SDI at a dispatch (R411, R412) -/

/-- SLS becomes active, brakes an axis that runs, and ends its braking; its excess is timed in every state of the axis. -/
def stepSls (s : State) (n : Fin 4) (wm : Q) : State :=
  let on := slsActive s n
  let lim := safetyF s n 20
  let f := (s.axis n).saf
  let run := isRun (s.axis n).core.st
  let fresh := on && run && !f.slsWas && decide (lim < qabs wm)
  let braking := on && run && (fresh || (f.slsBraking && decide (19 / 20 * lim < qabs wm)))
  let tooFast := on && !braking && decide (21 / 20 * lim < qabs wm)
  s.setAxis n fun a => { a with saf := { a.saf with
    slsWas := on, slsBraking := braking, slsBy := if fresh then s.clk.now + stopTicks s n else a.saf.slsBy
    slsAt := if fresh then s.clk.now else a.saf.slsAt, slsTq := if fresh then a.ctl.tRef else a.saf.slsTq
    slsOver := if tooFast && !a.saf.slsTold then some (a.saf.slsOver.getD s.clk.now) else none, slsTold := a.saf.slsTold && tooFast } }

/-- Displacement in the forbidden direction since SDI became active. -/
def stepSdi (s : State) (n : Fin 4) (th : Q) : State :=
  let on := sdiFwd s n || sdiRev s n
  let f := (s.axis n).saf
  let step := if f.sdiWas then wrapHalf (th - f.sdiLast) * twoPi / polePairs s n else 0
  let disp := if !on then 0 else if f.sdiWas then f.sdiDisp + (if sdiFwd s n then -step else step) else 0
  let t := s.setAxis n fun a => { a with saf := { a.saf with sdiWas := on, sdiLast := th, sdiDisp := disp } }
  if on && decide (safetyF s n 24 < disp) && decide (f.sdiDisp ≤ safetyF s n 24) then raiseStop t evSdiViolation n 0 else t

/-! ## Stages 5 to 9 -/

/-- The angle offset of a group member in turns (R226). -/
def setAngle (s : State) (n : Fin 4) : Q := if axGroup s n = 0 then 0 else ctlF s n 100 / twoPi

/-- The sample of a member as its own context takes it: what that context took, where it has been dispatched for this sample already, since the
prediction of R188 is then that of the next (R226). -/
def memberSample (s : State) (m : Fin 4) : Sample :=
  let x := sampleOf s m
  let v := (s.axis m).sense
  if v.holdTap = holdTapOf s x.hold then { x with iU := v.iU, iV := v.iV, iW := v.iW } else x

/-- dq currents of a member from its own sample (R226). -/
def memberDq (s : State) (m : Fin 4) (th : Q) : Q × Q := park (sampleAb s m (memberSample s m)) (th + setAngle s m)

/-- The mean of the members' dq currents. -/
def groupMean (s : State) (n : Fin 4) (th : Q) (own : Q × Q) : Q × Q :=
  let ms := axMembers s n
  let v := ms.map fun m => if m = n then own else memberDq s m th
  ((v.map (·.1)).sum / (ms.length : Q), (v.map (·.2)).sum / (ms.length : Q))

/-- The limited group reference: the leader's source value under the smallest of the members' ceilings times their number
(R220, R226). Answers source, limited value, ceiling, limiter, bypass of the ramp. -/
structure Torque where
  src : Q
  lim : Q
  ceil : Q
  code : Nat
  free : Bool
  deriving DecidableEq, Repr

/-- The reference limited to the smallest ceiling of Table 8.3 over the members of the group, each by its own DC link, times the number of members
(R220, R226). -/
def limitTorque (s : State) (n : Fin 4) (udc w : Q) : Torque :=
  let ms := axMembers s n
  let k : Q := (ms.length : Q)
  let wm := w / polePairs s n
  let (src, free) := torqueSource s (axLeader s n) wm
  let each := ms.map fun m =>
    let x := smallest (ceilings s m wm src (fluxCoord s m (if m = n then udc else udcAt s m (sampleOf s m).hold) w))
    (x.1, x.2 * k)
  let c := smallest each
  { src := src, lim := qlimit (qmax 0 c.2) src, ceil := c.2, code := if c.2 < qabs src then c.1 else 0, free := free }

/-- The rates per second at which the limited reference rises and falls (R221). -/
def rampRates (s : State) (n : Fin 4) (tq : Torque) : Q × Q :=
  (if (s.axis n).core.ramp = 0 || (s.axis n).core.st != .runTorque then ctlF s n 96 else (s.axis n).core.ramp,
   if tq.code = 0 then ctlF s n 96 else qmax (ctlF s n 96) (10 * tMaxOf s n))

/-- The current references of an axis (R219, R222, R288, R428): the warm-up current, the discharge current, nothing in a
standstill identification, the table otherwise. -/
def currentRefs (s : State) (n : Fin 4) (tRef lv : Q) : Q × Q :=
  let a := s.axis n
  let k : Q := ((axMembers s n).length : Q)
  if a.core.warmup then (a.th.warmI, 0)
  else if a.core.st == .axisSafe then
    (let dt : Q := ((s.clk.now - s.disch.startedAt : Nat) : Q) / 100000000
     let full := -(safetyF s n 56)
     (if s.disch.ending then qmin 0 (a.ctl.idRef - full * tuOf s n / (1 / 100)) else full * qmin 1 (dt / (1 / 100)), 0))
  else if a.core.st == .catching && a.catch_.step < 6 then (0, 0)
  else
    let (d, q) := mtpa s n (if a.ctl.tqZero then 0 else tRef / k) lv
    (if a.ctl.fwHold then a.ctl.idRef else d, if a.ctl.tqZero then 0 else q)

/-- The field-weakening update (R223), from |u_pre| of the last dispatch. -/
def stepFw (s : State) (n : Fin 4) (udc w lv : Q) : State :=
  let c := (s.axis n).ctl
  if !ctlFlag s n 1 || c.fwHold then s else
  let e := c.uPre - (1 - ctlF s n 72) * uLim s n udc
  let dl := qmin 0 (qmax (c.dl - ctlF s n 76 * tuOf s n * e / qmax (qabs w) 1) (-(ctlF s n 112)))
  let low := decide (lv ≤ ctlF s n 108) && decide (0 < e)
  let since := if low then some (c.exhSince.getD s.clk.now) else none
  let ex := match since with | some t => decide (t + 10000000 ≤ s.clk.now) | none => false
  let t := s.setCtl n fun c => { c with dl := dl, exhSince := since, fwExhausted := ex, exhCount := if ex && !c.fwExhausted then satInc 16 c.exhCount else c.exhCount }
  if ex && !c.fwExhausted then raiseLimited t evFwExhausted n.val n.val (place n.val 24 8) else t

/-- CURRENT_TRACKING (R213). -/
def trackingError (s : State) (n : Fin 4) (ed eq : Q) (sat : Bool) : State :=
  let lim := iMaxOf s n / 4
  let bad := !sat && decide (lim * lim < ed * ed + eq * eq)
  let c := (s.axis n).ctl
  let since := if bad then some (c.errSince.getD s.clk.now) else none
  let due := match since with | some t => decide (t + 2000000 ≤ s.clk.now) | none => false
  let t := s.setCtl n fun c => { c with errSince := if due then none else since }
  if due then firmwareTrip (raiseAxis t evCurrentTracking n 0) n evCurrentTracking else t

/-! ## Stages 12 and 13: compare values and the commit -/

/-- The shadow set is written and committed: the leader writes COMMIT, which waits for SHADOW_DONE of the others (R227). -/
def commitSet (s : State) (n : Fin 4) : State :=
  if axLeader s n != n then markShadowDone s n else leaderCommit s n false

/-- The PERIOD that a dispatch commits: the low-temperature carrier cap raises it (R364). -/
def commitPeriod (s : State) (n : Fin 4) : Nat :=
  let p := periodClocks s n
  if cfgHas s secThermal n.val && (s.axis n).th.lowTemp && decide (0 < thF s n 64) then
    clampPeriod s n (max p (clocksOf (pwmEdge s n) (1 / thF s n 64)))
  else p

/-- Duties become the shadow set (R218, R134). -/
def writeShadow (s : State) (n : Fin 4) (d : Fin 3 → Q) (ratio : Q) : State :=
  let u := legs3.foldl (fun t l =>
    let upd := corrUpdate t n l (legAmps t n l) ratio (decide (d l ≤ 0) || decide (1 ≤ d l))
    let r := compareOf t n upd (d l) (commitPeriod t n)
    t.setAxis n fun a => { a with pwm := { a.pwm with
      legs := a.pwm.legs.set l.val r.2.2
      shadow := { a.pwm.shadow with period := commitPeriod t n, cmpA := a.pwm.shadow.cmpA.set l.val r.1, cmpB := a.pwm.shadow.cmpB.set l.val r.2.1 } } }) s
  u.setAxis n fun a => { a with pwm := { a.pwm with records := [] } }

/-- The correction of every leg is the measured one: no model is in force (R229). -/
def allMeasured (s : State) (n : Fin 4) : Bool :=
  legs3.all fun l =>
    let x := (s.axis n).pwm.legs[l.val]
    sensePresent s n l && !x.noisy && !x.short && decide (pwmF s n 68 ≤ qabs (legAmps s n l))

/-! ## After COMMIT: capture and losses -/

/-- The dispatch's capture record (R171, Table 6.7). -/
def captureRecord (s : State) (n : Fin 4) : State :=
  let a := s.axis n
  if cfgU s secTrip n.val 12 1 = 0xFF ∨ a.cap.state = 2 ∨ a.cap.state = 3 then s else
  let r : CapRecord := { time := s.clk.drive.toNat % 2 ^ 32, iU := a.sense.iU, iV := a.sense.iV, iW := a.sense.iW, udc := a.sense.udc
                         angle := angle16 a.ctl.theta, flags := ofFlag (legs3.any fun l => a.pwm.block[l.val]) + 2 * ofFlag (a.trip.src != 0) + 4 * a.pwm.safepat
                         ud := a.ctl.ud, uq := a.ctl.uq }
  let ring := (r :: a.cap.ring).take 8190
  let left := a.cap.remaining.map (· - 1)
  s.setAxis n fun b => { b with cap := { b.cap with
    ring := ring, remaining := left
    state := if left = some 0 then 2 else 1
    tripAt := if left = some 0 then ring.length - 1 - postTrigger s n else b.cap.tripAt } }

/-- Conduction losses of one update interval (R349, R350), by what governs each leg: without a gated switch the diodes carry the current. -/
def conduct (s : State) (n : Fin 4) : State :=
  if !cfgHas s secThermal n.val then s else
  let a := s.axis n
  let per : Q := (32 * a.pwm.active.period : Nat)
  let frac (l : Fin 3) : Q × Q :=
    let (cmpA, cmpB) := (a.pwm.active.cmpA[l.val], a.pwm.active.cmpB[l.val])
    match a.pwm.gates[l.val].drive with
    | .pattern sub => (match sub with | .ascLow => (0, 1) | .ascHigh => (1, 0) | _ => (0, 0))
    | .switching | .blocked =>
      let w : Q := (highWidth (pwmEdge s n) a.pwm.active.period cmpA cmpB : Nat)
      if per = 0 then (0, 0) else
      if fullLow (pwmEdge s n) a.pwm.active.period cmpA cmpB then (0, 1)
      else if fullHigh (pwmEdge s n) a.pwm.active.period cmpA cmpB then (1, 0) else
      (qmax 0 (w - (tapsOf (pwmF s n (20 + 8 * l.val)) : Q)) / per, qmax 0 (per - w - (tapsOf (pwmF s n (24 + 8 * l.val)) : Q)) / per)
    | .released | .sto | .latchedOff | .off => (0, 0)
  legs3.foldl (fun t l => chargeLeg t n l (frac l).1 (frac l).2 (tuOf s n)) s

/-- Sums for the tracking context and the profile (R229, R230, R322). -/
def addSums (s : State) (n : Fin 4) (id iq ud uq w : Q) (sat : Bool) : State :=
  let okR := !sat && decide (qabs w ≤ ctlF s n 136) && decide (ctlF s n 140 ≤ qabs id) && allMeasured s n
  let okK := !sat && decide (ctlF s n 116 ≤ qabs w)
  s.setAxis n fun a => { a with
    ctl := { a.ctl with
      n := a.ctl.n + 1, sumId := a.ctl.sumId + id, sumIq := a.ctl.sumIq + iq, sumUd := a.ctl.sumUd + ud
      sumUq := a.ctl.sumUq + uq, sumW := a.ctl.sumW + w, okRs := a.ctl.okRs && okR, okKe := a.ctl.okKe && okK }
    prof := { a.prof with sumW := a.prof.sumW + w / polePairs s n, nW := a.prof.nW + 1 } }

/-! ## The regulator (R208 to R212, R214, R226) -/

/-- The injected square wave (R279): ±HF_AMP × (1 − b) on the observer's g axis, in the dq frame; none while the pulses of R288 run. -/
def injection (s : State) (n : Fin 4) : Q × Q :=
  let o := (s.axis n).obs
  if !o.hfActive || !axSwitching s n || pulsing s n then (0, 0) else
  let v := (o.hfSign : Q) * (1 - o.blend) * cfgF s secSensorless n.val 20
  let d := obsAngle s n (s.axis n).sense.hold - (s.axis n).ctl.theta
  (v * cosT d, v * sinT d)

/-- The voltage pulses of a standstill identification (R288): after 1.0 ms of injection alone, 4 update intervals of each sign on the g axis, as
high as the LD model needs to reach POL_AMP × I_MAX. -/
def polarityPulse (s : State) (n : Fin 4) : Q × Q :=
  let k := (s.axis n).catch_
  let tu := tuOf s n
  let t := ticksOf tu
  if !pulsing s n || t = 0 then (0, 0) else
  let i := (s.clk.now - (k.syncAt + 100000)) / t
  let v := (if i < 4 then 1 else if i < 8 then -1 else 0) * ldOf s n * (cfgF s secSensorless n.val 56 * iMaxOf s n) / (4 * tu)
  let d := obsAngle s n (s.axis n).sense.hold - (s.axis n).ctl.theta
  (v * cosT d, v * sinT d)

/-- While injection is active the regulator takes the mean of the currents of two half-periods (R279). -/
def regCurrent (s : State) (n : Fin 4) (i : Q × Q) : Q × Q :=
  let o := (s.axis n).obs
  if !o.hfActive then i else
  match o.hist[max 1 (cfgU s secSensorless n.val 1 1) - 1]? with
  | some h => ((i.1 + h.1) / 2, (i.2 + h.2) / 2)
  | none => i

/-- Stages 8 and 9 of Table 8.1, on the current to be regulated (the mean in a group) and the member's difference. While no switch follows
the compare set the integrators hold nothing: DESIGN CHOICE (log entry 133), unsafe. -/
def regulate (s : State) (n : Fin 4) (udc w : Q) (im diff ref : Q × Q) : State :=
  let live := regulates s n
  let c := (s.axis n).ctl
  let deadbeat := ctlU s n 0 1 = 1
  let o :=
    match c.preset with
    | some p =>
      if deadbeat then regDeadbeat s n w im.1 im.2 ref.1 ref.2 p.1 p.2
      else regPi s n w im.1 im.2 ref.1 ref.2 (presetXd s n w im.1 im.2 p.1) (presetXq s n w im.1 im.2 p.2) false
    | none =>
      if deadbeat then regDeadbeat s n w im.1 im.2 ref.1 ref.2 c.ud c.uq
      else regPi s n w im.1 im.2 ref.1 ref.2 c.xd c.xq live
  let grouped := axGroup s n != 0 && live
  let tu := tuOf s n
  let dxd := if grouped then c.dxd - ctlF s n 60 * tu * diff.1 else 0
  let dxq := if grouped then c.dxq - ctlF s n 60 * tu * diff.2 else 0
  let hf0 := injection s n
  let pulse := polarityPulse s n
  let hf := (hf0.1 + pulse.1, hf0.2 + pulse.2)
  let (s, balD, balQ) := balance s n (im.1 + diff.1, im.2 + diff.2) tu
  let ud := o.ud + balD + (if grouped then dxd - ctlF s n 56 * diff.1 else 0) + hf.1
  let uq := o.uq + balQ + (if grouped then dxq - ctlF s n 56 * diff.2 else 0) + hf.2
  let (ld, lq) := limitVoltage (uLim s n udc) ud uq
  let sat := ld != ud || lq != uq
  s.setCtl n fun c => { c with
    preset := none, udOld := c.ud, uqOld := c.uq, dxd := dxd, dxq := dxq, uPre := hypot ud uq, ud := ld, uq := lq, voltSat := sat
    satCount := if sat then satInc 16 c.satCount else c.satCount
    xd := if !live then 0 else if deadbeat then c.xd else o.xd + (ld - ud)
    xq := if !live then 0 else if deadbeat then c.xq else o.xq + (lq - uq) }

/-- Stages 10 and 11: the duties. A vector that the limit has cut has the magnitude U_LIM, so that m is M_MAX then (R214, R215); in six-step
every leg is fully high or fully low (R217). Without a DC link the quotients have no stated result, and one free value stands for each
(log entry 5). -/
def modulate (s : State) (n : Fin 4) (udc thu : Q) : State × (Fin 3 → Q) :=
  let c := (s.axis n).ctl
  let (fv, t) := drawQ s
  if udc = 0 then
    let d := qclamp 0 1 fv
    (t.setCtl n fun c => { c with modIndex := fv }, fun _ => d)
  else
    let m := if c.voltSat then ctlF s n 64 else hypot c.ud c.uq / (udc / Config.sqrt3)
    let st := strategyOf s n m
    let ab := overmod st m fv (unpark (c.ud, c.uq) thu)
    let (a, b, w) := phases ab
    let v := (s.axis n).sense
    let z := zeroSeq st (ctlU s n 1 1) udc a b w v.iU v.iV v.iW
    ((if 2 ≤ st then t else s).setCtl n fun c => { c with modIndex := m, strategy := st }, fun l =>
      if sixStepM ≤ m then (if 0 < pick l a b w then 1 else 0) else qclamp 0 1 (1 / 2 + (pick l a b w + z) / udc))

/-- While no switch follows the compare set, the flux offset and its timers rest, the catch and observer inputs are withdrawn, the time of
R213 does not run, and the interval counts towards no estimate, since the stage applies no voltage (R229, R230). DEDUCED (log entry 133),
unsafe. -/
def restLoop (s : State) (n : Fin 4) : State :=
  if regulates s n then s else
  s.setCtl n fun c => { c with
    dl := 0, fwExhausted := false, exhSince := none, errSince := none, fwHold := false, tqZero := false, okRs := false, okKe := false }

/-- Stages 3 to 13 (R203). `th` and `w` are angle and speed at the sample; `ratio` is the DC link of the
last sample over this one. -/
def runStages (s : State) (n : Fin 4) (x : Sample) (th w ratio : Q) : State :=
  let udc := (s.axis n).sense.udc
  let own := park (sampleAb s n x) (th + setAngle s n)
  let im := regCurrent s n (if axGroup s n = 0 then own else groupMean s n th own)
  let lv := fluxCoord s n udc w
  let tq := limitTorque s n udc w
  let c := (s.axis n).ctl
  let tu := tuOf s n
  let (up, down) := rampRates s n tq
  let tRef := if c.tqZero then 0 else if tq.free then tq.lim else rampStep c.tRef tq.lim (up * tu) (down * tu)
  let ref := currentRefs s n tRef lv
  let psi := if c.keValid then c.psiEst else psiRef s n
  let tEst := 3 / 2 * polePairs s n * (psi * own.2 + (ldOf s n - lqOf s n) * own.1 * own.2)
  let s1 := s.setCtl n fun c => { c with
    tRef := tRef, tCeil := tq.ceil, limiter := tq.code, idRef := ref.1, iqRef := ref.2, id := own.1, iq := own.2, tEst := tEst
    memberId := own.1, memberIq := own.2 }
  let s1 := s1.setAxis n fun a => { a with obs := { a.obs with hist := (own :: a.obs.hist).take 8 } }
  let s2 := if regulates s1 n then stepFw s1 n udc w lv else s1
  let prev := ((s.axis n).ctl.ud, (s.axis n).ctl.uq)
  let s3 := regulate s2 n udc w im (own.1 - im.1, own.2 - im.2) ref
  let s4 := if regulates s3 n then trackingError s3 n (ref.1 - im.1) (ref.2 - im.2) (s3.axis n).ctl.voltSat else s3
  let (s5, d) := modulate s4 n udc (th + setAngle s n + w * (3 / 2) * tu / twoPi)
  let s6 := commitSet (writeShadow s5 n d ratio) n
  let p := predictDq s n w own.1 own.2 prev.1 prev.2
  let (pU, pV, pW) := phases (unpark p (th + setAngle s n + w * tu / twoPi))
  let s7 := s6.setAxis n fun a => { a with sense := { a.sense with predU := pU, predV := pV, predW := pW } }
  restLoop (addSums s7 n own.1 own.2 (s7.axis n).ctl.ud (s7.axis n).ctl.uq w (s7.axis n).ctl.voltSat) n

/-- The angle at the sample: a source that gives none leaves the last angle going on at the last speed. -/
def angleNow (s : State) (n : Fin 4) (at_ : Nat) : Q × Q :=
  let c := (s.axis n).ctl
  match srcAngle s n c.src at_ with
  | some x => x
  | none => (wrapTurn (c.theta + c.w * tuOf s n / twoPi), c.w)

/-- The source of a dispatch: every member of a group takes the leader's, since all use its angle (R226). DEDUCED (log entry 143), unsafe. -/
def groupSource (s : State) (n : Fin 4) (at_ : Nat) : State :=
  if axLeader s n = n then chooseSource (crossCheck s n at_) n at_
  else s.setCtl n fun c => { c with src := (s.axis (axLeader s n)).ctl.src }

/-- One dispatch of the current-loop context. -/
def currentLoop (s : State) (n : Fin 4) : State :=
  let a := noteDispatch (shareStep (takeSs1 (takeRun s n) n) n) 10 n.val 0
  let x := sampleOf a n
  let old := (a.axis n).sense.udc
  let b := takeSample a n x
  let c := ([0, 1] : List Nat).foldl (fun t r => match ifcOf t n r with | some i => ageSource t i | none => t) b
  let d := groupSource c n x.hold
  let (th, w) := angleNow d (axLeader d n) x.hold
  let e := d.setCtl n fun c => { c with theta := th, w := w }
  let f := stepSls e n (w / polePairs e n)
  let g := checkDischarge (stepSdi f n th) n
  let udc := (g.axis n).sense.udc
  let h := sendShare (conduct (captureRecord (runStages g n x th w (if udc = 0 then 1 else old / udc)) n) n) n
  if hasMonitor h n then h else odoStep h n

/-- The context is dispatched as its samples arrive (R203). -/
def execCurrentLoopDispatch (axis : Fin 4) (s : State) : Result :=
  if !ctxRuns s 1 axis.val 0 || bitAt s.clk.lost 2 || bitAt s.clk.lost 3 || !axEnabled s axis then .next s
  else finish s (currentLoop (noteDispatch s 1 axis.val 0) axis)

/-- OFFSET of the sampling of an axis in steps of 2.5 ns (R181). -/
def sampleOffset (s : State) (n : Fin 4) : Int := roundHalfUp (senseF s n 4 * 400000000)

/-- The time from reload and OFFSET to the sample deadline, in steps of 2.5 ns: the latest start of the sampling window is 37.5 ns after it, the
latest te one modulator clock and 62.5 ns (R181, R184, R191). -/
def deadlineAfter (s : State) (n : Fin 4) : Int :=
  let ds := legs3.filter fun l => entryKind s n (curOff l) == 2
  match ds with
  | l :: _ => 25 + (400000000 / dsRate s (entryUnit s n (curOff l))).ceil + 116
  | [] => 15 + 116

/-- The last reload whose sample deadline has passed, in steps of 2.5 ns of drive time (R191); a negative OFFSET can put the deadline before the
reload itself. -/
def reloadDue (s : State) (n : Fin 4) : Option Int :=
  let e : Int := 4 * (s.axis n).pwm.eventAt
  let per : Int := (s.axis n).pwm.active.period
  let next := e + if bitsOf (cfgU s secPwm n.val 1 1) 0 2 = 3 then per / 2 else per
  let late (x : Int) : Bool := decide (x + sampleOffset s n + deadlineAfter s n ≤ 4 * (s.clk.drive.toNat : Int))
  if late next then some next else if late e then some e else none

/-- A result that the context needs for the sample of a reload has not arrived: of a current, or of the DC link where its slot is injected
with the currents (R191, R192). -/
def resultMissing (s : State) (n : Fin 4) (reload : Int) : Bool :=
  let needed := ((legs3.filter (curPresent s n)).map curOff) ++ (if 16 ≤ entrySlot s n dcOff then [dcOff] else [])
  needed.any fun off => decide (4 * ((readEntry s n off).time : Int) ≤ reload + sampleOffset s n)

/-- Results are missing at the sample deadline (R191): the context is dispatched all the same and commits the previous set again, once for each
reload. -/
def execSampleMissing (axis : Fin 4) (s : State) : Result :=
  if !ctxRuns s 1 axis.val 0 || bitAt s.clk.lost 2 || !axEnabled s axis then .next s else
  match reloadDue s axis with
  | none => .next s
  | some e =>
  if (s.axis axis).sense.missAt = some e || !resultMissing s axis e then .next s else
  let t := commitSet (conduct (takeSs1 (takeRun (noteDispatch s 1 axis.val 0) axis) axis) axis) axis
  let fails := (s.axis axis).sense.missFails + 1
  let lost := decide (max 1 (senseU s axis 1 1) ≤ fails)
  let u := raiseLimited (t.setAxis axis fun a => { a with sense := { a.sense with
    missFails := if lost then 0 else fails, missAt := some e, completeSince := if lost then false else a.sense.completeSince } }) evSampleMissing axis.val axis.val (place axis.val 24 8)
  finish s (if lost then firmwareTrip (raiseAxis u evSampleLost axis 0) axis evSampleLost else u)

end Sys2Proof.Machine
end

