-- ==== Sys2Proof/Machine/Tracking.lean ====
section
/-! DEFINITION. The tracking context (R224, R229 to R232) and the rotation monitor (R270 to R275, R536): rows
TRACKING_RUN and MONITOR_RUN. -/
namespace Sys2Proof.Machine
open Sys2Proof

/-! ## TRACKING_RUN -/

/-- The largest torque of one column whose current magnitude stays within I_LIM (R224). -/
def columnTorque (s : State) (n : Fin 4) (lim : Q) (c : Nat) : Q :=
  let mag (r : Nat) : Q := hypot (tableId s n r c) (tableIq s n r c)
  let step := ctlF s n 104 / 31
  if mag 31 ≤ lim then 31 * step else
  match (List.range 31).reverse.find? fun r => decide (mag r ≤ lim) with
  | some r => ((r : Q) + (lim - mag r) / (mag (r + 1) - mag r)) * step
  | none => 0

/-- The resistance estimate (R229) from one counted interval's means. -/
def trackRs (s : State) (n : Fin 4) (id iq ud w : Q) : State :=
  let c := (s.axis n).ctl
  let raw := (ud + w * lqOf s n * iq) / id
  let f := if c.rsMs = 0 then raw else lowPass1 c.rsFilt raw
  let rs := ctlF s n 20
  let bad := decide (f < rs / 2) || decide (3 * rs < f)
  let t := s.setAxis n fun a => { a with ctl := { a.ctl with
    rsFilt := f, rsMs := min 2000 (c.rsMs + 1), rsBad := bad, rsEst := if bad then c.rsEst else f
    rsValid := !bad && decide (2000 ≤ c.rsMs + 1) } }
  if bad && !c.rsBad then raiseAxis t evRsImplausible n 0 else t
where
  /-- A first-order filter of 1 s at 1 ms. -/
  lowPass1 (old new : Q) : Q := old + (new - old) * (1 - Config.exp (-(1 / 1000)))

/-- ABNORMAL_KE and WRONG_MOTOR on a counted interval (R231, R232). -/
def judgeKe (s : State) (n : Fin 4) : State :=
  let c := (s.axis n).ctl
  let out := decide (c.keDev < ctlF s n 120) || decide (ctlF s n 124 < c.keDev)
  let outMs := if out then c.outMs + 1 else 0
  let inMs := if out then 0 else c.inMs + 1
  let rises := !c.abnormalKe && out && decide (ctlF s n 128 * 1000 ≤ (outMs : Q))
  let falls := c.abnormalKe && decide (1000 ≤ inMs)
  let t := s.setAxis n fun a => { a with ctl := { a.ctl with
    outMs := min 100000 outMs, inMs := min 1000 inMs, abnormalKe := (c.abnormalKe || rises) && !falls } }
  let u := if rises then raiseLogged t evAbnormalKe n.val (place n.val 24 8) (f32Bytes c.psiEst ++ f32Bytes (tMagOf s n)) else t
  if !c.spinDue && !c.wrongMotor then u else
  let ms := c.spinMs + 1
  if ms < 100 then u.setAxis n fun a => { a with ctl := { a.ctl with spinMs := ms } } else
  let wrong := decide (ctlF s n 132 < qabs c.keDev)
  let v := u.setAxis n fun a => { a with ctl := { a.ctl with spinMs := 0, spinDue := false, wrongMotor := wrong } }
  if wrong then raiseLogged v evWrongMotor n.val (place n.val 24 8) (f32Bytes c.keDev) else v

/-- The flux-linkage estimate (R230) from one counted interval's means. -/
def trackKe (s : State) (n : Fin 4) (id iq uq w : Q) : State :=
  let c := (s.axis n).ctl
  let raw := (uq - rsOf s n * iq) / w - ldOf s n * id
  let f := if c.keMs = 0 then raw else c.psiEst + (raw - c.psiEst) * (1 - Config.exp (-(1 / 50)))
  let t := s.setAxis n fun a => { a with ctl := { a.ctl with
    psiEst := f, keMs := min 100 (c.keMs + 1), keValid := decide (100 ≤ c.keMs + 1), keDev := f / psiRef s n - 1 } }
  judgeKe t n

/-- Energy and operating time of one millisecond (R536). -/
def countEnergy (s : State) (n : Fin 4) : State :=
  let a := s.axis n
  let e := 3 / 2 * (a.ctl.ud * a.ctl.id + a.ctl.uq * a.ctl.iq) / 1000
  { s with log := { s.log with counters := vupd s.log.counters n fun c =>
      let m := c.motorRest + qmax 0 e
      let r := c.regenRest + qmax 0 (-e)
      let t := if a.core.st == .off then c.secondsRest else c.secondsRest + 100000
      { c with
        motorWh := c.motorWh + (m / 3600).floor.toNat, motorRest := m - ((m / 3600).floor : Q) * 3600
        regenWh := c.regenWh + (r / 3600).floor.toNat, regenRest := r - ((r / 3600).floor : Q) * 3600
        seconds := c.seconds + t / 100000000, secondsRest := t % 100000000 } } }

/-- Every 10 ms Pair B takes the tracked resistance into the observer gains, while it runs drive firmware (R276); no formula of R277 to R280 has a
gain that depends on ψ (log entry 228). -/
def observerGains (s : State) (n : Fin 4) : State :=
  let o := (s.axis n).obs
  if !pairBTasksWork s || s.lock.takeover || (o.rsGain.isSome && decide (s.clk.now < o.gainAt + 1000000)) then s
  else s.setAxis n fun a => { a with obs := { a.obs with rsGain := some (rsOf s n), gainAt := s.clk.now } }

/-- The tracking context at 1 kHz. -/
def trackingStep (s : State) (n : Fin 4) : State :=
  let c := (s.axis n).ctl
  let k : Q := (c.n : Q)
  let id := c.sumId / k
  let iq := c.sumIq / k
  let w := c.sumW / k
  let a := if ctlFlag s n 2 && c.okRs && c.n != 0 then trackRs s n id iq (c.sumUd / k) w else s
  let b := if ctlFlag s n 3 && c.okKe && c.n != 0 then trackKe a n id iq (c.sumUq / k) w else a
  let lim := iLimOf b n
  let d := b.setAxis n fun x => { x with ctl := { x.ctl with
    n := 0, sumId := 0, sumIq := 0, sumUd := 0, sumUq := 0, sumW := 0, okRs := true, okKe := true
    tIlim := Vector.ofFn fun col => columnTorque b n lim col.val } }
  let e := if cfgHas d secThermal n.val then windStep d n else d
  let f := observerGains (countEnergy e n) n
  if hasMonitor f n then f else odoStep f n

def execTrackingRun (axis : Fin 4) (s : State) : Result :=
  if !ctxRuns s 5 axis.val 0 || !axEnabled s axis then .next s else finish s (noteDispatch (trackingStep s axis) 5 axis.val 0)

/-! ## MONITOR_RUN (R270 to R275) -/

/-- What a run makes of its voltages or currents. -/
structure Look where
  eLine : Q
  /-- Vector angle in turns. -/
  vec : Q
  deriving DecidableEq, Repr

/-- Line voltages UV and VW. -/
abbrev Lines := Q × Q

/-- The phase vector of line voltages, with its line peak (R270). -/
def lookVolts (v : Lines) : Look :=
  let a := (2 * v.1 + v.2) / 3
  let b := v.2 / Config.sqrt3
  ⟨Config.sqrt3 * hypot a b, atan2T b a⟩
/-- The vector of the phase currents (R273). -/
def lookAmps (iU iV : Q) : Look :=
  let (a, b) := clarke2 iU iV
  ⟨0, atan2T b a⟩

/-- A phase voltage carried on to a drive time (R270 step 2): its result plus the change that the vector of the last run makes, turning at the
speed found then. The rule names the two inputs and no formula: DESIGN CHOICE (log entry 219), unsafe. -/
def alignVolts (s : State) (n : Fin 4) (leg : Fin 3) (newest : Nat) : Q :=
  let m := (s.axis n).mon
  let r := readEntry s n (voltOff leg)
  let dt : Q := ((newest - r.time : Nat) : Q) / 100000000
  let at_ : Q := m.lastVector - (leg.val : Q) / 3
  voltsOf s n (voltOff leg) - m.speed * dt * (m.eLine / Config.sqrt3) * sinT at_

/-- The line voltages at the newest hold instant of the three phase voltages (R192, R270). -/
def linesOf (s : State) (n : Fin 4) : Lines :=
  let t (l : Fin 3) : Nat := (readEntry s n (voltOff l)).time
  let newest := max (t 0) (max (t 1) (t 2))
  let v := alignVolts s n 1 newest
  (alignVolts s n 0 newest - v, v - alignVolts s n 2 newest)

/-- A zero crossing of one line voltage between two runs, in drive time. -/
def crossing (old new : Q) (t0 t1 : Nat) : Option Q :=
  if (old < 0 ∧ 0 ≤ new) ∨ (0 < old ∧ new ≤ 0) then some ((t0 : Q) + ((t1 - t0 : Nat) : Q) * (old / (old - new))) else none

/-- The zero crossings since the last run (R272): while the vector turns forward UV rises through zero at 240°, VW at 0° and WU at 120°, and each
falls half a turn from there; backwards the other way round. Taken in the order of their times, two crossings in a row give the speed from the
interval between them and the sixths of a turn that the vector made in it. Crossings between two runs are placed on a straight line: DESIGN
CHOICE (log entry 220), unsafe. -/
def noteCrossings (m : Monitor) (v : Lines) (step : Q) (now : Nat) : Monitor :=
  let lines : List (Q × Q × Q) := [(m.lineUV, v.1, 2 / 3), (m.lineVW, v.2, 0), (-(m.lineUV + m.lineVW), -(v.1 + v.2), 1 / 3)]
  let found : List (Q × Q) := lines.filterMap fun x => (crossing x.1 x.2.1 m.lastRun now).map fun t =>
    (t, wrapTurn (x.2.2 + if decide (x.1 < 0) == decide (0 ≤ step) then 0 else 1 / 2))
  let add (xs : List (Q × Q)) (y : Q × Q) : List (Q × Q) := xs.takeWhile (fun x => decide (x.1 ≤ y.1)) ++ y :: xs.dropWhile fun x => decide (x.1 ≤ y.1)
  (found.foldl add []).foldl (fun q x =>
    let w := match q.crossAt with
      | some t0 => if t0 < x.1 then wrapHalf (x.2 - q.crossVec) * twoPi * 100000000 / (x.1 - t0) else q.crossW
      | none => q.crossW
    { q with crossAt := some x.1, crossVec := x.2, crossW := w }) { m with lineUV := v.1, lineVW := v.2 }

/-- Seconds since the last run. -/
def monDt (s : State) (n : Fin 4) : Q :=
  let d := s.clk.drive.toNat - (s.axis n).mon.lastRun
  if d = 0 then 1 / 10000 else (d : Q) / 100000000

/-- The turn of the vector since the last run. A run that follows one of the other kind has no earlier vector of its own, and the last speed goes
on: DESIGN CHOICE (log entry 262), unsafe. -/
def vectorStep (s : State) (n : Fin 4) (vec : Q) (amps : Bool) : Q :=
  let m := (s.axis n).mon
  if m.lastAmps == amps then wrapHalf (vec - m.lastVector) else m.speed * monDt s n / twoPi

/-- ROTATING after a run (R271): at or above DETECT_MIN in 8 consecutive runs with one direction, which a turn of more than 144° does not show;
left after 8 consecutive runs below it. -/
def detect (m : Monitor) (high : Bool) (step : Q) : Monitor :=
  let dir : Int := if step < 0 then -1 else 1
  let consistent := decide (qabs step ≤ 2 / 5) && (m.above == 0 || m.dir == dir)
  let above := if !high then 0 else if consistent then min 8 (m.above + 1) else 1
  let below := if high then 0 else min 8 (m.below + 1)
  { m with above := above, below := below, dir := dir, rotating := if 8 ≤ above then true else if 8 ≤ below then false else m.rotating }

/-- What a run reports: while ROTATING is clear speed 0 and no angle, for which 0 stands (R271, log entry 263). -/
def report (m : Monitor) (step w ang : Q) (at_ : Nat) : Monitor :=
  { m with speed := if m.rotating then w else 0, angle := if m.rotating then wrapTurn ang else 0, angleAt := at_
           turns := if m.rotating then m.turns + step else m.turns }

/-- One run from voltages: detection, clamping, speed and angle. -/
def monVolts (s : State) (n : Fin 4) (detectMin : Q) : Monitor :=
  let v := linesOf s n
  let k := lookVolts v
  let now := s.clk.drive.toNat
  let step := vectorStep s n k.vec false
  let m := detect (noteCrossings (s.axis n).mon v step now) (decide (detectMin ≤ k.eLine)) step
  let udc := (s.axis n).sense.udc
  let arc (old u : Q) : Q := if allSwitchesOff s n && decide (qabs (qabs u - udc) ≤ udc / 50) then old + qabs step else 0
  let aUV := arc m.arcUV v.1
  let aVW := arc m.arcVW v.2
  let clipped := decide (1 / 36 < aUV) || decide (1 / 36 < aVW)
  let w := if clipped then m.crossW else step * twoPi / monDt s n
  let sg : Q := if w < 0 then -1 else 1
  let since : Q := match m.crossAt with | some t => (now : Q) - t | none => 0
  let vec := if clipped then m.crossVec + m.crossW * since / 100000000 / twoPi else k.vec
  let hold (l : Fin 3) : Nat := (readEntry s n (voltOff l)).time
  { report m step w (vec - sg / 4) (if clipped then now else max (hold 0) (max (hold 1) (hold 2))) with
    eLine := if clipped then Config.sqrt3 * psiRef s n * qabs w else k.eLine
    clipped := clipped, lastVector := k.vec, lastAmps := false, arcUV := aUV, arcVW := aVW, lastRun := now }

/-- One run while an ASC pattern is applied (R273), with the detection of R271 on the E_line that the speed gives. -/
def monAmps (s : State) (n : Fin 4) (detectMin : Q) : Monitor :=
  let k := lookAmps (s.axis n).sense.iU (s.axis n).sense.iV
  let step := vectorStep s n k.vec true
  let w := step * twoPi / monDt s n
  let e := Config.sqrt3 * psiRef s n * qabs w
  { report (detect (s.axis n).mon (decide (detectMin ≤ e)) step) step w k.vec (s.axis n).sense.hold with
    eLine := e, clipped := false, lastVector := k.vec, lastAmps := true, arcUV := 0, arcVW := 0, crossAt := none, lastRun := s.clk.drive.toNat }

/-- MOTION_WITHOUT_SENSOR (R275). -/
def motionCheck (s : State) (n : Fin 4) (turned : Q) : State :=
  let m := (s.axis n).mon
  match ifcOf s n 0 with
  | none => s
  | some i =>
    if !m.rotating || !allSwitchesOff s n then
      s.setAxis n fun a => { a with mon := { a.mon with episode := 0, episodeCount := extP s i, episodeRaised := a.mon.episodeRaised && a.mon.rotating } }
    else
      let ep := m.episode + turned
      let moved := ((extP s i - m.episodeCount : Int) : Q) * polePairs s n / (cpr s i : Q)
      let t := s.setAxis n fun a => { a with mon := { a.mon with episode := ep } }
      if !m.episodeRaised && decide (1 ≤ qabs ep) && decide (qabs moved < qabs ep / 4) then
        raiseLogged (t.setAxis n fun a => { a with mon := { a.mon with episodeRaised := true } }) evMotionWithoutSensor n.val (place n.val 24 8) (f32Bytes ep)
      else t

/-- DETECT_MIN, with the default of Table 10.4 for an axis without the section (R295). -/
def detectMin (s : State) (n : Fin 4) : Q := if cfgHas s secSensorless n.val then cfgF s secSensorless n.val 40 else 10

/-- The rotation monitor runs, in every mode from cast-on step 13, at the multiples of 100 µs of drive time. -/
def execMonitorRun (axis : Fin 4) (s : State) : Result :=
  if !ctxRuns s 4 axis.val 0 || bitAt s.clk.lost 3 || !hasMonitor s axis || s.boot.phase < 0x0D || s.clk.drive.toNat % 10000 != 0 then .next s else
  let old := (s.axis axis).mon
  let m := if ascApplied s axis then monAmps s axis (detectMin s axis) else monVolts s axis (detectMin s axis)
  let t := s.setAxis axis fun a => { a with mon := m }
  finish s (noteDispatch (autoDischarge (odoStep (motionCheck t axis (m.turns - old.turns)) axis)) 4 axis.val 0)

end Sys2Proof.Machine
end

