-- ==== Sys2Proof/Machine/Sensorless.lean ====
section
/-! DEFINITION. The observer (R276 to R285) and the catch of a turning motor (R286 to R294). -/
namespace Sys2Proof.Machine
open Sys2Proof

/-! ## Fields of the SENSORLESS section (Table 10.4) -/
def slHas (s : State) (n : Fin 4) : Bool := cfgHas s secSensorless n.val
/-- A flag; an axis without the section has the default of the flags with OBS_EN and HF_EN clear (R295). -/
def slFlag (s : State) (n : Fin 4) (b : Nat) : Bool := if slHas s n then bitAt (cfgU s secSensorless n.val 0 1) b else bitAt 0x08 b
def slF (s : State) (n : Fin 4) (off : Nat) (dflt : Q) : Q := if slHas s n then cfgF s secSensorless n.val off else dflt
def obsEn (s : State) (n : Fin 4) : Bool := slFlag s n 0
def hfEn (s : State) (n : Fin 4) : Bool := slFlag s n 1
def catchFloor (s : State) (n : Fin 4) : Q := slF s n 44 100
def State.setObs (s : State) (n : Fin 4) (f : Observer → Observer) : State := s.setAxis n fun a => { a with obs := f a.obs }
def State.setCatch (s : State) (n : Fin 4) (f : Catch → Catch) : State := s.setAxis n fun a => { a with catch_ := f a.catch_ }

/-! ## One observer dispatch -/

/-- A vector in the dq frame of the current loop turned into the estimated frame. -/
def toGh (v : Q × Q) (d : Q) : Q × Q := (v.1 * cosT d - v.2 * sinT d, v.1 * sinT d + v.2 * cosT d)

/-- The magnitude test of R283 fails. -/
def magnitudeBad (s : State) (n : Fin 4) (o : Observer) (ih : Q) : Bool :=
  let want := qabs o.w * (psiRef s n + (ldOf s n - lqOf s n) * ih)
  decide (slF s n 16 600 ≤ qabs o.w) && decide (slF s n 32 (3 / 10) * qabs want < qabs (hypot o.egf o.ehf - want))

/-- Back-EMF, injection and PLL of one dispatch (R277 to R280). Answers the observer and its h-axis current. R277 transforms the sample at th,
which is therefore the angle at its hold instant; R278 carries it one interval on (DEDUCED, log entry 264, unsafe). A set acts in the interval
after its reload, so that the currents of a half-period have come two dispatches after its last set (R204, R279). -/
def obsUpdate (s : State) (n : Fin 4) : Observer × Q :=
  let o := (s.axis n).obs
  let c := (s.axis n).ctl
  let tu := tuOf s n
  let hold := (s.axis n).sense.hold
  let gap := ((hold : Q) - o.time) / 100000000 / twoPi
  let th := o.th + o.w * gap
  let d := c.theta - th
  let (ug, uh) := toGh (c.udOld, c.uqOld) d
  let (ig, ih) := toGh (c.id, c.iq) d
  let rs := o.rsGain.getD (rsOf s n)
  let ld := ldOf s n
  let lq := lqOf s n
  let eg := ug - rs * ig - ld * (ig - o.igP) / tu + o.w * lq * ih
  let eh := uh - rs * ih - ld * (ih - o.ihP) / tu - o.w * lq * ig
  let a := 1 - Config.exp (-(twoPi * slF s n 4 800 * tu))
  let egf := o.egf + a * (eg - o.egf)
  let ehf := o.ehf + a * (eh - o.ehf)
  let sg : Q := if 0 ≤ o.w then 1 else -1
  let errEmf := Config.atan2 (-(sg * egf)) (sg * ehf)
  let div := max 1 (cfgU s secSensorless n.val 1 1)
  let turn := o.hfActive && decide (div ≤ o.hfPhase + 1)
  let dih := ih - o.ihHalf
  let ended : Option Int := match o.hfSent[1]? with | some (sign, true) => some sign | _ => none
  let errHf := match ended with
    | some sign => (dih - o.dihP) * (sign : Q) / (slF s n 20 40 * (div : Q) * tu * (1 / ld - 1 / lq))
    | none => o.errHf
  let lo := slF s n 12 300
  let hi := slF s n 16 600
  let b := if (s.axis n).catch_.identify then 0 else if hi = lo then 1 else qclamp 0 1 ((qabs o.w - lo) / (hi - lo))
  let err := if pulsing s n then 0 else if hfEn s n then (1 - b) * errHf + b * errEmf else errEmf
  let bw := slF s n 8 150
  let wp := o.wp + (twoPi * bw) * (twoPi * bw) * err * tu
  let w0 := wp + 2 * (twoPi * bw) * err
  let h := qabs o.wH
  let w := if o.st == .recapturing then (if 0 ≤ o.wH then qclamp (9 / 10 * h) (11 / 10 * h) w0 else qclamp (-(11 / 10 * h)) (-(9 / 10 * h)) w0) else w0
  ({ o with
     egf := egf, ehf := ehf, igP := ig, ihP := ih, dihP := if ended.isSome then dih else o.dihP, ihHalf := if ended.isSome then ih else o.ihHalf
     hfSent := (if o.hfActive then (o.hfSign, turn) else (0, false)) :: o.hfSent.take 1
     hfPhase := if turn then 0 else if o.hfActive then o.hfPhase + 1 else 0, hfSign := if turn then -o.hfSign else o.hfSign
     hfActive := hfEn s n && decide (b < 1) && !pulsing s n, errHf := errHf, blend := b, err := err, wp := wp, w := w, time := (hold : Q) + tu * 100000000
     th := wrapTurn (th + w * tu / twoPi), thH := wrapTurn (o.thH + o.wH * gap + o.wH * tu / twoPi) }, ih)

/-- The lock condition of R281, and of R283 while it recaptures. -/
def lockOk (s : State) (n : Fin 4) (o : Observer) (ih : Q) : Bool :=
  decide (qabs o.err < slF s n 28 (1 / 10)) &&
  (hfEn s n || decide (slF s n 12 300 ≤ qabs o.w)) &&
  (o.st != .recapturing || !magnitudeBad s n o ih)

/-- LOCK_N. -/
def lockN (s : State) (n : Fin 4) : Nat := if slHas s n then max 1 (cfgU s secSensorless n.val 2 1) else 8

/-- The observer in use has lost the rotor (R283). -/
def loseRotor (s : State) (n : Fin 4) : State :=
  let t := s.setAxis n fun a => { a with
    ctl := { a.ctl with tqZero := true, fwHold := true }
    obs := { a.obs with
      st := .recapturing, wH := a.obs.w, thH := a.obs.th, lostAt := s.clk.now, wp := a.obs.w, lockRun := 0, lossRun := 0, emfRun := 0
      losses := satInc 16 a.obs.losses } }
  raiseAxis t evObserverLost n 0

/-- The observer locks again within RECAPTURE (R284); a held stop begins (R285). -/
def recaptured (s : State) (n : Fin 4) : State :=
  let o := (s.axis n).obs
  let t := s.setAxis n fun a => { a with
    ctl := { a.ctl with tqZero := false, fwHold := false }
    obs := { a.obs with st := .valid, heldStop := 0, recaptures := satInc 16 a.obs.recaptures } }
  let u := raiseLogged t evObserverRecaptured n.val (place n.val 24 8) (f32Bytes o.wH ++ f32Bytes (((s.clk.now - o.lostAt : Nat) : Q) / 100000000))
  if o.heldStop = 2 then u.setAxis n fun a => { a with core := { a.core with ss1Asked := true } }
  else if o.heldStop = 1 then rampStop u n
  else u

/-- An observer not in use that loses lock is seeded again from the source in use (R281). -/
def reseed (s : State) (n : Fin 4) : State :=
  let c := (s.axis n).ctl
  raiseAxis (s.setObs n fun o => { o with st := .unlocked, th := c.theta, time := ((s.axis n).sense.hold : Q), wp := c.w, w := c.w, lockRun := 0, lossRun := 0, emfRun := 0, losses := satInc 16 o.losses }) evObserverLost n 0

/-- The states of R281 after an update. -/
def judgeObserver (s : State) (n : Fin 4) (ih : Q) : State :=
  let o := (s.axis n).obs
  let good := lockOk s n o ih
  let run := if good then min 64 (o.lockRun + 1) else 0
  let loss := if slF s n 24 (7 / 20) < qabs o.err then min 3 (o.lossRun + 1) else 0
  let emf := if magnitudeBad s n o ih then min 3 (o.emfRun + 1) else 0
  let t := s.setObs n fun o => { o with lockRun := run, lossRun := loss, emfRun := emf }
  let locked := decide (lockN s n ≤ run)
  match o.st with
  | .recapturing => if locked then recaptured t n else t
  | .failed => t
  | .valid =>
    if o.inUse then (if 3 ≤ loss || 3 ≤ emf then loseRotor t n else if good then t else t.setObs n fun o => { o with st := .unlocked })
    else if good then t else reseed t n
  | .unlocked => if o.inUse && (3 ≤ loss || 3 ≤ emf) then loseRotor t n else if locked then t.setObs n fun o => { o with st := .valid } else t

/-- The observer runs after COMMIT whenever its axis switches (R276). -/
def execObserverDispatch (axis : Fin 4) (s : State) : Result :=
  if !ctxRuns s 3 axis.val 0 || !axEnabled s axis || !obsEn s axis || !regulates s axis then .next s else
  let (o, ih) := obsUpdate s axis
  finish s (noteDispatch (judgeObserver (s.setObs axis fun _ => o) axis ih) 3 axis.val 0)

/-- RECAPTURE expires (R284): a latched trip, with the pattern chosen from √3 × ψref × |ω_h|. -/
def execObserverRecaptureFailed (axis : Fin 4) (s : State) : Result :=
  let o := (s.axis axis).obs
  if o.st != .recapturing || bitAt s.clk.lost 1 || s.clk.now < o.lostAt + ticksOf (slF s axis 36 (1 / 50)) then .next s else
  let e := Config.sqrt3 * psiRef s axis * qabs o.wH
  let asc := decide (0 < e) && decide (safeUdc s axis - cfgF s secSafety 0 4 ≤ e)
  let sub := if asc then ascSide (s.axis axis) else .freewheel
  let t := s.setAxis axis fun a => { a with
    obs := { a.obs with st := .failed, heldStop := 0 }, ctl := { a.ctl with tqZero := false, fwHold := false }
    saf := { a.saf with selection := sub, ownAsc := asc }, pwm := { a.pwm with safepat := subCode sub } }
  finish s (firmwareTrip (raiseAxis t evObserverRecaptureFailed axis 0) axis evObserverRecaptureFailed)

/-! ## The catch -/

/-- A catch ends in OFF with a refusal. -/
def refuseCatch (s : State) (n : Fin 4) (code data : Nat) (extra : List Byte) : State :=
  let t := raiseLogged s code n.val (place n.val 24 8 + data) extra
  axisOff (t.setCatch n fun c => { c with refusal := code, refusals := satInc 16 c.refusals }) n

/-- CATCH_OVERSPEED (R294): OFF, or a latched trip with ASC. -/
def overspeed (s : State) (n : Fin 4) (eLine : Q) : State :=
  let data := min 65535 (roundHalfUp eLine).toNat
  if !slFlag s n 3 then refuseCatch s n evCatchOverspeed data [] else
  let t := raiseAxis s evCatchOverspeed n data
  let u := t.setAxis n fun a => { a with
    saf := { a.saf with selection := ascSide a, ownAsc := true }, pwm := { a.pwm with safepat := subCode (ascSide a) }
    catch_ := { a.catch_ with refusal := evCatchOverspeed, refusals := satInc 16 a.catch_.refusals } }
  firmwareTrip u n evCatchOverspeed

/-- A VALID position interface of the axis: angle, electrical speed. -/
def sensorNow (s : State) (n : Fin 4) (r : Nat) : Option (Q × Q) :=
  if srcGood s n r then srcAngle s n r s.clk.drive.toNat else none
def anySensor (s : State) (n : Fin 4) : Option (Q × Q) :=
  match sensorNow s n 1 with | some x => some x | none => sensorNow s n 2

/-- What step 1 finds: nothing yet, a refusal, a need to identify, or speed, angle, E_line and standstill. -/
inductive Acquired where
  | wait
  | noAngle
  | identify
  | found (w angle eLine : Q) (still : Bool)
  deriving DecidableEq, Repr

/-- The angle of the monitor at the present drive time. -/
def monNow (s : State) (n : Fin 4) : Q :=
  let m := (s.axis n).mon
  wrapTurn (m.angle + m.speed * ((s.clk.drive.toNat : Q) - (m.angleAt : Q)) / 100000000 / twoPi)

/-- Step 1 has had its 0.9 ms, since the start or since its last outcome in a wait (R287). -/
def acquireEnds (s : State) (n : Fin 4) : Bool := decide ((s.axis n).catch_.foundAt + 90000 ≤ s.clk.now)

/-- Step 1 (R287). Where 0.9 ms have not shown 8 consistent runs it ends with a VALID interface, or with none. -/
def acquire (s : State) (n : Fin 4) : Acquired :=
  let m := (s.axis n).mon
  let floor := catchFloor s n
  let sensor (x : Q × Q) : Acquired :=
    if floor ≤ qabs x.2 then .found x.2 x.1 (qmax m.eLine (Config.sqrt3 * psiRef s n * qabs x.2)) false else .found 0 x.1 m.eLine true
  let still (e : Q) : Acquired := match anySensor s n with
    | some x => .found 0 x.1 e true
    | none => if hfEn s n then .identify else .noAngle
  if hasMonitor s n then
    (if 8 ≤ m.above then (if floor ≤ qabs m.speed then .found m.speed (monNow s n) m.eLine false else still m.eLine)
     else if 8 ≤ m.below then (match anySensor s n with | some x => sensor x | none => still m.eLine)
     else if acquireEnds s n then (match anySensor s n with | some x => sensor x | none => .noAngle)
     else .wait)
  else match anySensor s n with
    | some x => let e := Config.sqrt3 * psiRef s n * qabs x.2
                if floor ≤ qabs x.2 then .found x.2 x.1 e false else .found 0 x.1 e true
    | none => .noAngle

/-- The two sources at step 1 conflict (R289): the angle difference in turns, with both angles and speeds. -/
def conflict (s : State) (n : Fin 4) : Option (Q × (Q × Q) × (Q × Q)) :=
  let m := (s.axis n).mon
  match hasMonitor s n && m.rotating, sensorNow s n 1 with
  | true, some x =>
    let floor := catchFloor s n
    let dirs := decide (floor ≤ qabs m.speed) && decide (floor ≤ qabs x.2) && decide (m.speed * x.2 < 0)
    let d := qabs (wrapHalf (monNow s n - x.1))
    if dirs || decide (1 / 24 < d) then some (d, (monNow s n, m.speed), x) else none
  | _, _ => none

/-- Step 4 (R232). -/
def wrongMotorCheck (s : State) (n : Fin 4) (w eLine : Q) : State :=
  if !ctlFlag s n 3 || decide (qabs w < ctlF s n 116) then s else
  let d := eLine / Config.sqrt3 / qabs w / psiRef s n - 1
  let wrong := decide (ctlF s n 132 < qabs d)
  let t := s.setAxis n fun a => { a with ctl := { a.ctl with wrongMotor := wrong } }
  if wrong then raiseLogged t evWrongMotor n.val (place n.val 24 8) (f32Bytes d) else t

/-- The direction of the command (R286); none where it names none. A start into RUN_POSITION or warm-up has every rotation
against it. -/
def againstCommand (s : State) (n : Fin 4) (w : Q) : Bool :=
  let c := (s.axis n).core
  if c.warmup || c.target == .runPosition then true else decide (c.ref * w < 0)

/-- The angle source of a catch: the primary, which is the observer on an axis without a primary interface (R282), the secondary, or the observer
seeded with what step 1 found. -/
def catchSource (s : State) (n : Fin 4) : Nat :=
  if srcGood s n 1 then 1 else if observerPrimary s n then 3 else if srcGood s n 2 then 2 else if obsEn s n then 3 else 0

/-- The Backstay has accepted a frame naming BOUNDED for the axis (R420). -/
def boundedNow (s : State) (n : Fin 4) : Bool := s.back.armed && (s.axis n).bs.mode == 1 && !(s.axis n).bs.held && !(s.axis n).bs.geRemoved

/-- The catch ends at the instant at which it would enable the gates without such a frame (R420). -/
def notArmed (s : State) (n : Fin 4) : State :=
  axisOff (s.setCatch n fun c => { c with refusal := evModeRefused, refusals := satInc 16 c.refusals }) n

/-- Step 6 (R291): the observer runs from here on, not yet locked (R281); the gates are enabled on the back-EMF, with TQ_ZERO. Step 7 begins. -/
def synchronise (s : State) (n : Fin 4) : State :=
  let k := (s.axis n).catch_
  let src := catchSource s n
  if src = 0 then refuseCatch s n evCatchNoAngle 0 []
  else if !boundedNow s n then notArmed s n else
  let w := if k.standstill then 0 else k.speed
  s.setAxis n fun a => { a with
    catch_ := { a.catch_ with step := 7, waiting := false, identify := false, syncAt := s.clk.now, found := w / polePairs s n }
    ctl := { a.ctl with src := src, sourceNone := false, theta := k.angle, w := w, tqZero := true, fwHold := false
                        preset := some (0, qsign w * k.eLine / Config.sqrt3), dl := 0 }
    obs := { a.obs with inUse := src == 3, st := .unlocked, th := k.angle, time := (s.clk.drive.toNat : Q), wp := w, w := w
                        lockRun := 0, lossRun := 0, emfRun := 0, egf := 0, ehf := 0 } }

/-- Steps 2 to 6 on what step 1 found. A wait at step 5 repeats steps 1 to 3 alone (R290): step 4 is taken once before it. -/
def catchOn (s : State) (n : Fin 4) (w ang eLine : Q) (still : Bool) : State :=
  let t := s.setCatch n fun c => { c with speed := w, angle := ang, eLine := eLine, standstill := still, found := w / polePairs s n, foundAt := s.clk.now, step := 2 }
  if 19 / 20 * udcOf s n < eLine then overspeed t n eLine else
  match conflict s n with
  | some (d, a, b) =>
    refuseCatch t n evCatchSourceConflict (angle16 d)
      (leBytes 2 (angle16 a.1) ++ leBytes 2 (angle16 b.1) ++ f32Bytes a.2 ++ f32Bytes b.2)
  | none =>
    let wait := !still && againstCommand s n w && !slFlag s n 2
    if wait then (if (s.axis n).catch_.waiting then t else wrongMotorCheck t n w eLine).setCatch n fun c => { c with step := 5, waiting := true }
    else synchronise (wrongMotorCheck t n w eLine) n

/-- A monitor run of a catch: steps 1 to 6, repeated while it waits for the direction (R286 to R291). -/
def execCatchStep (axis : Fin 4) (s : State) : Result :=
  let a := s.axis axis
  if bitAt s.clk.lost 1 || a.core.st != .catching || 6 ≤ a.catch_.step || a.catch_.identify then .next s else
  finish s <| match acquire s axis with
    | .wait => s
    | .noAngle => refuseCatch s axis evCatchNoAngle 0 []
    | .identify => if !boundedNow s axis then notArmed s axis else
      s.setAxis axis fun x => { x with
        catch_ := { x.catch_ with identify := true, standstill := true, speed := 0, eLine := x.mon.eLine, waiting := false, syncAt := s.clk.now }
        ctl := { x.ctl with src := 3, theta := 0, w := 0, tqZero := true }
        obs := { x.obs with inUse := true, st := .unlocked, th := 0, time := (s.clk.drive.toNat : Q), wp := 0, w := 0, blend := 0, hfActive := true } }
    | .found w ang e still => catchOn s axis w ang e still

/-- Standstill identification completes (R288), 1.0 ms and 8 update intervals after its start: the peaks decide the polarity of the angle
that injection found. How the current returns between the two pulses, and so which samples are the peaks, the rule does not say: they are
operands (log entry 227). -/
def execStandstillIdentification (axis : Fin 4) (iPos iNeg : Q) (s : State) : Result :=
  let a := s.axis axis
  if bitAt s.clk.lost 1 || a.core.st != .catching || !a.catch_.identify || s.clk.now < a.catch_.syncAt + 100000 + ticksOf (8 * tuOf s axis) then .next s else
  let p := qabs iPos
  let m := qabs iNeg
  let done (turn : Q) : State :=
    catchOn (s.setCatch axis fun c => { c with identify := false }) axis 0 (wrapTurn (a.obs.th + turn)) a.catch_.eLine true
  finish s (if 103 / 100 * m ≤ p then done 0 else if 103 / 100 * p ≤ m then done (1 / 2) else refuseCatch s axis evCatchNoAngle 0 [])

/-- The length of step 7 (R292). -/
def settleTicks (s : State) (n : Fin 4) : Nat := if (s.axis n).catch_.standstill then 10000 else ticksOf (slF s n 52 (1 / 2000))

/-- The brake of an axis that enters its run state (R413). -/
def releaseBrake (s : State) (n : Fin 4) : State :=
  let so := safetyU s n 2 1
  if h : so < 4 then
    (if 2 ≤ so then
      { (s.setAxis n fun a => { a with saf := { a.saf with brakeOut := true, brakeHolding := true, brakeAt := s.clk.now, stopTq := a.ctl.tRef } }) with
        so := { s.so with on := s.so.on.set so (!s.so.failed[so]) h } }
     else s)
  else s

/-- Step 7 ends (R292): the axis enters its run state, or returns to OFF. -/
def execSettleAndRelease (axis : Fin 4) (s : State) : Result :=
  let a := s.axis axis
  if bitAt s.clk.lost 1 || a.core.st != .catching || a.catch_.step != 7 || s.clk.now < a.catch_.syncAt + settleTicks s axis then .next s else
  if (a.ctl.src == 3 && a.obs.st != .valid) || a.ctl.fwExhausted then finish s (refuseCatch s axis evCatchNoAngle 0 []) else
  let late := a.catch_.answerSlot.isNone
  let t := s.setAxis axis fun x => { x with
    ctl := { x.ctl with tqZero := false }, catch_ := { x.catch_ with step := 0, waiting := false, catches := satInc 16 x.catch_.catches } }
  let u := releaseBrake (enterRun t axis a.core.target true) axis
  finish s (if late then raiseAxis u evCatchComplete axis 0 else u)

/-- CATCH_TIMEOUT expires during a wait (R290). -/
def execCatchTimeout (axis : Fin 4) (s : State) : Result :=
  let a := s.axis axis
  if a.core.st != .catching || !a.catch_.waiting || s.clk.now < a.catch_.startedAt + ticksOf (slF s axis 48 30) then .next s else
  finish s (refuseCatch s axis evCatchTimeout 0 [])

/-- 5 ms after acceptance a start is answered though its axis is still in CATCH (R294, R82). -/
def execAxisStartResponse (axis : Fin 4) (s : State) : Result :=
  let a := s.axis axis
  match a.catch_.answerSlot with
  | none => .next s
  | some slot =>
    if a.core.st != .catching || !hostServed s || s.clk.now < a.catch_.startedAt + 500000 then .next s else
    let t := s.setCatch axis fun c => { c with answerSlot := none }
    match runningJob t slot with
    | some j => finish s (respond t j 0 (startPayload t axis))
    | none => finish s t

end Sys2Proof.Machine
end

