-- ==== Sys2Proof/Machine/AxisCommands.lean ====
section
/-! DEFINITION. The AXIS commands (Tables 3.18, 3.19; R31, R36, R250, R252, R325 to R333, R367, R407, R591). -/
namespace Sys2Proof.Machine
open Sys2Proof

/-! ## Conditions (Table 2.2) -/

/-- A start of the axis is inhibited: a run inhibit of the device (order 5), or one of the causes that their chapters answer with
RUN_INHIBITED: R80, R312, R362, R378, R447, R453, R478 and R495. -/
def startInhibited (s : State) (n : Fin 4) : Bool :=
  runInhibit s || s.host.beatLost || (s.axis n).core.shed || (s.axis n).core.overtemp || bitAt s.lock.noStart n.val ||
  siInhibits s n || bitAt s.so.noStart n.val || canInhibits s n || shareInhibits s n

/-- Both STO channels are high: qualified, with no discrepancy and no STO_INT (R168 to R170). -/
def stoHigh (s : State) : Bool := s.sto.aQual && s.sto.bQual && !stoActive s

/-- The temperatures are above LT_LOW (R366). -/
def warmEnough (s : State) (n : Fin 4) : Bool := !cfgHas s secThermal n.val || decide (thF s n 60 ≤ coldest s n)

/-- The Backstay has accepted a window within the last 2 ms. -/
def windowFresh (s : State) : Bool := s.back.armed && decide (s.clk.now ≤ s.back.lastAccepted + 200000)

/-- The first condition of Table 2.2 that fails. -/
def startReason (s : State) (n : Fin 4) (warm : Bool) : Option Nat :=
  if !s.power.seated then some rsNotSeated
  else if !stoHigh s then some rsStoActive
  else if tripped s n then some rsTripLatched
  else if ringDivergent s then some rsDivergent
  else if startInhibited s n then some rsRunInhibited
  else if !warm && !warmEnough s n then some rsTempTooLow
  else if !windowFresh s then some rsBackstayNotArmed
  else if s.cfg.tack.isSome then some rsTackPending
  else none

/-! ## References -/

/-- The ceiling of Table 8.3 for a torque, over the members of the group (R226). -/
def torqueCeiling (s : State) (n : Fin 4) (ref : Q) : Q :=
  let ms := axMembers s n
  let wm := speedOf s n
  (smallest (ms.map fun m =>
    let x := smallest (ceilings s m wm ref (fluxCoord s m (udcOf s m) (wm * polePairs s n)))
    (x.1, x.2 * (ms.length : Q)))).2

/-- REF as it takes effect, and CLAMPED (Table 3.19). -/
def clampRef (s : State) (n : Fin 4) (st : AxState) (ref : Q) : Q × Bool :=
  let c := match st with
    | .runTorque => torqueCeiling s n ref
    | _ => wEff s n
  (qlimit (qmax 0 c) ref, decide (qmax 0 c < qabs ref))

/-- TARGET of Table 3.19; warm-up runs in RUN_TORQUE (R367). -/
def startTarget : Nat → Option (AxState × Bool)
  | 2 => some (.runTorque, false)
  | 3 => some (.runSpeed, false)
  | 4 => some (.runPosition, false)
  | 8 => some (.runTorque, true)
  | _ => none

/-- REF and RAMP of a request: REF is ignored for TARGET 4 and 8. -/
def refOf (j : Job) (st : AxState) (warm : Bool) : Option Q := if warm || st == .runPosition then some 0 else j.f 4

/-- The primary interface is REFERENCED, mechanically as well as electrically (R325). -/
def positionReady (s : State) (n : Fin 4) : Bool :=
  match ifcOf s n 0 with | some i => (s.ifc i).referenced && (s.ifc i).mechRef | none => false

/-- Warm-up runs on the axis (R367). -/
def warming (s : State) (n : Fin 4) : Bool := (s.axis n).core.warmup && isRun (s.axis n).core.st

/-! ## AXIS.START -/

/-- The axis leaves OFF for CATCH (R36, R286). -/
def beginCatch (s : State) (n : Fin 4) (slot : Nat) (st : AxState) (warm : Bool) (ref ramp : Q) (clamped : Bool) : State :=
  s.setAxis n fun a => { a with
    core := { a.core with
      st := .catching, target := st, warmup := warm, ref := ref, ramp := ramp, clamped := clamped, nextRun := none, ss1Asked := false }
    catch_ := { a.catch_ with
      step := 1, waiting := false, speed := 0, angle := 0, eLine := 0, standstill := false, identify := false, startedAt := s.clk.now, foundAt := s.clk.now
      refusal := 0, answerSlot := some slot, found := 0 }
    sense := { a.sense with lsFails := 0 }
    th := { a.th with warmI := 0, warmEnding := false, warmStep := 0 } }

/-- AXIS.START of an axis in OFF. -/
def startOff (s : State) (j : Job) (n : Fin 4) (st : AxState) (warm : Bool) (ref ramp : Q) : State :=
  if st == .runPosition && !positionReady s n then respond s j evNotReferenced []
  else match startReason s n warm with
  | some r => refuse s j r
  | none =>
    let (x, c) := clampRef s n st ref
    beginCatch (markStarted s j.slot) n j.slot st warm x ramp c

/-- AXIS.START of a running axis (R591): the named state is taken at the next dispatch; the present one takes REF and RAMP. -/
def startRunning (s : State) (j : Job) (n : Fin 4) (st : AxState) (warm : Bool) (ref ramp : Q) : State :=
  if warm then refuse s j rsBadTransition
  else if st == .runPosition && !positionReady s n then respond s j evNotReferenced []
  else
    let (x, c) := clampRef s n st ref
    if (s.axis n).core.st == st then
      let t := s.setAxis n fun a => { a with core := { a.core with ref := x, ramp := ramp, clamped := c } }
      succeed s t j (startPayload t n)
    else
      (markStarted s j.slot).setAxis n fun a => { a with core := { a.core with nextRun := some (st, j.slot, x, ramp), clamped := c } }

/-- The axis that a request names, where the active set enables it. -/
def axisOf (s : State) (j : Job) : Option (Fin 4) :=
  if h : j.u 0 1 < 4 then (if axEnabled s ⟨j.u 0 1, h⟩ then some ⟨j.u 0 1, h⟩ else none) else none

def execAxisStart (slot : Nat) (s : State) : Result :=
  command s slot 0x0301 fun s j =>
    match axisOf s j, startTarget (j.u 1 1) with
    | some n, some (st, warm) =>
      match refOf j st warm, j.f 8 with
      | some ref, some ramp =>
        if warming s n then refuse s j rsNotInMode
        else if (st == .runSpeed || st == .runPosition) && !cfgHas s secProfile n.val then badParameter s j
        else match (s.axis n).core.st with
        | .off => startOff s j n st warm ref ramp
        | .runTorque | .runSpeed | .runPosition => startRunning s j n st warm ref ramp
        | .catching | .stopping => refuse s j rsBadTransition
        | .axisSafe => refuse s j (if tripped s n then rsTripLatched else rsBadTransition)
      | _, _ => badParameter s j
    | _, _ => badParameter s j

/-! ## AXIS.STOP (R293, R330, R367, R407) -/

/-- The answer: the axis state. -/
def answerStop (s t : State) (j : Job) (n : Fin 4) : State := succeed s t j [BitVec.ofNat 8 (axCode (t.axis n).core.st)]

/-- What a stop of either kind does outside the run states: a catch ends in OFF, and warm-up ramps its current down. -/
def stopElsewhere (s : State) (n : Fin 4) : State :=
  if (s.axis n).core.st == .catching then axisOff s n
  else if warming s n then s.setAxis n fun a => { a with th := { a.th with warmEnding := true } }
  else s

def execAxisStopRamp (slot : Nat) (s : State) : Result :=
  command s slot 0x0302 fun s j =>
    match axisOf s j with
    | none => badParameter s j
    | some n =>
      if j.u 1 1 = 1 then s
      else if j.u 1 1 ≠ 0 then badParameter s j
      else answerStop s (if isRun (s.axis n).core.st && !warming s n then rampStop s n else stopElsewhere s n) j n

def execAxisStopSs1 (slot : Nat) (s : State) : Result :=
  command s slot 0x0302 fun s j =>
    match axisOf s j with
    | none => badParameter s j
    | some n =>
      if j.u 1 1 ≠ 1 then s
      else answerStop s (if warming s n then stopElsewhere s n else requestSs1 s n) j n

/-! ## References of a running axis -/

/-- AXIS.TORQUE (R219). -/
def execAxisTorque (slot : Nat) (s : State) : Result :=
  command s slot 0x0303 fun s j =>
    match axisOf s j, j.f 4 with
    | some n, some t =>
      if warming s n then refuse s j rsNotInMode
      else if ctlU s n 3 1 ≠ 0 then badParameter s j
      else if (s.axis n).core.st != .runTorque then refuse s j rsNotInMode
      else succeed s (s.setAxis n fun a => { a with core := { a.core with ref := t } }) j []
    | _, _ => badParameter s j

/-- AXIS.SPEED (R324). -/
def execAxisSpeed (slot : Nat) (s : State) : Result :=
  command s slot 0x0304 fun s j =>
    match axisOf s j, j.f 4 with
    | some n, some w =>
      if (s.axis n).core.st != .runSpeed then refuse s j rsNotInMode
      else succeed s (s.setAxis n fun a => { a with core := { a.core with ref := w } }) j []
    | _, _ => badParameter s j

/-- A move to a target begins: it is planned at the next profile period (R326, R333). -/
def beginMove (s : State) (n : Fin 4) (target : Int) (vMax : Q) : State :=
  s.setProf n fun p => { p with
    target := some target, vMax := vMax, moving := true, replan := true, settleSince := none, held := none, latched := none }

/-- The target of a request as a count (R325). -/
def moveTarget (s : State) (i : Fin 4) (j : Job) : Int := j.i 4 4 * (cpr s i : Int) + ((j.u 8 2 * cpr s i / 65536 : Nat) : Int)

/-- AXIS.MOVE (R325, R326, R332). -/
def execAxisMove (slot : Nat) (s : State) : Result :=
  command s slot 0x0305 fun s j =>
    match axisOf s j, j.f 12 with
    | some n, some v =>
      if v < 0 then badParameter s j
      else if (s.axis n).core.st != .runPosition then refuse s j rsNotInMode
      else match ifcOf s n 0 with
      | some i =>
        if !positionReady s n then respond s j evNotReferenced []
        else succeed s (beginMove (discardMove s n) n (moveTarget s i j) v) j []
      | none => respond s j evNotReferenced []
    | _, _ => badParameter s j

/-- AXIS.RESUME (R333). -/
def execAxisResume (slot : Nat) (s : State) : Result :=
  command s slot 0x0306 fun s j =>
    match axisOf s j with
    | none => badParameter s j
    | some n =>
      match (s.axis n).prof.held, ifcOf s n 0 with
      | some t, some i =>
        if (s.axis n).core.st != .runPosition then refuse s j rsNotInMode
        else
          let d := t - extP s i
          succeed s (beginMove s n t 0) j (leBytes 4 (unsignedOf 32 (remainTurns (cpr s i) d)) ++ leBytes 2 (remainAngle (cpr s i) d))
      | _, _ => refuse s j rsNotInMode

/-! ## AXIS.STATUS and AXIS.REFERENCE -/

/-- AXIS.STATUS. Without a THERMAL section there is no junction estimate: a free value. -/
def execAxisStatus (slot : Nat) (s : State) : Result :=
  command s slot 0x0307 fun s j =>
    if h : j.u 0 1 < 4 then
      let n : Fin 4 := ⟨j.u 0 1, h⟩
      let a := s.axis n
      if warming s n then refuse s j rsNotInMode else
      let (tj, t) := if cfgHas s secThermal n.val then (hottest s n, s) else drawQ s
      succeed s t j ([BitVec.ofNat 8 (if axEnabled s n then axCode a.core.st else 0), BitVec.ofNat 8 (subCode a.core.sub), BitVec.ofNat 8 a.th.reef, 0] ++
        f32Bytes (speedOf s n) ++ f32Bytes a.ctl.tEst ++ f32Bytes a.ctl.id ++ f32Bytes a.ctl.iq ++ f32Bytes (udcOf s n) ++ f32Bytes tj)
    else badParameter s j

/-- The holder of a resource that a run-time request of an axis finds (R110): an earlier run-time claim, or the owner of the map
where it is not the interface itself. -/
def busyWith (s : State) (n i : Fin 4) (resource : Nat) : Option (Nat × Nat) :=
  match s.cfg.claims.find? fun c => c.resource == resource && !(c.function == 0x0F && c.owner == n.val) with
  | some c => some (c.function, c.owner)
  | none => match ownerOf s resource with
    | some e => if e.function = 0x04 ∧ e.inst = i.val then none else some (e.function, e.inst)
    | none => none

/-- The claim of AXIS.REFERENCE (Table 4.13). Which function and instance hold a run-time claim, as RESOURCE_BUSY names them, R110 does not say:
Pair A firmware, which runs the command, with the axis as instance. DESIGN CHOICE (log entry 215), unsafe. -/
def claimFor (s : State) (n : Fin 4) (resource : Nat) : State :=
  let t := releaseClaim s resource
  { t with cfg := { t.cfg with claims := t.cfg.claims ++ [⟨resource, 0x0F, n.val⟩] } }

/-- AXIS.REFERENCE on the primary interface of the axis (R250 to R252). -/
def referenceBody (s : State) (j : Job) (n i : Fin 4) : State :=
  let src := j.u 1 1
  let res := if src = 0 then resIndex i else 0x02000000 + 32 + (src - 1)
  match busyWith s n i res with
  | some (f, o) => respond s j evResourceBusy (leBytes 4 res ++ [BitVec.ofNat 8 f, BitVec.ofNat 8 o])
  | none =>
    if src ≠ 0 ∧ posU s i 26 1 ≠ src - 1 then badParameter s j
    else
      let t := claimFor s n res
      let u := t.setIfc i fun p =>
        if src = 0 then { p with awaitIndex := true, indexP := extP s i } else { p with awaitSwitch := true, indexP := extP s i }
      succeed s u j []

def execAxisReference (slot : Nat) (s : State) : Result :=
  command s slot 0x0308 fun s j =>
    match axisOf s j with
    | none => badParameter s j
    | some n =>
      if 4 < j.u 1 1 then badParameter s j
      else if warming s n then refuse s j rsNotInMode
      else match ifcOf s n 0 with
      | some i => referenceBody s j n i
      | none => badParameter s j

end Sys2Proof.Machine
end

