-- ==== Sys2Proof/Machine/Position.lean ====
section
/-! DEFINITION. The commands of the position interfaces: edges, indexes, serial frames, estimates, snapshots (R237 to R269), with
the Backstay's own decoder (R416). -/
namespace Sys2Proof.Machine
open Sys2Proof

/-! ## Edge lists and speed (R254, R255) -/

/-- The time of an event in units of 5 ns. -/
def time5 (s : State) (half : Bool) : Nat := 2 * s.clk.now + ofFlag half

/-- An edge enters a list of edges, which keeps those within `window` (5 ns units) of it. -/
def pushEdge (es : List (Nat × Int × Bool)) (t : Nat) (p : Int) (eligible : Bool) (window : Nat) : List (Nat × Int × Bool) :=
  (t, p, eligible) :: es.takeWhile fun e => decide (t ≤ e.1 + window)

/-- Counts per second from the earliest eligible edge to the last edge; none where fewer than two eligible edges lie in the list (R255). That the
last edge counts as t_last although it reverses is DEDUCED from "the last edge before the snapshot" (log entry 261), unsafe. -/
def edgeRate (es : List (Nat × Int × Bool)) : Option Q :=
  let ok := es.filter fun e => e.2.2
  if ok.length < 2 then none else
  match es.head?, ok.getLast? with
  | some l, some f => if l.1 = f.1 then none else some (((l.2.1 - f.2.1 : Int) : Q) * 200000000 / ((l.1 - f.1 : Nat) : Q))
  | _, _ => none

/-! ## The Backstay's decoder (R415, R416) -/

/-- Configuration the Backstay holds in its own copy. -/
def bsBody (s : State) (id inst : Nat) : List Byte := (s.back.copy.bind fun img => imgBody img id inst).getD []
def bsU (s : State) (id inst off size : Nat) : Nat := fieldU (bsBody s id inst) off size
def bsF (s : State) (id inst off : Nat) : Q := fieldF (bsBody s id inst) off
/-- BS_POS of an axis; 0xFF for none. -/
def bsPos (s : State) (n : Fin 4) : Nat := if s.back.copy.isSome then bsU s secSafety 0 (safetyOff n 1) 1 else 0xFF
/-- BS_CPR: CPR in MODE 1, CPR / 1024 in MODE 2. -/
def bsCpr (s : State) (n : Fin 4) : Nat :=
  let c := bsU s secPosition (bsPos s n) 4 4
  max 1 (if bsU s secPosition (bsPos s n) 0 1 = 2 then c / 1024 else c)

/-- One edge at the Backstay's decoder of an axis. -/
def bsEdge (s : State) (n : Fin 4) (d : Int) (half : Bool) : State :=
  s.setAxis n fun a =>
    let c := a.bs.count + d
    let fwd := a.bs.dir == 1
    let back := a.bs.dir == 2
    let step : Q := (d : Q) * twoPi / (bsCpr s n : Q)
    { a with bs := { a.bs with
        count := c, lastDir := d
        edges := pushEdge a.bs.edges (time5 s half) c (a.bs.lastDir == d) 200000
        forbidden := if fwd then a.bs.forbidden - step else if back then a.bs.forbidden + step else 0 } }

def bsEdges (s : State) (i : Fin 4) (d : Int) (half : Bool) : State :=
  s.forAxes (fun t n => axPresent t n && bsPos t n == i.val) fun t n => bsEdge t n d half

/-- A level change of MODE 1 that has held for `clocks` passes the filter of the Backstay's copy (R238, R416). -/
def bsFilter (s : State) (i : Fin 4) (clocks : Nat) : Bool :=
  s.back.copy.isSome && !bitAt s.clk.lost 7 && !(bsU s secPosition i.val 0 1 == 1 && decide (clocks < bsU s secPosition i.val 14 1 + 1))

/-! ## MODE 1, 2 and 4: quadrature edges (R238, R239, R241, R254) -/

/-- A frame error, or a quadrature error of MODES 1 and 2 (R238, R247). -/
def frameError (s : State) (i : Fin 4) : State :=
  let t := s.setIfc i fun p => { p with frameErrs := min 255 (p.frameErrs + 1) }
  if errLimit s i ≤ (t.ifc i).frameErrs then failSource t i failFrame else t

/-- The interface's part of one counted edge. -/
def countEdgeAt (s : State) (i : Fin 4) (d : Int) (half : Bool) : State :=
  if posMode s i = 1 then
    let reversal := (s.ifc i).lastDir != 0 && (s.ifc i).lastDir != d
    let t := moveP (s.setIfc i fun p => { p with frameErrs := 0 }) i (extP s i + d) s.clk.drive.toNat s.clk.drive.toNat false
    t.setIfc i fun p => { p with
      lastDir := d, held := reversal
      reported := if reversal then p.reported else extP t i
      edges := pushEdge p.edges (time5 s half) (extP t i) (!reversal || posDirMode s i) (2 * ticksOf (posF s i 64))
      time := s.clk.drive.toNat, updated := s.clk.now }
  else if posMode s i = 2 ∨ posMode s i = 4 then s.setIfc i fun p => { p with quad := p.quad + d, lastDir := d, frameErrs := 0 }
  else s

/-- The quadrature sequence: from the levels of A and B to new ones, one count forward where A leads B, one backward where B leads A, none where
neither changes; both at once are an error. That A leads forward is PRESUMED (log entry 224), unsafe. -/
def quadStep (a b a' b' : Bool) : Option Int :=
  if a == a' && b == b' then some 0
  else if a != a' && b != b' then none
  else if a != a' then some (if a' != b then 1 else -1)
  else some (if b' == a then 1 else -1)

/-- A quadrature error (R238): it counts as a frame error in MODES 1 and 2 (R247). -/
def quadError (s : State) (i : Fin 4) : State :=
  let t := s.setIfc i fun p => { p with quadErr := satInc 16 p.quadErr }
  if posMode s i = 4 then t else frameError t i

/-- New levels of A and B at the Backstay's decoder, which reads the POSITION section of its own copy (R415, R416). -/
def bsLevels (s : State) (i : Fin 4) (a b half : Bool) (clocks : Nat) : State :=
  if !bsFilter s i clocks then s else
  let t := { s with back := { s.back with levelA := s.back.levelA.set i.val a, levelB := s.back.levelB.set i.val b } }
  match quadStep s.back.levelA[i.val] s.back.levelB[i.val] a b with
  | some d => if d = 0 then t else bsEdges t i (if bitAt (bsU s secPosition i.val 3 1) 0 then -d else d) half
  | none => t

/-- New levels of A and B. A change of MODE 1 counts once it has held for FILTER + 1 POSITION clocks (R238); the comparators of MODES 2 and 4
have no such filter. The Backstay decodes the same balls for itself (R416). -/
def execQuadratureEdge (ifc : Fin 4) (a b half : Bool) (clocks : Nat) (s : State) : Result :=
  let s' := bsLevels s ifc a b half clocks
  let p := s.ifc ifc
  finish s <|
    if posMode s ifc = 0 || posMode s ifc = 3 || (posMode s ifc == 1 && decide (clocks < posFilter s ifc + 1)) then s' else
    let t := s'.setIfc ifc fun p => { p with levelA := a, levelB := b }
    match quadStep p.levelA p.levelB a b with
    | none => if bitAt s.clk.lost 5 then t else quadError t ifc
    | some d => if d = 0 || bitAt s.clk.lost 5 then t else countEdgeAt t ifc (if posInvert s ifc then -d else d) half

/-! ## The index (R249 to R251) -/

/-- The first index that GATE of the copy qualifies, in the direction that the decoder counts, references the Backstay's decoder (R249, R416). Edges
already timed move with the count, since the speed needs no referencing. -/
def bsIndex (s : State) (i : Fin 4) (rising : Bool) (clocks : Nat) : State :=
  let gate := bitsOf (bsU s secPosition i.val 3 1) 2 2
  let passes := gate == 0 || (gate == 1 && s.back.levelA[i.val]) || (gate == 2 && s.back.levelA[i.val] && s.back.levelB[i.val])
  if !bsFilter s i clocks || !passes then s else
  s.forAxes (fun t n => axPresent t n && bsPos t n == i.val && (t.axis n).bs.lastDir == (if rising then 1 else -1)) fun t n =>
    t.setAxis n fun a => if a.bs.referenced then a else
      let pos := bsU s secPosition i.val 8 4
      let c : Int := if bsU s secPosition i.val 0 1 = 2 then (pos / 1024 : Nat) else (pos : Nat)
      { a with bs := { a.bs with count := c, referenced := true, edges := shiftEdges a.bs.edges (c - a.bs.count) } }

/-- The observed count and INDEX_POS, in counts, or in quadrants in MODE 2 (R242). -/
def indexUnit (s : State) (i : Fin 4) : Nat := if posMode s i = 2 then 1024 else 1
def observed (s : State) (i : Fin 4) : Nat :=
  if posMode s i = 2 then ((s.ifc i).quad % ((max 1 (cpr s i / 1024) : Nat) : Int)).toNat else (s.ifc i).count

/-- The deviation reduced into −CPR/2 to CPR/2 (R250). -/
def indexDev (c obs pos : Nat) : Int :=
  let d := ((obs : Int) - (pos : Int)) % (c : Int)
  if 2 * d < (c : Int) then d else d - (c : Int)

/-- A qualified index (R250): a referencing event, a snap, or an out-of-window index. In MODE 2 it acts on whole quadrants, the latched ones
too (R242). -/
def indexAt (s : State) (i : Fin 4) : State :=
  let unit := indexUnit s i
  let c := max 1 (cpr s i / unit)
  let pos := posU s i 8 4 / unit
  let obs := observed s i
  let t := s.setIfc i fun p => { p with indexObs := obs }
  if (s.ifc i).awaitIndex then
    raiseLogged (refEvent t i (posU s i 8 4)) evIndexReferenced 0xFF (place i.val 24 8 + obs % 2 ^ 24) []
  else
    let d := indexDev c obs pos
    if d.natAbs ≤ posU s i 12 1 then
      let u := t.setIfc i fun p => { p with
        drift := signedOf 32 (unsignedOf 32 (p.drift - d)), oow := 0, indexMissing := false
        quad := if unit = 1024 then p.quad - d else p.quad
        quadAt := if unit = 1024 then p.quadAt - d else p.quadAt }
      let v := snapBy u i (-d * unit)
      v.setIfc i fun p => { p with indexP := extP v i }
    else
      let u := raiseLimited (t.setIfc i fun p => { p with oow := min 255 (p.oow + 1), indexP := extP s i }) evIndexOutOfWindow i.val 0xFF (place i.val 24 8 + obs % 2 ^ 24)
      if 3 ≤ (u.ifc i).oow then failSource u i failIndex else u

/-- GATE lets an edge of Z through: it names A, or A and B, as high (R249). In MODE 4 the fields of A and B are not used (R267). -/
def gatePasses (s : State) (i : Fin 4) : Bool :=
  let p := s.ifc i
  posMode s i == 4 || posGate s i == 0 || (posGate s i == 1 && p.levelA) || (posGate s i == 2 && p.levelA && p.levelB)

/-- An edge of Z: an index is the rising edge while counting forward and the falling one while counting backward, where GATE qualifies it
(R249). An interface that has counted nothing yet has no direction, and no index. DEDUCED (log entry 225), unsafe. In MODE 4 it references
the mechanical count (R248). -/
def execIndex (ifc : Fin 4) (rising : Bool) (clocks : Nat) (s : State) : Result :=
  let dir := (s.ifc ifc).lastDir
  let through := dir == (if rising then 1 else -1) && gatePasses s ifc && !(posMode s ifc == 1 && decide (clocks < posFilter s ifc + 1))
  let t := bsIndex s ifc rising clocks
  finish s (if !through || posMode s ifc = 0 || posMode s ifc = 3 || bitAt s.clk.lost 5 || !posIndexEn s ifc then t else indexAt t ifc)

/-! ## MODE 3: serial frames (R246, R247) -/

/-- Gray code to binary. -/
def grayToBin : Nat → Nat → Nat
  | 0, g => g
  | k + 1, g => g ^^^ (grayToBin k g >>> 1)

def popCount (bits v : Nat) : Nat := (List.range bits).countP fun k => bitAt v k

/-- The position of a frame: its position bits, binary or Gray. INVERT turns it round, so that a position x counts as −x modulo CPR (R239);
which position keeps its value is not stated: DESIGN CHOICE (log entry 226), unsafe. -/
def serialPos (s : State) (i : Fin 4) (word : Nat) : Nat :=
  let raw := bitsOf word (posU s i 19 1) (posU s i 18 1)
  let x := if bitAt (posU s i 3 1) 5 then grayToBin (posU s i 18 1) raw else raw
  if posInvert s i then (cpr s i - x % cpr s i) % cpr s i else x

/-- The count that the last position and speed predict, for JUMP_MAX. -/
def serialPredict (s : State) (i : Fin 4) : Option Int :=
  (s.ifc i).good.map fun g =>
    g.1 + ((s.ifc i).speed / (twoPi * polePairs s (posAxis s i)) * (cpr s i : Q) * (((s.ifc i).frameAt : Q) - (g.2 : Q)) / 100000000).floor

/-- A difference of counts taken the short way round. -/
def nearest (c : Nat) (d : Int) : Int :=
  let m := d % (c : Int)
  if 2 * m < (c : Int) then m else m - (c : Int)

/-- A frame error of R247. -/
def serialBad (s : State) (i : Fin 4) (r : SerialReply) : Bool :=
  let p := serialPos s i r.word
  !r.startHigh || !r.endGood ||
  (bitAt (posU s i 3 1) 6 && (popCount 31 (bitsOf r.word (posU s i 19 1) (posU s i 18 1)) + ofFlag r.parity) % 2 != 0) ||
  (posU s i 20 1 != 0xFF && bitAt r.word (posU s i 20 1)) ||
  (match serialPredict s i with
   | some q => decide (posU s i 36 4 < (nearest (cpr s i) ((p : Int) - q)).natAbs)
   | none => false)

/-- A first-order filter of time constant `tau` over a step of `dt` seconds; none where `tau` is 0. -/
def lowPass (old new tau dt : Q) : Q := if tau = 0 then new else old + (new - old) * (1 - Config.exp (-dt / tau))

/-- A good frame: the count moves the short way to the position; speed from the last two good frames (R255). -/
def serialGood (s : State) (i : Fin 4) (pos : Nat) : State :=
  let at_ := (s.ifc i).frameAt
  match (s.ifc i).good with
  | none =>
    noteRestored (s.setIfc i fun p => { p with
      count := pos % cpr s i, referenced := true, mechRef := true, frameErrs := 0, time := at_, updated := s.clk.now
      good := some (p.turns * cpr s i + pos % cpr s i, at_) }) i
  | some g =>
    let d := nearest (cpr s i) ((pos : Int) - (s.ifc i).count)
    let t := moveP (s.setIfc i fun p => { p with frameErrs := 0, referenced := true, mechRef := true }) i (extP s i + d) g.2 at_ true
    let dt : Q := ((at_ : Q) - (g.2 : Q)) / 100000000
    let raw := if dt = 0 then (s.ifc i).speed else elecSpeed s i (((extP s i + d - g.1 : Int) : Q) / dt)
    noteRestored (t.setIfc i fun p => { p with
      speed := lowPass p.speed raw (posF s i 72) dt, time := at_, updated := s.clk.now, good := some (extP t i, at_) }) i

/-- The clock edges of a frame in drive time: SERIAL_BITS bits from the second rising edge on (R246). -/
def frameTicks (s : State) (i : Fin 4) : Nat := ticksOf (if posF s i 28 = 0 then 0 else ((posU s i 17 1 + 1 : Nat) : Q) / posF s i 28)

/-- A completed serial frame (R246, R247), once its bits have been clocked. -/
def execSerialFrame (ifc : Fin 4) (reply : SerialReply) (s : State) : Result :=
  if bitAt s.clk.lost 5 || posMode s ifc != 3 || !(s.ifc ifc).frameBusy || s.clk.drive.toNat < (s.ifc ifc).frameAt + frameTicks s ifc then .next s else
  let t := s.setIfc ifc fun p => { p with frameBusy := false }
  finish s <|
    if serialBad s ifc reply then
      frameError (raiseLimited (t.setIfc ifc fun p => { p with serErr := satInc 8 p.serErr }) evSerialFrameError ifc.val 0xFF (place ifc.val 24 8)) ifc
    else serialGood t ifc (serialPos s ifc reply.word)

/-! ## MODES 2 and 4: the position context (R242, R243, R245, R256) -/

/-- A replica in volts (R241): the slot's code less the centre. -/
def replica (s : State) (conv slot : Nat) : Q :=
  if h : conv < 8 then (if h' : slot < 20 then ((s.sensing.adc[conv].slots[slot].code : Nat) : Q) * 3 / 65536 - 3 / 2 else 0) else 0
def slotTime (s : State) (conv slot : Nat) : Nat :=
  if h : conv < 8 then (if h' : slot < 20 then s.sensing.adc[conv].slots[slot].time else 0) else 0

/-- The amplitude window of R243. -/
def amplitudeOk (s : State) (i : Fin 4) (sq : Q) : Bool :=
  decide (posF s i 40 * posF s i 40 ≤ sq) && decide (sq ≤ posF s i 44 * posF s i 44)

/-- The type-II tracking loop over a measured position in signal periods (R245, R256): its gains follow those of the observer's
loop for the bandwidth TRK_BW (log entry 12). Answers angle, integrator and speed in periods; the speed carries the proportional part, so that it
has no steady error under constant acceleration. -/
def trackStep (angle wp meas bw dt : Q) : Q × Q × Q :=
  let err := wrapHalf (meas - (angle + wp * dt))
  let wp' := wp + (twoPi * bw) * (twoPi * bw) * err * dt
  let w := wp' + 2 * twoPi * bw * err
  (angle + w * dt, wp', w)

/-- A violation: the pair is not used, and angle and speed follow by extrapolation (R243). -/
def amplitudeBad (s : State) (i : Fin 4) (sq : Q) : State :=
  let t := s.setIfc i fun p => { p with viol := min 255 (p.viol + 1), ampSq := sq }
  let limit := max 1 (posU s i 13 1)
  if (s.ifc i).viol < limit ∧ limit ≤ (t.ifc i).viol then
    failSource (raise t evSincosAmplitude 0xFF (place i.val 24 8)) i failAmplitude
  else t

/-- The tracking loop at drive time `at_`: its angle in signal periods, its integrator and its speed. The first estimate takes the measured position. -/
def track (s : State) (i : Fin 4) (meas : Q) (at_ : Nat) : Q × Q × Q :=
  let p := s.ifc i
  if p.trkOn then trackStep p.trkAngle p.trkSpeed meas (posF s i 60) (((at_ : Q) - (p.trkTime : Q)) / 100000000) else (meas, 0, 0)

/-- An estimate at drive time `at_`: the angle and the speed of the tracking loop, and the new P. -/
def estimate (s : State) (i : Fin 4) (trk : Q × Q × Q) (pNew : Int) (at_ : Nat) (ref : Bool) : State :=
  let p := s.ifc i
  let t := moveP s i pNew p.time at_ true
  noteRestored (t.setIfc i fun q => { q with
    trkAngle := trk.1, trkSpeed := trk.2.1, trkTime := at_, trkOn := true, viol := 0, time := at_, updated := s.clk.now
    referenced := q.referenced || ref, mechRef := q.mechRef || (ref && posU s i 16 1 ≤ 1)
    speed := elecSpeed s i (trk.2.2 * (if posMode s i = 2 then 4096 else 65536)) }) i

/-- MODE 2: the fine angle and the latched quadrant count (R242). -/
def sincosRun (s : State) (i : Fin 4) : State :=
  let conv := posU s i 84 1
  let sv := replica s conv (posU s i 86 1)
  let cv := replica s (posU s i 85 1) (posU s i 86 1)
  let sq := sv * sv + cv * cv
  if !amplitudeOk s i sq then amplitudeBad s i sq else
  let meas := if posInvert s i then -(atan2T sv cv) else atan2T sv cv
  let phi := (wrapTurn meas * 4096).floor
  let q := (s.ifc i).quadAt
  let off := (q - phi / 1024) % 4
  if off = 2 then amplitudeBad s i sq else
  let q' := if off = 1 then q - 1 else if off = 3 then q + 1 else q
  let t := s.setIfc i fun p => { p with ampSq := sq }
  let at_ := slotTime s conv (posU s i 86 1)
  estimate t i (track s i meas at_) (q' / 4 * 4096 + phi) at_ false

/-- MODE 4: the samples of one peak, paired with those of the opposite peak before it; the tracking loop gives the angle (R245). -/
def resolverRun (s : State) (i : Fin 4) : State :=
  let cs := posU s i 84 1
  let cc := posU s i 85 1
  let tp := slotTime s cs (posU s i 86 1)
  let tn := slotTime s cs (posU s i 87 1)
  let positive := decide (tn ≤ tp)
  let slot := if positive then posU s i 86 1 else posU s i 87 1
  let at_ := max tp tn
  let sv := replica s cs slot
  let cv := replica s cc slot
  let p := s.ifc i
  let t := s.setIfc i fun p => { p with prevS := sv, prevC := cv, prevPos := some positive, prevTime := at_ }
  if p.prevPos != some (!positive) then t else
  let sign : Q := if positive then 1 else -1
  let sd := sign * (sv - p.prevS) / 2
  let cd := sign * (cv - p.prevC) / 2
  let sq := sd * sd + cd * cd
  if !amplitudeOk s i sq then amplitudeBad t i sq else
  let ang := atan2T sd cd
  let meas := if posInvert s i then -ang else ang
  let mid := (at_ + p.prevTime) / 2
  let fresh := !p.trkOn
  let u := t.setIfc i fun p => { p with ampSq := sq }
  let trk := track s i meas mid
  let frac : Int := (wrapTurn trk.1 * 65536).floor
  let pOld := extP s i
  let pNew := if fresh then pOld / 65536 * 65536 + frac else pOld + nearest 65536 (frac - pOld)
  estimate u i trk pNew mid true

def execPositionContextDispatch (ifc : Fin 4) (s : State) : Result :=
  if !ctxRuns s 6 ifc.val 0 || bitAt s.clk.lost 5 then .next s
  else if posMode s ifc = 2 then finish s (noteDispatch (sincosRun s ifc) 6 ifc.val 0)
  else if posMode s ifc = 4 then finish s (noteDispatch (resolverRun s ifc) 6 ifc.val 0)
  else .next s

/-! ## Snapshots (R255, R257) -/

/-- No new estimate or frame for 3 update periods (Table 9.3). -/
def snapStale (s : State) (i : Fin 4) : Bool := decide (2 ≤ posMode s i) && decide (3 * updatePeriod s i < s.clk.now - (s.ifc i).updated)

/-- The speed of MODE 1 at a snapshot (R255). -/
def edgeSpeed (s : State) (i : Fin 4) : Q :=
  let p := s.ifc i
  let t := time5 s false
  let raw := match edgeRate p.edges with
    | some r => elecSpeed s i r
    | none =>
      match p.edges.head? with
      | some e =>
        let lim := if t ≤ e.1 then qabs p.speed else elecSpeed s i (200000000 / ((t - e.1 : Nat) : Q))
        qsign p.speed * qmin (qabs p.speed) lim
      | none => p.speed
  let idle := match p.edges.head? with
    | some e => decide (2 * ticksOf (posF s i 68) ≤ t - e.1)
    | none => true
  lowPass p.speed (if idle then 0 else raw) (posF s i 72) (((s.clk.now - p.snapAt : Nat) : Q) / 100000000)

/-- The five words of a record (Table 9.3). -/
def snapWords (r : Snapshot) : List Nat :=
  [place r.elec 16 16 + place (ofFlag r.referenced) 15 1 + place (ofFlag r.valid) 14 1 + place (ofFlag r.stale) 13 1 + place (ofFlag r.snapped) 12 1 +
     place r.mode 8 4, place r.count 0 31, unsignedOf 32 r.turns, f32Bits r.speed, r.time]

/-- At a carrier trigger the interface latches and sends its record, its speed an f32 and its time the low 32 bits (Table 9.3). -/
def execPositionSnapshot (ifc : Fin 4) (s : State) : Result :=
  if bitAt s.clk.lost 2 || bitAt s.clk.lost 5 || posMode s ifc = 0 then .next s else
  let spd := if posMode s ifc = 1 then edgeSpeed s ifc else (s.ifc ifc).speed
  let stale := snapStale s ifc
  let (c, tn) := splitP (cpr s ifc) (reportedP s ifc)
  let t := s.setIfc ifc fun p => { p with speed := spd, st := if p.st == .failed then .failed else if stale then .stale else .valid }
  let r : Snapshot := { elec := elecOf s ifc c, referenced := (t.ifc ifc).referenced, valid := srcValid (t.ifc ifc), stale := stale,
                        snapped := (t.ifc ifc).snapped, mode := posMode s ifc, count := c, turns := tn, speed := f32Round spd,
                        time := (if posMode s ifc = 1 then s.clk.drive.toNat else (t.ifc ifc).time) % 2 ^ 32 }
  finish s (noteRestored (t.setIfc ifc fun p => { p with snap := some r, fresh := true, snapped := false, snapAt := s.clk.now }) ifc)

/-! ## Disagreement of the two sources (R261) -/

/-- The difference has exceeded XCHECK_LIMIT for XCHECK_TIME: the secondary is not eligible for fall-back. -/
def execSourceDisagree (axis : Fin 4) (s : State) : Result :=
  match ifcOf s axis 0, (s.axis axis).ctl.disSince with
  | some i, some t0 =>
    if (s.axis axis).ctl.secBad || s.clk.now < t0 + ticksOf (posF s i 80) then .next s else
    finish s (raise (s.setAxis axis fun a => { a with ctl := { a.ctl with secBad := true } }) evSourceDisagree 0xFF (place i.val 24 8))
  | _, _ => .next s

end Sys2Proof.Machine
end

