-- ==== Sys2Proof/Machine/SafetyFns.lean ====
section
/-! DEFINITION. The safe-state rule, the checks on stops, SLS, brakes and discharge (R401 to R414, R426 to R429): rows
SAFE_STATE_RUN to BRAKE_ENGAGE_TIME, DISCHARGE_DONE and DISCHARGE_TIMEOUT. -/
namespace Sys2Proof.Machine
open Sys2Proof

/-! ## The safe-state rule (R402 to R406) -/

/-- E_est, where an estimate exists (R402). It is 0 when no rotation is detected (R403). -/
def eEst (s : State) (n : Fin 4) : Option Q :=
  let a := s.axis n
  let loop := if (axSwitching s n || a.discharging) && a.ctl.src != 0 then some a.ctl.w else none
  let mon := if hasMonitor s n && !bitAt s.clk.lost 3 then some a.mon else none
  let idle := (loop.getD 0 == 0) && (match mon with | some m => !m.rotating | none => true)
  match loop, mon with
  | none, none => none
  | _, _ => if idle then some 0 else
      some (qmax (Config.sqrt3 * psiRef s n * qabs (loop.getD 0)) (match mon with | some m => m.eLine | none => 0))

/-- U_th (R403). -/
def uTh (s : State) (n : Fin 4) : Q := safeUdc s n - cfgF s secSafety 0 4

/-- The selection of ASC or FREEWHEEL, with hysteresis (R403). Answers whether ASC is selected. -/
def selectAsc (was : Bool) (e th : Q) : Bool :=
  if was then !(decide (e < 19 / 20 * th) || e == 0) else decide (th ≤ e) && decide (0 < e)

/-- The chosen side holds a marked switch: the short covers fewer than three phases (R404). -/
def sideDegraded (a : Axis) (side : SafeSub) : Bool :=
  match side with
  | .ascLow => marksLow a != 0
  | .ascHigh => marksHigh a != 0
  | _ => false

/-- An OFF axis whose back-EMF reaches U_th (R406): a latched trip that applies ASC through AXIS_SAFE, or the log alone. Bit 0 of
the data word says that a gate-driver supply was off. -/
def idleOverspeed (s : State) (n : Fin 4) : State :=
  let off := ofFlag (!(s.so.on[0] && s.so.on[1]))
  let t := raiseAxis s evIdleOverspeed n off
  if !slFlag s n 3 then t else enterAxisSafe (firmwareTrip t n evIdleOverspeed) n (ascSide (t.axis n))

/-- One run of the context of an axis that has an estimate `e`. -/
def safeStateStep (s : State) (n : Fin 4) (e : Q) : State :=
  let a := s.axis n
  let th := uTh s n
  let was := a.saf.selection != .freewheel
  let own := selectAsc a.saf.ownAsc e th
  let asc := own || groupAsc s n
  let sel := if asc then ascSide a else .freewheel
  let deg := sideDegraded a sel
  let t := s.setAxis n fun a => { a with saf := { a.saf with
    selection := sel, ownAsc := own, speedUnknown := false, eEst := e, uTh := th, uDc := safeUdc s n, degraded := deg } }
  let applied := ascApplied t n
  let u := writeSafepat t n (subCode sel)
  let v := if deg && !a.saf.degraded then raiseAxis u evSafeStateDegraded n 0 else u
  let w := if was && !asc && applied then
      raiseLogged v evAscHandover n.val (place n.val 24 8 + min 65535 (roundHalfUp (safeUdc s n)).toNat) (f32Bytes e ++ f32Bytes (safeUdc s n))
    else v
  let off := own && a.core.st == .off
  let x := w.setAxis n fun a => { a with saf := { a.saf with idleHandled := off && (a.saf.idleHandled || s.mode == .idle || s.mode == .run) } }
  if off && !a.saf.idleHandled && (s.mode == .idle || s.mode == .run) then idleOverspeed x n else x

/-- A dispatch of the SAFE_STATE context (R401): on a present, enabled axis; without a speed estimate SAFEPAT is written again as
it stood (R402). -/
def execSafeStateRun (axis : Fin 4) (s : State) : Result :=
  if !ctxRuns s 2 axis.val 0 || bitAt s.clk.lost 2 || !axEnabled s axis || s.boot.phase < 0x0D then .next s else
  let t := match eEst s axis with
    | some e => safeStateStep s axis e
    | none => (writeSafepat s axis (s.axis axis).pwm.safepat).setAxis axis fun a => { a with saf := { a.saf with speedUnknown := true } }
  finish s (noteDispatch (autoDischarge t) 2 axis.val 0)

/-! ## Stops (R409, R410, R330) -/

/-- The envelope of SS1 type a (R409). -/
def envelope (s : State) (n : Fin 4) : Q :=
  let f := (s.axis n).saf
  let t : Q := ((s.clk.now - f.stopAt : Nat) : Q) / 100000000
  21 / 20 * f.stopSpeed + safetyF s n 16 - safetyF s n 12 * qmax 0 (t - 1 / 100)

/-- Standstill of a stop (R409, R410, R414): OFF, or the brake engages first. -/
def stopStands (s : State) (n : Fin 4) : State :=
  if safetyU s n 2 1 = 0xFF then axisOff s n
  else (brakeOff s n).setAxis n fun a => { a with saf := { a.saf with brakeEngaging := true, brakeAt := s.clk.now } }

/-- The check that Pair A makes every 1 ms on an axis that stops. -/
def execSs1EnvelopeCheck (axis : Fin 4) (s : State) : Result :=
  let a := s.axis axis
  if a.core.st != .stopping || a.saf.brakeEngaging || !pairAWorks s then .next s
  else if (if a.saf.stopSs1 && safetyU s axis 0 1 == 0 then stopSpeedNow s axis else qabs (speedOf s axis)) < safetyF s axis 16 then
    finish s (stopStands s axis)
  else if !a.saf.stopSs1 || safetyU s axis 0 1 != 0 then finish s s
  else
    let fails := if envelope s axis < stopSpeedNow s axis then a.saf.envelopeFails + 1 else 0
    let t := s.setAxis axis fun a => { a with saf := { a.saf with envelopeFails := fails } }
    finish s (if 3 ≤ fails then latchTrip (raiseAxis t evSs1RampViolation axis 0) axis bitStopDeadline else t)

/-- STOP_TIME has passed (R409, R410, R330): type c goes to OFF where the rule selects FREEWHEEL; every other miss is a latched
trip. -/
def execStopDeadlineMissed (axis : Fin 4) (s : State) : Result :=
  let a := s.axis axis
  if a.core.st != .stopping || a.saf.brakeEngaging || !pairAWorks s || s.clk.now < a.saf.stopDeadline then .next s
  else if safetyU s axis 0 1 = 1 ∧ a.saf.selection == .freewheel then finish s (axisOff s axis)
  else finish s (latchTrip (raiseAxis s evStopDeadlineMissed axis 0) axis bitStopDeadline)

/-! ## SLS and brakes (R411, R413, R414) -/

/-- The speed has exceeded 1.05 × SLS_LIMIT for 10 ms outside the entry braking, or SLS_LIMIT has not been reached within
STOP_TIME of the activation (R411). -/
def execSlsExceeded (axis : Fin 4) (s : State) : Result :=
  let f := (s.axis axis).saf
  let tooFast := match f.slsOver with | some t => decide (t + 1000000 ≤ s.clk.now) | none => false
  let late := f.slsBraking && decide (f.slsBy ≤ s.clk.now) && decide (safetyF s axis 20 < qabs (speedOf s axis))
  if !slsActive s axis || !(tooFast || late) || !pairAWorks s then .next s
  else finish s (raiseStop (s.setAxis axis fun a => { a with saf := { a.saf with slsOver := none, slsTold := tooFast, slsBraking := false } }) evSlsExceeded axis 0)

/-- BRAKE_RELEASE_TIME has passed since the brake output switched on: the held torque is let go (R413). -/
def execBrakeReleaseTime (axis : Fin 4) (s : State) : Result :=
  let f := (s.axis axis).saf
  if !f.brakeHolding || !pairAWorks s || s.clk.now < f.brakeAt + ticksOf (safetyF s axis 48) then .next s
  else finish s (s.setAxis axis fun a => { a with saf := { a.saf with brakeHolding := false } })

/-- BRAKE_ENGAGE_TIME has passed at standstill: the axis goes to OFF with the brake engaged (R414). -/
def execBrakeEngageTime (axis : Fin 4) (s : State) : Result :=
  let a := s.axis axis
  if a.core.st != .stopping || !a.saf.brakeEngaging || !pairAWorks s || s.clk.now < a.saf.brakeAt + ticksOf (safetyF s axis 52) then .next s
  else finish s (axisOff s axis)

/-! ## The end of a discharge (R427 to R429) -/

/-- The duration of a discharge in milliseconds. -/
def dischMs (s : State) : Nat := (s.clk.now - s.disch.startedAt) / 100000

def dischFinished (s : State) : State :=
  let ms := dischMs s
  raiseLogged { s with disch := { s.disch with state := 2, ms := ms, ball := false, ending := false } } evDischargeDone 0xFF
    (place (if s.disch.method = 2 then s.disch.axis else 0xFF) 24 8) (leBytes 4 ms)

/-- U_dc has fallen below 60 V. A resistor discharge ends at once; a winding discharge ramps its current to 0 and then removes
the gates (R428): the command that finds the ramp run out ends it. -/
def execDischargeDone (s : State) : Result :=
  let n : Fin 4 := Fin.ofNat 4 s.disch.axis
  if !dischBelow s n then .next s
  else if s.disch.ball then finish s (dischFinished s)
  else if (s.axis n).discharging then
    (if s.disch.ending && (s.axis n).ctl.idRef == 0 then finish s (dischFinished (endWindings s n))
     else finish s { s with disch := { s.disch with ending := true } })
  else .next s

/-- U_dc is not below 60 V within DISCH_DEADLINE (R429): DISCH stays high; the windings are left in FREEWHEEL. -/
def execDischargeTimeout (s : State) : Result :=
  let n : Fin 4 := Fin.ofNat 4 s.disch.axis
  if s.disch.state != 1 || !pairAWorks s || s.clk.now < s.disch.startedAt + ticksOf (cfgF s secSafety 0 16) || dischBelow s n then .next s else
  let t := { s with disch := { s.disch with state := 3, ms := dischMs s } }
  let u := if (s.axis n).discharging then enterAxisSafe t n .freewheel else t
  finish s (raise u evDischargeTimeout 0xFF (place (if s.disch.method = 2 then n.val else 0xFF) 24 8 + min 65535 (roundHalfUp (dischUdc s n)).toNat))

end Sys2Proof.Machine
end

