-- ==== Sys2Proof/Machine/Sensing.lean ====
section
/-! DEFINITION. The commands of the converters: triggers, results, demodulators, zero calibration and the plausibility check
(R174 to R197). -/
namespace Sys2Proof.Machine
open Sys2Proof

/-- The ADC clock is lost (Table 1.5). -/
def adcLost (s : State) : Bool := bitAt s.clk.lost 3

/-! ## Triggers and sequences (R177, R178) -/

/-- The slot after `slot` in the regular order, or the lowest again (R177). -/
def nextRegular (s : State) (conv slot : Nat) : Nat :=
  ((regularSlots s conv).find? fun k => decide (slot < k)).getD ((regularSlots s conv).headD 15)

/-- An injected sequence starts: a regular conversion in progress is aborted and queued again (R178). -/
def startInjected (s : State) (conv : Fin 8) (slots : List Nat) : State :=
  s.setConv conv fun c => match c.regular with
    | some r => { c with injected := slots, regular := none, rerun := false, requeue := r :: c.requeue, aborts := satInc 16 c.aborts }
    | none => { c with injected := slots }

/-- A MODE 2 interface latches its quadrant count at the trigger of its SIN slot (R242). -/
def latchQuadrants (s : State) (conv : Nat) (slots : List Nat) : State :=
  s.forAxes (fun t i => posMode t i == 2 && posU t i 84 1 == conv && slots.contains (posU t i 86 1)) fun t i =>
    t.setIfc i fun p => { p with quadAt := p.quad }

/-- A trigger at one converter: its sequence starts, is held behind the running one, or is lost (R178). -/
def triggerConv (s : State) (conv : Fin 8) (code : Nat) : State :=
  let slots := injectedSlots s conv.val code
  if slots.isEmpty then s else
  let t := latchQuadrants s conv.val slots
  if (s.conv conv).injected.isEmpty then startInjected t conv slots
  else match (s.conv conv).heldCode with
    | none => t.setConv conv fun c => { c with heldCode := some code }
    | some _ => t.setConv conv fun c => { c with injOverrun := satInc 8 c.injOverrun }

/-- The converters that triggers reach (R179). -/
def conv7 : List (Fin 8) := [0, 1, 2, 3, 4, 5, 6]

/-- A trigger that has been raised arrives in the ADC domain: it reaches every one of ADC0 to ADC6 in the same cycle (R178, R179). -/
def execInjectedTrigger (code : Nat) (s : State) : Result :=
  if adcLost s || !s.sensing.raised.contains code then .next s else
  let t := { s with sensing := { s.sensing with raised := s.sensing.raised.filter (· != code) } }
  finish s (conv7.foldl (fun u c => triggerConv u c code) t)

/-- The slot that a converter converts: the next of the injected sequence, or the regular one (R177, R178). -/
def runningSlot (s : State) (conv : Fin 8) : Option Nat :=
  match (s.conv conv).injected with
  | k :: _ => some k
  | [] => (s.conv conv).regular

/-- A conversion has ended: the next slot of the injected sequence follows, then the held trigger's, then the re-queued slot, then the
regular order (R177, R178). -/
def advanceConv (s : State) (conv : Fin 8) : State :=
  let c := s.conv conv
  s.setConv conv fun d => match c.injected with
  | _ :: k :: ks => { d with injected := k :: ks }
  | [_] => match c.heldCode, c.requeue with
    | some code, _ => { d with injected := injectedSlots s conv.val code, heldCode := none }
    | none, r :: rs => { d with injected := [], regular := some r, rerun := true, requeue := rs }
    | none, [] => { d with injected := [], regular := some (nextRegular s conv.val 15), rerun := false }
  | [] => match c.regular with
    | some r => { d with regular := some (nextRegular s conv.val r), rerun := false }
    | none => d

/-- A record takes the place of another of its slot (R192). -/
def keepResult (old new : SarSlot) : SarSlot :=
  { new with before := if old.valid then some (old.code, old.ovr, old.time) else none }

/-- ADC7's check channels are due: one of them is older than 500 µs (R193). -/
def checkDue (s : State) : Bool :=
  let old (o : Option Nat) : Bool := match o with | some t => decide (t + 50000 ≤ s.clk.now) | none => true
  old (s.conv 7).chkHiAt || old (s.conv 7).chkLoAt

/-- The input of the conversion that ends, and the place where its result is kept. ADC0 to ADC6 convert the input of the running slot, in slot
15 AIN38 and AIN39 on alternate passes (R177). ADC7 converts AIN36 and AIN37 in turn and the check channels when they are due (R193); its
results are kept by their place from AIN28 on (R201). Nothing is converted before the converters are calibrated in cast-on step 13. -/
def conversion (s : State) (conv : Fin 8) (check : Bool) : Option (Nat × Nat) :=
  let c := s.conv conv
  let chk := 38 + ofFlag c.chkNext
  if s.boot.phase < 0x0D then none
  else if conv.val = 7 then
    (let ain := if check || checkDue s then chk else 36 + ofFlag c.sharedNext
     some (ain - 28, ain))
  else (runningSlot s conv).map fun k => (k, if k = 15 then chk else slotInput s conv.val k)

/-- The record of a conversion, with the drive time of its hold instant 190 ns before its end (R174, R182). The one table of results stands
for the copies that the contexts and the Rigger pool hold. -/
def storeResult (s : State) (conv : Fin 8) (k : Fin 20) (ain code : Nat) : State :=
  let ovr := code == 0 || code == 65535
  s.setConv conv fun c =>
    let r : SarSlot := { code := code, ain := ain, valid := true, ovr := ovr, requeued := c.injected.isEmpty && c.rerun
                         time := ((s.clk.drive.toNat : Int) - 19).toNat, before := none }
    { c with
      slots := vupd c.slots k fun old => keepResult old r
      ovrCount := if ovr then satInc 8 c.ovrCount else c.ovrCount
      chkHi := if ain = 38 then code else c.chkHi, chkHiAt := if ain = 38 then some s.clk.now else c.chkHiAt
      chkLo := if ain = 39 then code else c.chkLo, chkLoAt := if ain = 39 then some s.clk.now else c.chkLoAt
      chkNext := if 38 ≤ ain then ain == 38 else c.chkNext
      sharedNext := if ain = 36 ∨ ain = 37 then (if conv.val = 7 then ain == 36 else c.sharedNext) else c.sharedNext }

/-- A completed conversion (R174, R182). Check channels and sensor chains take their part (R195, R356). -/
def execSarResult (conv : Fin 8) (code : Nat) (check : Bool) (s : State) : Result :=
  if (adcLost s && conv.val != 7) || (bitAt s.clk.lost 7 && conv.val == 7) then .next s else
  match conversion s conv check with
  | none => .next s
  | some (k, ain) =>
    let t := storeResult s conv (Fin.ofNat 20 k) ain (min code 65535)
    finish s (if conv.val = 7 then t else chainSlot (advanceConv t conv) conv.val k)

/-! ## Delta-sigma demodulators (R184, R185) -/

/-- The weight of the k-th newest bit in a sinc3 filter of a given OSR, before its division by OSR³: three moving sums of OSR bits, one after
the other (R184). -/
def sincWeight (osr k : Nat) : Int :=
  let tri (j : Nat) : Int := if k < j then 0 else (((k - j + 1) * (k - j + 2) / 2 : Nat) : Int)
  tri 0 - 3 * tri osr + 3 * tri (2 * osr) - tri (3 * osr)

/-- The main filter's output over the 3 × OSR newest bits, as a fraction of full scale: a 1 counts as +1 and a 0 as −1. That these are the two
ends of full scale is DEDUCED (log entry 218), unsafe. -/
def sinc3 (osr : Nat) (bits : List Bool) : Q :=
  let sum := (((bits.take (3 * osr)).zipIdx).map fun b => if b.1 then sincWeight osr b.2 else -(sincWeight osr b.2)).sum
  (sum : Q) / ((osr * osr * osr : Nat) : Q)

/-- OSR of a channel (Table 7.8). -/
def dsOsr (s : State) (ch : Nat) : Nat := max 1 (cfgU s secConverters 0 (50 + 8 * ch) 2)

/-- One channel faults: its records carry FAULT, and every axis whose currents use it trips (R185, Table 7.14). -/
def dsFault (s : State) (ch : Fin 16) (clockBad : Bool) : State :=
  let t := s.setDs ch fun d => { d with fault := true, failing := true, goodSince := s.clk.now, clockOk := d.clockOk && !clockBad }
  let u := raise t evDsModulatorFault 0xFF (place ch.val 24 8)
  u.forAxes (fun v n => usesDs v n ch.val) fun v n => firmwareTrip v n evDsModulatorFault

/-- RUN_LIMIT of a channel (Table 7.8). -/
def dsRunLimit (s : State) (ch : Nat) : Nat := cfgU s secConverters 0 (53 + 8 * ch) 1

/-- The longest run of one level, with the run at the end and its level. -/
def longestRun (bits : List Bool) : Nat :=
  (bits.foldl (fun (r : Nat × Nat × Option Bool) b =>
    let run := if r.2.2 = some b then r.2.1 + 1 else 1
    (max r.1 run, run, some b)) (0, 0, none)).1

/-- An output of the main filter (R184): at te after a trigger it is the record of the channel, with the time of te; else it is a decimated
output for the status word. The filter needs a whole window of bits. Data that holds one level for more than RUN_LIMIT of the bits faults the
channel (R185). -/
def execDeltaSigmaEvaluation (ch : Fin 16) (bits : List Bool) (triggered : Bool) (s : State) : Result :=
  if adcLost s || !dsClaimed s ch.val || bits.length < 3 * dsOsr s ch.val || (triggered && !(s.ds ch).due) then .next s else
  let v := qlimit 1 (sinc3 (dsOsr s ch.val) bits)
  let t := if !(s.ds ch).failing && decide (dsRunLimit s ch.val < longestRun bits) then dsFault s ch false else s
  finish s (t.setDs ch fun d =>
    let e := { d with clockOk := d.clockOk || !d.failing, fault := dsFaulted t ch }
    if triggered then { e with value := v, ovr := qabs v == 1, time := s.clk.drive.toNat, due := false } else { e with last := v })

/-- The cause of a fault ends: the channel passes R185 again from now on (Table 7.14). -/
def dsGood (s : State) (ch : Fin 16) (clock : Bool) : State :=
  s.setDs ch fun d => { d with failing := false, goodSince := s.clk.now, clockOk := d.clockOk || clock }

/-- A clock without edges or off its frequency faults every channel on it; a data line that holds one level too long faults
its own channel (R185). -/
def execDsModulatorFault (clock : Option (Fin 4)) (ch : Fin 16) (begins : Bool) (s : State) : Result :=
  if adcLost s then .next s else
  let one (t : State) (c : Fin 16) : State := if begins then dsFault t c clock.isSome else dsGood t c clock.isSome
  match clock with
  | some m => finish s ((List.finRange 16).foldl (fun t c => if dsClaimed t c.val && dsClock t c.val == m.val then one t c else t) s)
  | none => if dsClaimed s ch.val then finish s (one s ch) else .next s

/-! ## Zero calibration (R187) -/

/-- An average of 1,024 samples completes. -/
def execCurrentZeroCalibration (axis : Fin 4) (leg : Fin 3) (s : State) : Result :=
  if !axEnabled s axis || !curPresent s axis leg || !zeroConditions s axis || adcLost s || (s.axis axis).sense.zeroN[leg.val] < 1024 then .next s else
  let average := (s.axis axis).sense.zeroSum[leg.val] / ((s.axis axis).sense.zeroN[leg.val] : Q)
  let off := curOff leg
  let out := decide (senseF s axis 12 < qabs (average - entryZero s axis off) * qabs (entryGain s axis off))
  let t := s.setAxis axis fun a => { a with sense := { a.sense with
    zero := if out then a.sense.zero else a.sense.zero.set leg.val (some average)
    zeroSum := vupd a.sense.zeroSum leg fun _ => 0, zeroN := vupd a.sense.zeroN leg fun _ => 0
    offsetBad := a.sense.offsetBad.set leg.val out } }
  finish s (if out then firmwareTrip (raiseAxis t evCurrentOffsetFault axis 0) axis evCurrentOffsetFault else t)

/-! ## Plausibility (R195 to R197) -/

def conv8 : List (Fin 8) := List.finRange 8

def convF (s : State) (off : Nat) : Q := cfgF s secConverters 0 off

/-- A converter has not completed both check channels within the last 1 ms. -/
def convStale (s : State) (c : Fin 8) : Bool :=
  match (s.conv c).chkHiAt, (s.conv c).chkLoAt with
  | some a, some b => decide (a + 100000 < s.clk.now) || decide (b + 100000 < s.clk.now)
  | _, _ => true

/-- Two converters agree on both channels. -/
def convAgree (s : State) (a b : Fin 8) : Bool :=
  !convStale s a && !convStale s b &&
  decide (qabs (codeVolts (s.conv a).chkHi - codeVolts (s.conv b).chkHi) ≤ convF s 8) &&
  decide (qabs (codeVolts (s.conv a).chkLo - codeVolts (s.conv b).chkLo) ≤ convF s 8)

/-- A converter agrees with at least four others. -/
def convMajority (s : State) (c : Fin 8) : Bool := decide (4 ≤ conv8.countP fun b => b != c && convAgree s c b)

/-- Insertion into an ascending list, and sorting. -/
def insertQ (x : Q) : List Q → List Q
  | [] => [x]
  | y :: ys => if y < x then y :: insertQ x ys else x :: y :: ys
def sortQ : List Q → List Q
  | [] => []
  | x :: xs => insertQ x (sortQ xs)

/-- The median. Of an even number, which R196 does not define, it is the mean of the middle two: DESIGN CHOICE (log entry 254), unsafe. -/
def median (xs : List Q) : Q :=
  let l := sortQ xs
  if l.length % 2 = 1 then l.getD (l.length / 2) 0 else (l.getD (l.length / 2 - 1) 0 + l.getD (l.length / 2) 0) / 2

/-- The median of the majority lies off its nominal value on either channel. -/
def referenceBad (s : State) : Bool :=
  let m := conv8.filter (convMajority s)
  decide (convF s 12 < qabs (median (m.map fun c => codeVolts (s.conv c).chkHi) - convF s 0)) ||
  decide (convF s 12 < qabs (median (m.map fun c => codeVolts (s.conv c).chkLo) - convF s 4))

/-- A converter carries SIN or COS of an interface (Table 9.4). -/
def posUses (s : State) (i : Fin 4) (c : Nat) : Bool :=
  (posMode s i == 2 || posMode s i == 4) && (posU s i 84 1 == c || posU s i 85 1 == c)

/-- A converter is found implausible: reason 0 outlier, 1 STALE, 2 calibration (R197, R202). -/
def implausible (s : State) (c : Fin 8) : State :=
  let reason := if !(s.conv c).calibrated then 2 else if convStale s c then 1 else 0
  let t := raise (s.setConv c fun d => { d with outlier := true, clean := 0 }) evConverterImplausible 0xFF (place c.val 24 8 + reason)
  if c.val = 7 then latchSafe t else
  let u := t.forAxes (fun v n => usesConv v n c.val) fun v n => firmwareTrip v n evConverterImplausible
  u.forAxes (fun v i => posUses v i c.val) fun v i => failSource v i failConverter

/-- CHECK_UNRESOLVED, with reason REFERENCE as 1. -/
def unresolved (s : State) (reference : Bool) : State :=
  let t := raise { s with sensing := { s.sensing with unresolved := true, reference := reference, resolvedClean := 0 } } evCheckUnresolved 0xFF (ofFlag reference)
  let u := t.forAxes usesAnyConv fun v n => firmwareTrip v n evCheckUnresolved
  u.forAxes (fun v i => (List.range 7).any (posUses v i)) fun v i => failSource v i failConverter

/-- The outcome of one converter: a new outlier, one evaluation towards the end of an old one, or nothing. The event is raised as the condition
begins, not again at each evaluation that finds it; and one whose self-calibration failed stays an outlier until the next reset. DESIGN
CHOICE (log entries 255 and 256), unsafe. -/
def judgeConverter (s : State) (five : Bool) (c : Fin 8) : State :=
  let m := convMajority s c
  let out := (five && !m) || !(s.conv c).calibrated
  let t := s.setConv c fun d => { d with majority := m, stale := convStale s c, clean := if m && d.calibrated then min 100 (d.clean + 1) else 0 }
  if out && !(s.conv c).outlier then implausible t c
  else if (t.conv c).outlier && 100 ≤ (t.conv c).clean then t.setConv c fun d => { d with outlier := false }
  else t

/-- The evaluation that Pair A makes every 1 ms, once cast-on step 13 has calibrated the converters. CHECK_UNRESOLVED too is raised as the
condition begins (log entry 256). -/
def execPlausibilityEvaluation (s : State) : Result :=
  if !firmwareUp s || !pairAWorks s || s.cfg.active.isNone || decide (s.boot.phase < 0x0E) then .next s else
  let five := decide (5 ≤ conv8.countP (convMajority s))
  let ref := five && referenceBad s
  let t := conv8.foldl (fun u c => judgeConverter u five c) { s with sensing := { s.sensing with evaluations := satInc 32 s.sensing.evaluations } }
  let u :=
    if !five || ref then
      (if t.sensing.unresolved then { t with sensing := { t.sensing with reference := ref, resolvedClean := 0 } } else unresolved t ref)
    else
      let k := min 100 (t.sensing.resolvedClean + 1)
      let gone := t.sensing.unresolved && decide (100 ≤ k)
      { t with sensing := { t.sensing with
          resolvedClean := k, unresolved := t.sensing.unresolved && !gone, reference := t.sensing.reference && !gone } }
  finish s (chainConverter u fun c => (u.conv (Fin.ofNat 8 c)).outlier || u.sensing.unresolved)

end Sys2Proof.Machine
end

