-- ==== Sys2Proof/Machine/Backstay.lean ====
section
/-! DEFINITION. The Backstay (R193, R415 to R425): low-side pairs, evaluation, window frames, its actions; and the loss of its
liveness (R23). -/
namespace Sys2Proof.Machine
open Sys2Proof

def State.setBs (s : State) (n : Fin 4) (f : BackstayAxis → BackstayAxis) : State := s.setAxis n fun a => { a with bs := f a.bs }

/-- The Backstay runs: it has its copy, its clock and its liveness. -/
def backRuns (s : State) : Bool := s.back.copy.isSome && !bitAt s.clk.lost 7 && !s.back.livenessLost && !s.power.inReset

/-- The MODE that governs an axis: SAFE_STATE while a trip is held (R422 step 3). -/
def bsMode (a : BackstayAxis) : Nat := if a.held then 2 else a.mode

/-! ## Fields of the copied SAFETY entry -/
def bsSafeF (s : State) (n : Fin 4) (off : Nat) : Q := bsF s secSafety 0 (safetyOff n off)
def bsPoles (s : State) (n : Fin 4) : Nat := max 1 (bsU s secSafety 0 (safetyOff n 62) 1)
def bsTMax (s : State) (n : Fin 4) : Q := bsF s secControl n.val 84
def bsMargin (s : State) : Q := bsF s secSafety 0 8
def lsPresent (s : State) (n : Fin 4) : Bool := bitAt (bsU s secSense n.val 0 1) 3

/-! ## The decoder (R416) -/

/-- ωbs in mechanical rad/s from the edges of the last millisecond, as in R255. -/
def bsSpeed (s : State) (n : Fin 4) : Q :=
  let b := (s.axis n).bs
  let t := time5 s false
  let rad : Q := twoPi / (bsCpr s n : Q)
  if bsPos s n = 0xFF then 0 else
  match edgeRate (b.edges.filter fun e => decide (t ≤ e.1 + 200000)) with
  | some r => r * rad
  | none => match b.edges.head? with
    | some e => if t ≤ e.1 then b.wBs else qsign b.wBs * qmin (qabs b.wBs) (200000000 / ((t - e.1 : Nat) : Q) * rad)
    | none => 0

/-- The decoder angle at this instant, 16 bits. -/
def bsAngle (s : State) (n : Fin 4) : Nat :=
  let b := (s.axis n).bs
  let since : Q := match b.edges.head? with | some e => ((time5 s false - e.1 : Nat) : Q) / 200000000 | none => 0
  let base : Q := (((b.count * (bsPoles s n : Int) * 65536).fdiv (bsCpr s n : Int) + (bsU s secSafety 0 (safetyOff n 60) 2 : Int) : Int) : Q)
  angle16 ((base + bsSpeed s n * (bsPoles s n : Q) * since / twoPi * 65536) / 65536)

/-! ## Low-side pairs (R193) -/

/-- For how many of the taps from `a` to `b` a ball was high that has `level` now; its edges come newest first. -/
def onTaps (level : Bool) (a b : Nat) : List (Nat × Bool) → Nat
  | [] => if level then b - a else 0
  | (t, v) :: rest => if t ≤ a then (if v then b - a else 0) else (if v then b - t else 0) + onTaps (!v) a (min b t) rest

/-- The on-time fraction of a high-side gate ball over the PERIOD that ends now (Table 15.2). -/
def onFraction (s : State) (n : Fin 4) (l : Fin 3) : Q :=
  let g := (s.axis n).pwm.gates[l.val]
  let per := (tapsOf (bsF s secPwm n.val 4)).toNat
  ((onTaps g.high (tapNow s - per) (tapNow s) g.highEdges : Nat) : Q) / (max 1 per : Nat)

/-- The conduction interval of an axis at an instant in taps: the later rise of An_UL and An_VL, where both have been high at that instant
since. -/
def conduction (s : State) (n : Fin 4) (t : Nat) : Option Nat :=
  let g (l : Fin 3) : GateLeg := (s.axis n).pwm.gates[l.val]
  let on (l : Fin 3) : Bool := (g l).low || (match (g l).offLow with | some o => decide (t < o) | none => false)
  match (g 0).onLow, (g 1).onLow with
  | some a, some b => if on 0 && on 1 && decide (max a b ≤ t) then some (max a b) else none
  | _, _ => none

/-- An axis waits for its pair at an instant: both balls have been high for LS_SETTLE, and the interval has had none. -/
def pairWaits (s : State) (n : Fin 4) (t : Nat) : Option Nat :=
  if !lsPresent s n || !axPresent s n then none else
  match conduction s n t with
  | some r => if r + (tapsOf (bsF s secSense n.val 24)).toNat ≤ t ∧ (s.axis n).sense.lsTaken ≠ some r then some r else none
  | none => none

/-- A pair of ADC7 at its second hold instant, 310 ns after its start (R174, R193): it begins on an axis that waits, the lowest of those that
do; it is kept where both balls are still high, and counted as invalid otherwise. -/
def execLowSidePair (axis : Fin 4) (codeU codeV : Nat) (s : State) : Result :=
  if !backRuns s then .next s else
  let start := tapNow s - 3968
  match pairWaits s axis start with
  | none => .next s
  | some r =>
    if allAxes.any fun m => decide (m < axis) && (pairWaits s m start).isSome then .next s else
    let rec_ (ain code back : Nat) : SarSlot :=
      { code := min code 65535, ain := ain, valid := true, ovr := min code 65535 == 65535 || code == 0, requeued := false
        time := ((s.clk.drive.toNat : Int) - back).toNat, before := none }
    let k := 2 * axis.val
    let counted (code n : Nat) : Nat := if (rec_ 0 code 0).ovr then satInc 8 n else n
    let t0 := s.setConv 7 fun c => { c with
      ovrCount := counted codeV (counted codeU c.ovrCount)
      slots := vupd (vupd c.slots (Fin.ofNat 20 k) fun old => keepResult old (rec_ (28 + k) codeU 25)) (Fin.ofNat 20 (k + 1)) fun old => keepResult old (rec_ (29 + k) codeV 0) }
    let t := t0.setAxis axis fun a => { a with sense := { a.sense with lsTaken := some r } }
    if conduction s axis (tapNow s) ≠ some r then
      finish s (t.setAxis axis fun a => { a with sense := { a.sense with lsInvalid := satInc 16 a.sense.lsInvalid } })
    else
      let amps (code : Nat) : Q := bsF s secSense axis.val 28 * (codeVolts (min code 65535) - bsF s secSense axis.val 32)
      let p : LsPair := { iU := amps codeU, iV := amps codeV, angle := bsAngle s axis, dU := onFraction s axis 0, dV := onFraction s axis 1, dW := onFraction s axis 2 }
      finish s (t.setAxis axis fun a => { a with
        bs := { a.bs with pairs := p :: a.bs.pairs }
        sense := { a.sense with lsPairs := a.sense.lsPairs ++ [(p.iU, p.iV, s.clk.drive.toNat)] } })

/-! ## Actions (R422 to R424) -/

/-- Step 1 of R422: gate enable is removed, the latched-trip request goes out, and BACKSTAY_VIOLATION is raised with the methods of the last
evaluation that violate, on feed loss and a Pair A failure as well (R424). Step 2 follows 20 µs later. -/
def bsRemove (s : State) (n : Fin 4) : State :=
  let t := s.setBs n fun b => { b with
    geRemoved := true, releaseDue := true, removedAt := s.clk.now, safeSince := none, held := true, cleared := false, goodFrames := 0, debounce := 0
    violations := satInc 16 b.violations }
  raiseAxis (latchTrip t n bitBackstay) evBackstayViolation n (s.axis n).bs.violating

/-- An axis that the Backstay does not already hold (R424). -/
def bsHolds (s : State) (n : Fin 4) : Bool := (s.axis n).bs.held || (s.axis n).bs.patternLock

/-- The safe state of every axis that the Backstay does not hold, and SAFE (R424). -/
def bsSafeAll (s : State) : State := latchSafe (s.forAxes (fun t n => axPresent t n && !bsHolds t n) bsRemove)

/-- 20 µs after the removal the gate enable is released into level 3 (R422 step 2). -/
def execBackstayGateRelease (axis : Fin 4) (s : State) : Result :=
  let b := (s.axis axis).bs
  if !b.releaseDue || b.patternLock || s.back.livenessLost || !backRuns s || s.clk.now < b.removedAt + 2000 then .next s
  else finish s (s.setBs axis fun b => { b with geRemoved := false, releaseDue := false, safeSince := some s.clk.now, pattern := none, changedAt := none })

/-- High-side and low-side switches are on together. -/
def mixedBalls (balls : Nat) : Bool := (bitAt balls 0 || bitAt balls 2 || bitAt balls 4) && (bitAt balls 1 || bitAt balls 3 || bitAt balls 5)

/-- The pattern on the gate balls of an axis in SAFE_STATE, looked at from 100 µs on: high and low sides together, or a second change within
10 ms, are forbidden (R423); gate enable then stays removed until a power cycle. A pattern that passes is kept for the next look. -/
def execBackstayPattern (axis : Fin 4) (balls : Nat) (s : State) : Result :=
  let b := (s.axis axis).bs
  if !backRuns s || !axPresent s axis || bsMode b != 2 || b.patternLock then .next s else
  let counts := match b.safeSince with | some t => decide (t + 10000 ≤ s.clk.now) | none => false
  let changed := match b.pattern with | some p => p != balls | none => false
  let again := changed && match b.changedAt with | some t => decide (s.clk.now < t + 1000000) | none => false
  if !counts || !(mixedBalls balls || again) then
    finish s (s.setBs axis fun b => { b with pattern := some balls, changedAt := if counts && changed then some s.clk.now else b.changedAt })
  else
  let t := s.setBs axis fun b => { b with geRemoved := true, patternLock := true, held := true, releaseDue := false, goodFrames := 0 }
  finish s (raiseAxis (latchTrip t axis bitBackstay) evBackstayPattern axis 0)

/-- No liveness toggle for 5 µs: gate enable is removed on every axis without release, every axis freewheels, and SAFE latches
(R23, R424, Table 1.5). -/
def loseLiveness (s : State) : State :=
  let t := { s with back := { s.back with livenessLost := true } }
  let u := t.forAxes axPresent fun v n => v.setBs n fun b => { b with geRemoved := true, releaseDue := false }
  freewheelAll (latchSafe (tripAll u bitBackstay))

def execLivenessLoss (s : State) : Result :=
  if s.back.livenessLost || s.power.inReset || s.boot.phase < 3 then .next s else finish s (loseLiveness s)

/-- No accepted frame for 2.5 ms, or 1 s with BENCH (R421). -/
def execBackstayFeedLost (s : State) : Result :=
  let limit := if s.back.bench then 100000000 else 250000
  if !backRuns s || !s.back.armed || s.back.feedDown || s.clk.now < s.back.lastAccepted + limit then .next s else
  let t := { s with back := { s.back with feedLost := true, feedDown := true } }
  finish s (raise (bsSafeAll t) evBackstayFeedLost 0xFF (place 0xFF 24 8))

/-! ## Evaluation (R417, R422) -/

def meanQ (xs : List Q) : Q := if xs.isEmpty then 0 else xs.sum / (xs.length : Q)

/-- T_A of one pair (Table 15.2). -/
def pairTorque (s : State) (n : Fin 4) (p : LsPair) : Q :=
  let (id, iq) := park (clarke3 p.iU p.iV (-p.iU - p.iV)) ((p.angle : Q) / 65536)
  3 / 2 * (bsPoles s n : Q) * (bsSafeF s n 32 * iq + (bsSafeF s n 36 - bsSafeF s n 40) * id * iq)

def pairSq (p : LsPair) : Q := p.iU * p.iU + p.iV * p.iV + (p.iU + p.iV) * (p.iU + p.iV)
def pairPower (udc : Q) (p : LsPair) : Q := udc * (p.dU * p.iU + p.dV * p.iV + p.dW * (-p.iU - p.iV))

/-- The reading of the DC link that the Backstay makes for itself. -/
def bsUdc (s : State) (n : Fin 4) : Q :=
  let r := slotOf s 7 (bsU s secSafety 0 2 1 - 28)
  bsF s secSense n.val (dcOff + 4) * (codeVolts r.code - bsF s secSense n.val (dcOff + 8))

/-- The estimates of an interval (Table 15.2). -/
structure BsLook where
  tA : Q
  tP : Q
  i : Q
  w : Q
  /-- Violating methods: bit 4 ANGLE, 3 POWER, 2 CURRENT, 1 SPEED, 0 DIRECTION. -/
  bad : Nat
  deriving DecidableEq, Repr

def bsLook (s : State) (n : Fin 4) : BsLook :=
  let b := (s.axis n).bs
  let ps := if lsPresent s n then b.pairs else []
  let two := decide (2 ≤ ps.length)
  let w := bsSpeed s n
  let tA := if b.referenced && two then meanQ (ps.map (pairTorque s n)) else 0
  let power := two && decide (bsSafeF s n 28 ≤ qabs w)
  let tP := if power then (meanQ (ps.map (pairPower (bsUdc s n))) - bsSafeF s n 44 * meanQ (ps.map pairSq)) / w else 0
  let i := if two then (ps.map fun p => Config.sqrt (2 / 3 * pairSq p)).foldl qmax 0 else 0
  let slack := bsF s secSafety 0 12 * bsTMax s n
  let decoder := decide (bsPos s n != 0xFF)
  { tA := tA, tP := tP, i := i, w := w
    bad := place (ofFlag (b.referenced && two && (decide (tA < b.tLo) || decide (b.tHi < tA)))) 4 1 +
           place (ofFlag (power && (decide (tP < b.tLo - slack) || decide (b.tHi + slack < tP)))) 3 1 +
           place (ofFlag (two && decide (b.iWin < i))) 2 1 +
           place (ofFlag (decoder && decide (b.wMax < qabs w))) 1 1 +
           place (ofFlag (b.dir != 0 && decide (2 * bsSafeF s n 24 < b.forbidden))) 0 1 }

/-- One axis at the end of an interval: any method that violates counts, whatever MODE the frame names (R417). The windows bind from the first
accepted frame, which arms the Backstay (R421), and an axis that it already holds is not removed again, as R424 has it: DEDUCED (log entry 33),
unsafe. -/
def bsEvaluate (s : State) (n : Fin 4) : State :=
  let b := (s.axis n).bs
  let k := bsLook s n
  let bad := if s.back.armed then k.bad else 0
  let none_ := bsMode b == 1 && lsPresent s n && b.pairs.isEmpty
  let run := if none_ then b.noPairRun + 1 else 0
  let deb := if bad = 0 then 0 else b.debounce + 1
  let blind := decide (8 ≤ run)
  let t := s.setBs n fun b => { b with
    tA := k.tA, tP := k.tP, iBs := k.i, wBs := k.w, violating := bad, debounce := min 63 deb, pairs := []
    noPairRun := min 8 run, blind := blind, noPair := if none_ then satInc 16 b.noPair else b.noPair }
  let u := if blind && !b.blind then raiseStop t evBackstayBlind n 0 else t
  if bad != 0 && decide (bsU s secSafety 0 1 1 ≤ deb) && !bsHolds u n then bsRemove u n else u

/-- The end of an interval of 250 µs. -/
def execBackstayEvaluation (s : State) : Result :=
  if !backRuns s then .next s else
  let udc := bsUdc s 0
  finish s (({ s with back := { s.back with udc := udc } }).forAxes axPresent bsEvaluate)

/-! ## The frame that Pair A writes (R418, R420) -/

/-- MODE of an axis. -/
def frameMode (s : State) (n : Fin 4) : Nat :=
  let a := s.axis n
  if !axPresent s n then 0 else
  match a.core.st with
  | .catching => if a.catch_.waiting then 0 else 1
  | .runTorque | .runSpeed | .runPosition | .stopping => 1
  | .axisSafe => if a.discharging then 1 else 2
  | .off => 0

/-- DIR: 1 where only forward motion is permitted, 2 where only reverse is. -/
def frameDir (s : State) (n : Fin 4) : Nat := if sdiFwd s n then 1 else if sdiRev s n then 2 else 0

/-- Tr2: the extreme value that the reference can reach within 2 ms under the ramps in force (R221). Towards one source value under one set of
ceilings it moves one way, so that the extreme is where it stands after the 2 ms; a stop or an SLS braking moves it along its own course. -/
def reach2ms (s : State) (n : Fin 4) : Q :=
  let c := (s.axis n).ctl
  let later := { s with clk := { s.clk with now := s.clk.now + 200000 } }
  let tq := limitTorque later n (s.axis n).sense.udc c.w
  let (up, down) := rampRates s n tq
  if c.tqZero then 0 else if tq.free then tq.lim else rampFor c.tRef tq.lim up down (1 / 500)

/-- The torque bounds, the current bound and the speed bound of an axis. A group's reference is shared by its members (R226), each of which the Backstay
bounds by itself. -/
def frameBounds (s : State) (n : Fin 4) : Q × Q × Q × Q :=
  let m := cfgF s secSafety 0 8
  let k : Q := ((axMembers s n).length : Q)
  let t0 := (s.axis n).ctl.tRef / k
  let t2 := reach2ms s n / k
  let mm := m * tMaxOf s n
  let w := 11 / 10 * (if slsActive s n then safetyF s n 20 else (certF s n 2).getD (cfgF s secLimits 0 (4 * n.val)))
  if (s.axis n).discharging then (-mm, mm, (1 + m) * safetyF s n 56, w)
  else (qmin t0 t2 - mm, qmax t0 t2 + mm, (1 + m) * iLimOf s n, w)

def frameEntry (s : State) (n : Fin 4) : List Byte :=
  let (lo, hi, i, w) := frameBounds s n
  [BitVec.ofNat 8 (frameMode s n), BitVec.ofNat 8 (frameDir s n)] ++
  (if axEnabled s n then f32Bytes lo ++ f32Bytes hi ++ f32Bytes i ++ f32Bytes w else List.replicate 16 0) ++ List.replicate 8 0

/-- The window frame of this instant (Table 15.3). -/
def pairAFrame (s : State) : List Byte :=
  let disch := (allAxes.map fun n => place (ofFlag (s.axis n).discharging) (1 + n.val) 1).sum
  let body := leBytes 2 (s.back.seq + 1) ++ leBytes 2 (ofFlag (cfgBench s) + disch) ++
    leBytes 4 (match s.cfg.active with | some img => imgGeneration img | none => 0) ++ (allAxes.map (frameEntry s)).flatten
  body ++ leBytes 4 (crc32c body).toNat

/-! ## Taking a frame (R419, R420, R425) -/

/-- One axis entry as received. -/
structure WindowEntry where
  mode : Nat
  dir : Nat
  tLo : Q
  tHi : Q
  iWin : Q
  wMax : Q
  disch : Bool
  deriving DecidableEq, Repr

def windowEntry (f : List Byte) (n : Fin 4) : WindowEntry :=
  let o := 8 + 26 * n.val
  { mode := fieldU f o 1, dir := fieldU f (o + 1) 1, tLo := fieldF f (o + 2), tHi := fieldF f (o + 6), iWin := fieldF f (o + 10)
    wMax := fieldF f (o + 14), disch := bitAt (fieldU f 2 2) (1 + n.val) }

/-- A change of MODE that R419 lists, or no change. -/
def modeChangeOk (old new : Nat) (disch : Bool) : Bool :=
  old == new || (old == 0 && (new == 1 || new == 2)) || (old == 1 && (new == 0 || new == 2)) || (old == 2 && (new == 0 || (new == 1 && disch)))

/-- The checks of R419 on one axis entry. A held trip admits no change to BOUNDED. The bounds arrive as binary32, so the limit they
are held against is taken as binary32 too: a bound at the limit passes (log entry 3). -/
def entryOk (s : State) (f : List Byte) (n : Fin 4) : Bool :=
  let e := windowEntry f n
  let b := (s.axis n).bs
  let tm := bsTMax s n
  let m := bsMargin s
  let ceil := match s.back.copyCert with | some c => qmin tm (fieldF c (40 + 12 * n.val)) | none => tm
  let lim := f32Round (if bitAt (fieldU f 2 2) 0 then qmin (ceil + m * tm) ((bsF s secSystem 0 12 + m) * tm) else ceil + m * tm)
  decide (e.tLo ≤ e.tHi) && decide (qabs e.tLo ≤ lim) && decide (qabs e.tHi ≤ lim) && modeChangeOk b.mode e.mode e.disch &&
  (!e.disch || e.mode == 1) && !(b.held && e.mode == 1)

def frameOk (s : State) (f : List Byte) : Bool :=
  f.length == 116 && fieldU f 112 4 == (crc32c (f.take 112)).toNat && fieldU f 0 2 == (s.back.seq + 1) % 65536 &&
  (match s.back.copy with | some img => fieldU f 4 4 == imgGeneration img | none => false) && allAxes.all (entryOk s f)

/-- An accepted entry governs its axis: MODE OFF removes the gate enable and another MODE restores it, unless a trip is held, a
pattern has locked it, or a removal runs (R420, R422, R423). -/
def takeEntry (s : State) (f : List Byte) (n : Fin 4) : State :=
  let e := windowEntry f n
  s.setBs n fun b =>
    let ends := b.held && b.cleared && !b.patternLock && e.mode == 0
    let held := b.held && !ends
    let enters := !held && e.mode == 2 && bsMode b != 2
    { b with
      safeSince := if enters then some s.clk.now else if held || e.mode == 2 then b.safeSince else none
      pattern := if enters then none else b.pattern, changedAt := if enters then none else b.changedAt
      mode := e.mode, dir := e.dir, tLo := e.tLo, tHi := e.tHi, iWin := e.iWin, wMax := e.wMax, held := held
      cleared := b.cleared && held, forbidden := if e.dir = b.dir then b.forbidden else 0
      goodFrames := if e.mode = 1 then 0 else min 4 (b.goodFrames + 1)
      geRemoved := if held || b.patternLock then b.geRemoved else e.mode == 0 }

/-- The Backstay takes its copy of the configuration (R415). -/
def bsCopy (s : State) : State := { s with back := { s.back with copy := s.cfg.active, copyCert := s.sec.cert } }

/-- A frame that fails a check is discarded and the windows stay (R419). -/
def rejectFrame (s : State) : State :=
  raiseLimited (({ s with back := { s.back with rejected := satInc 16 s.back.rejected } }).forAxes (fun _ _ => true) fun t n => t.setBs n fun b => { b with goodFrames := 0 })
    evBackstayFrameRejected 0 0xFF (place 0xFF 24 8)

def acceptFrame (s : State) (f : List Byte) : State :=
  let t := (s.forAxes (fun _ _ => true) fun t n => takeEntry t f n)
  { t with back := { t.back with
    armed := true, feedDown := false, bench := bitAt (fieldU f 2 2) 0, seq := fieldU f 0 2
    accepted := (t.back.accepted + 1) % 65536, lastAccepted := s.clk.now } }

/-- A frame crosses to the Backstay: the one that Pair A writes now, where `bytes` is empty, or the bytes that arrive in its
place. The first feed after a tack brings the copy of the configuration up to date first (R415). -/
def execWindowFrame (bytes : List Byte) (s : State) : Result :=
  if !backRuns s || bitAt s.clk.lost 0 || bitAt s.clk.lost 1 || s.lock.pairAFailed || (bytes.isEmpty && s.lock.pairs[0].halted) || s.boot.phase < 0x0E then .next s else
  let t := tackReached (if s.back.copy = s.cfg.active then s else bsCopy s) [4]
  let f := if bytes.isEmpty then pairAFrame t else bytes
  finish s (if frameOk t f then acceptFrame t f else rejectFrame t)

end Sys2Proof.Machine
end

