-- ==== Sys2Proof/Machine/CanController.lean ====
section
/-! DEFINITION. The CAN controllers (R459 to R485) and the host transport over CAN (R77 to R79): rows CAN_RX_FRAME to E2E_TIMEOUT,
BUS_INTEGRATION, SEGMENT_TIMEOUT, and the CAN commands. -/
namespace Sys2Proof.Machine
open Sys2Proof

/-! ## Host transport (R77, R78) -/

/-- The identifier of a HOST field names this frame. -/
def identIs (s : State) (off : Nat) (f : CanFrame) : Bool := bitAt (hostU s off 4) 31 == f.extended && bitsOf (hostU s off 4) 0 29 == f.ident

/-- The free slots of the CAN transport's eight tags. -/
def freeTagSlot (s : State) : Option Nat := [17, 18, 19, 20, 21, 22, 23, 24].find? fun k => !slotBusy s k

/-- An MBP-2 request over CAN takes a free tag of the transport. A ninth request while all eight are busy passes the same checks, so that it
is answered where one of them, TAG_IN_USE among them, answers; past them no tag is left for it, and the rules name no answer: it is dropped, as
log entry 42 has it for the MBP-1 slot. DESIGN CHOICE (log entry 207), unsafe. -/
def intakeTag (s : State) (frame : List Byte) : State :=
  match freeTagSlot s with
  | some k => intake s k frame
  | none =>
    let t := intake s 25 frame
    { t with host := { t.host with jobs := t.host.jobs.filter fun j => j.slot != 25 } }

/-- A segment of an MBP-2 request (R78): the set goes on, completes, or is discarded; index 0 begins a new set (log entry 43). -/
def segment (s : State) (data : List Byte) : State :=
  let seg := fieldU data 0 1
  let ix := bitsOf seg 0 4
  let tag := fieldU data 1 1
  let setR (r : Option Reassembly) : State := { s with host := { s.host with reassembly := r } }
  let last := bitAt seg 6
  let ok := bitsOf seg 4 2 == 0 && decide (ix ≤ 8) && (last || data.length == 64)
  if !ok then setR none
  else if ix = 0 then (if last then setR none else setR (some { tag := tag, next := 1, bytes := slice data 2 62, started := s.clk.now }))
  else match s.host.reassembly with
    | some r =>
      if r.tag ≠ tag ∨ r.next ≠ ix then setR none
      else if last then intakeTag (setR none) (r.bytes ++ slice data 2 62)
      else setR (some { r with next := ix + 1, bytes := r.bytes ++ slice data 2 62 })
    | none => s

/-- A frame on a request identifier of the host (R77). A classic frame is ignored. While the MBP-1 slot is busy no further request is
taken (log entry 42). -/
def hostFrame (s : State) (n : Fin 4) (f : CanFrame) : State :=
  if hostCan s ≠ some n ∨ !mailServed s ∨ romServes s ∨ f.format = 0 then s
  else if identIs s 4 f then (if f.format = 1 ∧ f.data.length = 64 ∧ !slotBusy s 16 then intake s 16 f.data else s)
  else if identIs s 12 f then
    (if f.format = 2 then (if canXl s n then intakeTag s f.data else s)
     else if bitAt (fieldU f.data 0 1) 7 then segment s f.data
     else if s.host.reassembly.isSome then intakeTag { s with host := { s.host with reassembly := none } } f.data
     else intakeTag s f.data)
  else s

/-- An incomplete set of segments 10 ms after its first (R78). -/
def execSegmentTimeout (s : State) : Result :=
  match s.host.reassembly with
  | none => .next s
  | some r => if s.clk.now < r.started + 1000000 then .next s else finish s { s with host := { s.host with reassembly := none } }

/-- The oldest response frame leaves the queue of a controller that is the host's (R79); buffer number 256 of the CAN commands stands for
it, and no descriptor belongs to it (log entry 208). -/
def hostTx (s : State) (ctl : Fin 4) (buf : Nat) : Option (HostTx × State) :=
  if buf ≠ 256 ∨ hostCan s ≠ some ctl then none else
  match s.host.canOut with
  | [] => none
  | x :: rest => some (x, { s with host := { s.host with canOut := rest } })

/-- A response frame is withdrawn with TX_EXPIRED (R79, R471). No rule gives its buffer number in the event: a free value (log entry 208). -/
def hostExpire (t : State) (n : Fin 4) : State :=
  let (b, u) := drawNat t
  let v := u.setCan n fun c => { c with txExpired := satInc 16 c.txExpired }
  raiseLimited v evTxExpired (n.val * 257 + 1024) (8 + n.val) (place n.val 24 8 + b % 256)

/-! ## Receiving -/

/-- A received frame (R460, R465 to R469, R476 to R478): a frame of a disabled format is a protocol exception; otherwise the filters
decide, the frame is stored, a SAFETY buffer's check follows. `taken` FIFO entries have been read by firmware meanwhile. -/
def execCanRxFrame (ctl : Fin 4) (received : CanFrame) (taken : Nat) (s : State) : Result :=
  let c := s.canCtl ctl
  let frame := timed s ctl received
  if !canRuns s ctl || c.link != .online || c.busOff || c.pexc || c.stopped || c.test != 0 then .next s else
  if (frame.format = 1 ∧ !canFlag s ctl 0) ∨ (frame.format = 2 ∧ !canXl s ctl) then
    let t := s.setCan ctl fun c => { c with pexc := true, pexcs := satInc 8 c.pexcs }
    finish s (raiseLimited t evProtocolException ctl.val (8 + ctl.val) (place ctl.val 24 8))
  else
    let h := canFilter s ctl frame
    let got := if 127 < c.rec_ then s.setCan ctl fun c => { c with rec_ := 127 } else s.setCan ctl fun c => { c with rec_ := c.rec_ - 1 }
    let t := match h.action with
      | 1 => match canDesc got ctl h.target with
        | some d =>
          let u := storeBuffer got ctl d frame h
          if bufFlag s ctl h.target 0 && pairBTasksWork s && (canDesc u ctl h.target).map (·.lost) == some d.lost then e2eCheck u ctl d frame else u
        | none => got
      | 2 => storeFifo got ctl 0 frame h taken
      | 3 => storeFifo got ctl 1 frame h taken
      | _ => got
    finish s (hostFrame t ctl frame)

/-- LOCK of an RX buffer (R468): a clear swaps in a frame that waits in the shadow and sets NEW, which the same write may clear otherwise. -/
def execRxLock (ctl : Fin 4) (write : DescWrite) (lock : Bool) (s : State) : Result :=
  if !canPresent s ctl then finish s (absentWrite s 0) else
  if bitAt s.clk.lost 1 || bufKind s ctl write.buf != 2 then .next s else
  finish s (s.setDesc ctl write.buf fun d =>
    if !lock && d.lock && d.shadowFull then { d with lock := false, shadowFull := false, req := true, slot := d.shadow, shadow := d.slot }
    else { d with lock := lock, req := d.req && !bitAt write.clear 29 })

/-! ## Transmitting (R470, R471) -/

/-- The flags of a TX buffer that a write of 1 clears (Table 17.4). -/
def clearFlags (write : DescWrite) (d : CanDesc) : CanDesc :=
  { d with sent := d.sent && !bitAt write.clear 26, expired := d.expired && !bitAt write.clear 25, cancelled := d.cancelled && !bitAt write.clear 24 }

/-- Words 0 to 3 of the slot header of a TX buffer as firmware writes them (R463): by the entry's FORMAT, ID and LENGTH. What an XL frame carries
in words 2 and 3 the entry does not say, and they stay as they are. -/
def txHeader (s : State) (n : Fin 4) (b : Nat) : List Byte :=
  let format := bufU s n b 1 1
  let id := bufU s n b 4 4
  leBytes 4 (place (ofFlag (format == 4)) 31 1 + place (ofFlag (format == 2 || format == 3)) 30 1 + place (ofFlag (format == 3)) 29 1 +
    place (ofFlag (format == 1)) 27 1 + place (ofFlag (bitAt id 31)) 26 1 + place (bufU s n b 10 2) 0 12) ++
  leBytes 4 (bitsOf id 0 29) ++ (if format = 4 then [] else leBytes 4 0 ++ leBytes 4 0)

/-- What firmware has written into the slot of a request: the header, and in a SAFETY buffer the counter of this request and the CRC over it and the
payload that stands in the slot (R463, R476). -/
def txFill (s : State) (n : Fin 4) (d : CanDesc) : State :=
  let base := slotBase d.slot
  let ram := cellsWrite s.can.ram base (txHeader s n d.buf)
  if !bufFlag s n d.buf 0 then { s with can := { s.can with ram := ram } } else
  let counted := cellsWrite ram (base + 26) [BitVec.ofNat 8 (d.counter + 1)]
  { s with can := { s.can with ram := cellsWrite counted (base + 24) (leBytes 2 (e2eCrc s n d.buf (cellsRead counted (base + 24) (bufU s n d.buf 10 2)))) } }

/-- TXREQ is taken: ENQ is the timestamp counter, and the counter of a SAFETY buffer goes on by 1 modulo 256, from 0 where the descriptor was
built: DESIGN CHOICE (log entry 274), unsafe. -/
def execTxreq (ctl : Fin 4) (write : DescWrite) (s : State) : Result :=
  if !canPresent s ctl then finish s (absentWrite s 0) else
  if bitAt s.clk.lost 1 || bufKind s ctl write.buf != 1 then .next s else
  match canDesc s ctl write.buf with
  | none => .next s
  | some d =>
    if d.req then finish s (s.setDesc ctl write.buf (clearFlags write)) else
    let (stamp, t) := canStamp s ctl
    finish s ((txFill t ctl d).setDesc ctl write.buf fun d => { clearFlags write d with
      req := true, enq := stamp, reqAt := s.clk.drive.toNat, cancelDue := false, expireDue := false, counter := (d.counter + 1) % 256 })

/-- CANCEL_REQ: at once, or at the end of the attempt where the frame is in transmission. -/
def execCancelReq (ctl : Fin 4) (write : DescWrite) (sending : Bool) (s : State) : Result :=
  if !canPresent s ctl then finish s (absentWrite s 0) else
  if bitAt s.clk.lost 1 || bufKind s ctl write.buf != 1 then .next s else
  let t := s.setDesc ctl write.buf (clearFlags write)
  finish s (if !canPending s ctl write.buf then t else if sending then t.setDesc ctl write.buf fun d => { d with cancelDue := true } else canCancel t ctl write.buf)

/-- The end of a frame sent, which was the head at its start of arbitration: it wins over a cancel or an expiry of the same instant. Words 4 and 5 of the slot header take the
timestamp and the drive time of its SOF sample point (R472). Once bind-off is accepted no frame starts (Table 2.7). -/
def execCanTxComplete (ctl : Fin 4) (buf : Nat) (stamp sof : Nat) (s : State) : Result :=
  let c := s.canCtl ctl
  if !canTalks s ctl || c.link != .online || c.busOff || c.stopped || c.test != 0 || canFlag s ctl 4 then .next s else
  match hostTx s ctl buf with
  | some (_, t) => finish s (t.setCan ctl fun c => { c with tec := c.tec - 1 })
  | none =>
  if !canPending s ctl buf || !canHead s ctl buf (min sof s.clk.drive.toNat) || (s.power.bindOff && s.power.bindAt < sof) then .next s else
  match canDesc s ctl buf with
  | none => .next s
  | some d =>
    let t := s.setDesc ctl buf fun d => { d with req := false, sent := true, cancelDue := false, expireDue := false }
    let u := { t with can := { t.can with ram := cellsWrite t.can.ram (slotBase d.slot + 16) (leBytes 4 (sofTimes s ctl stamp sof).1 ++ leBytes 4 (sofTimes s ctl stamp sof).2) } }
    finish s (u.setCan ctl fun c => { c with tec := c.tec - 1 })

/-- A pending buffer past its lifetime (R471). Past its SOF the attempt completes first. -/
def execTxExpired (ctl : Fin 4) (buf : Nat) (sending : Bool) (s : State) : Result :=
  match hostTx s ctl buf with
  | some (x, t) =>
    let life := hostU s 20 4
    let (now_, u) := canStamp t ctl
    if life = 0 || (!canFlag s ctl 6 && (now_ + 2 ^ 32 - x.enq) % 2 ^ 32 < life) then .next s
    else if sending then finish s { s with host := { s.host with canOut := { x with due := true } :: t.host.canOut } }
    else finish s (hostExpire u ctl)
  | none =>
  match canDesc s ctl buf with
  | none => .next s
  | some d =>
    let life := bufLifetime s ctl buf
    let (now_, t) := canStamp s ctl
    if !canPending s ctl buf || life = 0 || (!canFlag s ctl 6 && (now_ + 2 ^ 32 - d.enq) % 2 ^ 32 < life) then .next s
    else finish s (if sending then t.setDesc ctl buf fun d => { d with expireDue := true } else canExpire t ctl buf)

/-- A bus error (R473): the counts follow ISO 11898-1 (log entry 38). `first` is a dominant bit after the own error flag, `buf` the
buffer whose attempt fails. -/
def execCanBusError (ctl : Fin 4) (transmitter : Bool) (first : Bool) (kind : Nat) (buf : Nat) (s : State) : Result :=
  let c := s.canCtl ctl
  if !canRuns s ctl || c.link != .online || c.busOff || c.stopped || c.test != 0 || canFlag s ctl 4 then .next s else
  let t := s.setCan ctl fun c => { c with lastError := kind }
  let quiet := kind == 3 && canPassive c && !first
  let u := if transmitter then canCounts t ctl (if quiet then c.tec else c.tec + 8) c.rec_
    else canCounts t ctl c.tec (c.rec_ + (if first then 8 else 1))
  let v := match hostTx u ctl buf, canDesc u ctl buf with
    | some (x, r), _ => if transmitter && x.due then hostExpire r ctl else u
    | none, some d => if !transmitter || !canPending u ctl buf then u else if d.cancelDue then canCancel u ctl buf else if d.expireDue then canExpire u ctl buf else u
    | none, none => u
  finish s v

/-- 128 sequences of 11 recessive bits complete the recovery (R474). -/
def execCanRecovered (ctl : Fin 4) (s : State) : Result :=
  let c := s.canCtl ctl
  if !c.busOff || !c.recovering || bitAt s.clk.lost 4 then .next s else
  let t := s.setCan ctl fun c => { c with busOff := false, recovering := false, waitHost := false, tec := 0, rec_ := 0 }
  finish s (raiseLogged t evCanRecovered (8 + ctl.val) (place ctl.val 24 8) (leBytes 8 (s.clk.now - c.busOffAt)))

/-- 11 recessive bits (R460, R475, R479, R480): protocol exception, self-test or a RAM-fault stop ends, and the controller is on the
bus. The claim of an external test ends with it (Table 4.13). -/
def execBusIntegration (ctl : Fin 4) (s : State) : Result :=
  let c := s.canCtl ctl
  if !canRuns s ctl || c.busOff then .next s else
  let t := s.setCan ctl fun c => { c with link := .online, pexc := false, stopped := false, test := 0 }
  finish s { t with cfg := { t.cfg with claims := t.cfg.claims.filter fun k => !(k.function == 0x07 && k.owner == ctl.val) } }

/-- No accepted frame for TIMEOUT (R477): INIT, and SS1 on the axes of the entry. The reference of a paralleled group acts through its
share ramp instead (R493). -/
def execE2eTimeout (ctl : Fin 4) (buf : Nat) (s : State) : Result :=
  match canDesc s ctl buf with
  | none => .next s
  | some d =>
    let life := bufLifetime s ctl buf
    let (now_, t) := canStamp s ctl
    if bufKind s ctl buf != 2 || !bufFlag s ctl buf 0 || !d.timing || life = 0 || !pairBTasksWork s
        || ((refGroup s ctl buf).isSome && s.ring.role != .master)
        || (!canFlag s ctl 6 && (now_ + 2 ^ 32 - d.acceptedAt) % 2 ^ 32 < life) then .next s else
    let u := (t.setDesc ctl buf fun d => { d with valid := false, okRun := 0, timing := false }).setCan ctl fun c => { c with e2eTimeouts := satInc 8 c.e2eTimeouts }
    let v := raise u evE2eTimeout (8 + ctl.val) (place ctl.val 24 8 + place (bufU s ctl buf 3 1) 8 4 + buf)
    finish s (if (refGroup s ctl buf).isSome then v else v.forAxes (fun _ m => bufAxis s ctl buf m) requestSs1)

/-! ## Commands -/

/-- The controller that a command names; units above CAN3 do not exist. -/
def canJob (s : State) (j : Job) (f : Fin 4 → State) : State := if j.u 0 1 < 4 then f (Fin.ofNat 4 (j.u 0 1)) else badParameter s j

def execCanStatus (slot : Nat) (s : State) : Result :=
  command s slot 0x0601 fun s j => canJob s j fun n =>
    let c := s.canCtl n
    let st := if busOffNow s n then 2 else if canPassive c then 1 else 0
    succeed s s j (leBytes 2 st ++ leBytes 2 (min c.tec 65535) ++ leBytes 2 c.rec_ ++ [0, 0] ++ leBytes 4 c.txExpired)

def execCanRecover (slot : Nat) (s : State) : Result :=
  command s slot 0x0602 fun s j => canJob s j fun n =>
    if !(s.canCtl n).busOff || !canFlag s n 5 then badParameter s j
    else succeed s (s.setCan n fun c => { c with recovering := true, waitHost := false }) j []

/-- A loop-back test (R479): a controller without a section has no format to test and is skipped. The claim of an external test ends with
the test: at bus integration where it passed, at once where it failed, or where the controller has failed before and stays offline
until the next cast-on (Table 4.13). -/
def canSelftest (s : State) (n : Fin 4) (kind : Nat) (good : Bool) (j : Job) : State :=
  if !cfgHas s secCan n.val then succeed s s j [2]
  else
    let claim : List Claim := if kind = 2 then (canBalls n).map fun r => ⟨r, 0x07, n.val⟩ else []
    let t := { (s.setCan n fun c => { c with test := kind, link := .integrating }) with cfg := { s.cfg with claims := s.cfg.claims ++ claim } }
    if good then succeed s (if (s.canCtl n).failed then s else t) j [0]
    else succeed s (raise (({ t with cfg := s.cfg }).setCan n fun c => { c with failed := true, link := .offline, test := 0 }) evCanSelftestFail (8 + n.val) (place n.val 24 8)) j [1]

def execCanSelftestInternal (slot : Nat) (good : Bool) (s : State) : Result :=
  command s slot 0x0603 fun s j => if j.u 1 1 = 1 then s else canJob s j fun n =>
    if j.u 1 1 ≠ 0 then badParameter s j else canSelftest s n 1 good j

/-- The external test claims the balls of the controller: a ball that the map gives to another function is busy (R110). -/
def execCanSelftestExternal (slot : Nat) (good : Bool) (s : State) : Result :=
  command s slot 0x0603 fun s j => if j.u 1 1 ≠ 1 then s else canJob s j fun n =>
    match (canBalls n).findSome? fun r => (ownerOf s r).bind fun e => if e.function = 7 ∧ e.inst = n.val then none else some e with
    | some e => respond s j evResourceBusy (leBytes 4 e.resource ++ [BitVec.ofNat 8 e.function, BitVec.ofNat 8 e.inst])
    | none => canSelftest s n 2 good j

end Sys2Proof.Machine
end

