-- ==== Sys2Proof/Machine/BootOps.lean ====
section
/-! DEFINITION. Reset and what it keeps, the start of cast-on, and the halts (R17, R30, R38, R44, R50, R53). -/
namespace Sys2Proof.Machine
open Sys2Proof

/-! ## What outlives a reset -/

/-- A configuration slot as XS0 keeps it: a twin copy that was running is broken, and its slot is not valid (R100). -/
def keptCfgSlot (x : CfgSlot) : CfgSlot := if x.state = .copying then { x with state := .invalid } else x

/-- XS0 and the configuration: the slots alone. -/
def keptCfg (s : State) : CfgPart :=
  { CfgPart.reset with
    slotA := keptCfgSlot s.cfg.slotA, slotB := keptCfgSlot s.cfg.slotB
    copyBroken := s.cfg.copyBroken || s.cfg.slotA.state == .copying || s.cfg.slotB.state == .copying }

/-- The security controller keeps its fuses, what VBAT holds (key register, LOCKED, the tamper counts and levels, the tamper slot and
configuration of the AON domain), and the certificate store (R509, R516, R520). -/
def keptSec (s : State) : Security :=
  { Security.reset with
    fuses := s.sec.fuses, life := s.sec.life, logKey := s.sec.logKey, canary := s.sec.canary, keyMade := s.sec.keyMade
    locked := s.sec.locked, erased := s.sec.erased, authTimes := s.sec.authTimes, glitchTimes := s.sec.glitchTimes
    tamperHeld := s.sec.tamperHeld, meshRun := s.sec.meshRun, meshFirst := s.sec.meshFirst, encRun := s.sec.encRun, tempRun := s.sec.tempRun
    tamperCfg := s.sec.tamperCfg, certA := s.sec.certA, certB := s.sec.certB, certFloor := s.sec.certFloor, aonTamper := s.sec.aonTamper }

/-- The drive log keeps the region, and the staging RAM with its committed records, chain and live counters (R50, R530). A record
of a mode change that has not been committed waits in the AON domain until the log resumes. -/
def keptLog (s : State) : Log :=
  { s.log with
    waiting := s.log.waiting.filter fun d => d.type == 0x0012
    resumed := false, signing := false, exporting := false, gaps := 0, droppedTotal := 0, storeOk := false, stalled := false }

/-- The levels at the balls and supplies outlive a reset. -/
def keptPower (s : State) (cause : Nat) : Power :=
  { Power.reset with
    porstHigh := s.power.porstHigh, supplyHold := s.power.supplyHold, nextCause := cause, earlyHigh := s.power.earlyHigh
    seated := s.power.seated, pmicEn := s.power.pmicEn, wakeLatched := s.power.wakeLatched, wakeCause := s.power.wakeCause
    supplyBad := s.power.supplyBad, supplyNow := s.power.supplyNow, absent := s.power.absent, vbatLow := s.power.vbatLow, crystal := s.power.crystal
    cleanShutdown := s.power.cleanShutdown, sleepRtc := s.power.sleepRtc }

def keptSto (s : State) : Sto :=
  { Sto.reset with aLow := s.sto.aLow, bLow := s.sto.bLow, aQual := !s.sto.aLow, bQual := !s.sto.bLow, differAt := s.clk.now }

/-- The moves held or in progress as a reset comes are discarded at the cast-on after it, with MOVE_DISCARDED; none is kept across power, the loss of
which takes its record with it (R331, R332). -/
def droppedMoves (s : State) (cause : Nat) : List (Nat × Nat × Nat) :=
  if cause = 0 then [] else
  (allAxes.filter fun n => (s.axis n).prof.held.isSome || (s.axis n).prof.moving).map fun n => (evMoveDiscarded, n.val, place n.val 24 8)

/-- The device is in reset (R30, R53): every register takes its reset value but what a supply-independent store or a level holds. -/
def enterReset (s : State) (cause : Nat) : State :=
  let t := auxPowerLost s
  { State.reset with
    power := keptPower t cause
    clk := { Clocks.reset with now := t.clk.now, drive := t.clk.drive, rtc := t.clk.rtc, rtcPart := t.clk.rtcPart }
    boot := { Boot.reset with deferred := droppedMoves t cause }
    fw := { t.fw with loadSlot := none, loadSize := 0 }
    cfg := keptCfg t
    sec := keptSec t
    log := keptLog t
    sto := keptSto t
    aux := { Aux.reset with kept := t.aux.kept, keptRef := t.aux.keptRef, keptStale := t.aux.keptStale }
    axes := t.axes.map fun a => { Axis.reset with trip := { Trip.reset with fltLow := a.trip.fltLow } }
    rig := { Rigger.reset with countsAt := t.clk.now }
    free := t.free
    pending := t.pending }

/-- Reset ends and cast-on starts at step 1: drive time is cleared, and every supply but the battery is in its range (R17, R38, R53). -/
def startCastOn (s : State) : State :=
  { s with
    mode := .boot
    power := { s.power with inReset := false, wakeCause := none, wakeLatched := none, supplyBad := 0, supplyNow := s.power.supplyNow &&& 0x1000 }
    clk := { s.clk with drive := 0, driveRuns := false }
    boot := { s.boot with phase := 1, startedAt := s.clk.now, wakeCause := s.power.wakeCause.getD s.power.nextCause } }

/-- A reset of the device from inside, with cast-on at once after it. FAULTSUM rises from its reset value, so that a STO ball that is low sets
DOORBELL_OUT.FAULT at step 1 (R42, R62). -/
def internalReset (s : State) (cause : Nat) : State :=
  let t := enterReset s cause
  settleFault t (startCastOn t)

/-! ## Halts (R44, Table 2.5) -/

/-- Cast-on halts: BOOTSTAT shows the cause, HOST_ATTN_N goes low, and SYSTEM is set (Table 3.12). -/
def halt (s : State) (code : Nat) : State :=
  { s with
    boot := { s.boot with halt := true, haltCode := code }
    host := { s.host with outSystem := true } }

/-- An event noted before firmware runs; firmware raises it as it starts (R61, Table 19.8). -/
def defer (s : State) (code unit data : Nat) : State :=
  if firmwareUp s then raise s code unit data
  else { s with boot := { s.boot with deferred := s.boot.deferred ++ [(code, unit, data)] } }

end Sys2Proof.Machine
end

