-- ==== Sys2Proof/Machine/Fields.lean ====
section
/-! DEFINITION. The fields of the configuration sections: place, range, use condition and tack class of each (R86, R92, R96),
for the system sections and those of an axis. -/
namespace Sys2Proof.Machine
open Sys2Proof

/-! ## Fields -/

/-- The axes that a COLD field affects (R92). -/
inductive Affects where
  /-- Every axis; the axis of the section's instance; one axis; an axis with the members of its group. -/
  | all | own | axis (n : Nat) | groupOf (n : Nat)
  /-- The axis of a position interface; the users of a delta-sigma channel or clock. -/
  | ifc | chan (k : Nat) | clock (k : Nat)
  /-- Every axis in any AXES of SAFE_IN; those of a safe output (R456); the auxiliary channel (R346). -/
  | safeIn | safeOut (k : Nat) | auxiliary
  /-- The axes on the ring timebase, and the axis of a ring group entry. -/
  | ringAxes | ringGroup (g : Nat)
  deriving DecidableEq, Repr

/-- The tack classes of R92. -/
inductive TackClass where
  | hot | cold (who : Affects) | boot
  deriving DecidableEq, Repr

/-- A section as it is checked: the state with the image under check as its active set, the instance and the body. -/
structure SecView where
  s : State
  inst : Nat
  body : List Byte

def SecView.u (v : SecView) (off size : Nat) : Nat := fieldU v.body off size
def SecView.f (v : SecView) (off : Nat) : Q := fieldF v.body off
def SecView.bit (v : SecView) (off n : Nat) : Bool := bitAt (fieldU v.body off 1) n
/-- The axis of the section's instance. -/
def SecView.ax (v : SecView) : Fin 4 := Fin.ofNat 4 v.inst

/-- A field of a section body: bits `lo` to `lo + width - 1` of the `size` bytes at `off`; its range, its use condition and its
tack class. -/
structure Field where
  off : Nat
  size : Nat
  lo : Nat
  width : Nat
  cls : TackClass
  ok : SecView → Nat → Bool
  used : SecView → Bool
  /-- The field is a binary32 number. -/
  real : Bool

/-- The value of a field. -/
def Field.get (f : Field) (v : SecView) : Nat := bitsOf (v.u f.off f.size) f.lo f.width

/-- An integer field with a range. -/
def fInt (off size lo hi : Nat) (c : TackClass) : Field :=
  ⟨off, size, 0, 8 * size, c, fun _ w => decide (lo ≤ w) && decide (w ≤ hi), fun _ => true, false⟩
/-- An integer field that also takes 0xFF. -/
def fOpt (off lo hi : Nat) (c : TackClass) : Field :=
  ⟨off, 1, 0, 8, c, fun _ w => w == 0xFF || (decide (lo ≤ w) && decide (w ≤ hi)), fun _ => true, false⟩
/-- Some bits of a field, with their range. -/
def fBits (off size lo width hi : Nat) (c : TackClass) : Field := ⟨off, size, lo, width, c, fun _ w => decide (w ≤ hi), fun _ => true, false⟩
/-- A field any content of which is in range. -/
def fAny (off size : Nat) (c : TackClass) : Field := ⟨off, size, 0, 8 * size, c, fun _ _ => true, fun _ => true, false⟩

/-- The limit of a range as binary32 holds it (R8). -/
def lim (q : Q) : Q := (f32Value (f32Bits q)).getD q
/-- A binary32 value between two limits. -/
def f32In (lo hi : Q) (w : Nat) : Bool := match f32Value w with | some x => decide (lim lo ≤ x) && decide (x ≤ lim hi) | none => false
/-- A binary32 field with a range. -/
def fReal (off : Nat) (lo hi : Q) (c : TackClass) : Field := ⟨off, 4, 0, 32, c, fun _ w => f32In lo hi w, fun _ => true, true⟩
/-- A binary32 field any number of which is in range. -/
def fNum (off : Nat) (c : TackClass) : Field := { fAny off 4 c with real := true }

/-- The field is used only under a condition. -/
def Field.when (f : Field) (p : SecView → Bool) : Field := { f with used := fun v => f.used v && p v }
/-- The field has a further bound. -/
def Field.with_ (f : Field) (p : SecView → Nat → Bool) : Field := { f with ok := fun v w => f.ok v w && p v w }
/-- Its binary32 value lies at or above that of another expression. -/
def Field.atLeast (f : Field) (g : SecView → Q) : Field := f.with_ fun v w => match f32Value w with | some x => decide (g v ≤ x) | none => false
def Field.atMost (f : Field) (g : SecView → Q) : Field := f.with_ fun v w => match f32Value w with | some x => decide (x ≤ g v) | none => false
/-- The field of an entry at a base. -/
def Field.at_ (f : Field) (base : Nat) : Field := { f with off := f.off + base }
def Field.classed (f : Field) (c : TackClass) : Field := { f with cls := c }

/-- Microseconds and milliseconds in seconds. -/
def us (x : Q) : Q := x / 1000000
def ms (x : Q) : Q := x / 1000

/-! ## System sections (Tables 4.6, 4.7, 19.11 to 19.14) -/

def fieldsSystem : List Field :=
  [fBits 0 4 0 1 1 (.cold .all), fBits 0 4 1 1 1 .boot, fBits 0 4 2 30 0 .boot] ++
  (List.range 4).map (fun n => (fBits 4 1 n 1 1 (.cold (.axis n)))) ++ [fBits 4 1 4 4 0 .boot] ++
  (List.range 4).map (fun n => fBits 8 4 (4 * n) 4 2 (.cold (.groupOf n))) ++ [fBits 8 4 16 16 0 .boot, fReal 12 (1 / 100) (1 / 2) .hot]

/-- CAN_HOST names a controller. -/
def canHosted (v : SecView) : Bool := v.u 2 1 != 0xFF
def fieldsHost : List Field :=
  [(fInt 0 2 0 1000 .hot).with_ fun _ w => w == 0 || decide (10 ≤ w), fOpt 2 0 3 .boot,
   (fBits 4 4 0 29 (2 ^ 29 - 1) .boot).when canHosted, (fBits 4 4 29 2 0 .boot).when canHosted, (fBits 4 4 31 1 1 .boot).when canHosted,
   (fBits 8 4 0 29 (2 ^ 29 - 1) .boot).when canHosted, (fBits 8 4 29 2 0 .boot).when canHosted, (fBits 8 4 31 1 1 .boot).when canHosted,
   (fBits 12 4 0 29 (2 ^ 29 - 1) .boot).when canHosted, (fBits 12 4 29 2 0 .boot).when canHosted, (fBits 12 4 31 1 1 .boot).when canHosted,
   (fBits 16 4 0 29 (2 ^ 29 - 1) .boot).when canHosted, (fBits 16 4 29 2 0 .boot).when canHosted, (fBits 16 4 31 1 1 .boot).when canHosted,
   fInt 20 4 0 (2 ^ 31) .hot]

def fieldsLimits : List Field := ([0, 1, 2, 3] : List (Fin 4)).map fun n => (fReal (4 * n.val) 1 10000 .hot).when fun v => axEnabled v.s n

def fieldsOdometry : List Field :=
  (([0, 1, 2, 3] : List (Fin 4)).map fun n =>
    ({ fReal (4 * n.val) 0 10 .hot with ok := fun _ w => w == 0 || f32In (1 / 10000) 10 w } : Field).when fun v => axEnabled v.s n) ++
  [fOpt 16 0 3 .hot]

def fieldsSecurity : List Field :=
  [fBits 0 1 0 4 15 .boot, (fBits 0 1 4 1 1 .boot).when (fun v => v.bit 0 2 || v.bit 0 3), fBits 0 1 5 2 3 .boot, fBits 0 1 7 1 0 .boot,
   fAny 8 64 .boot, fAny 72 64 .boot]

/-- A power of two. -/
def powerOfTwo (w : Nat) : Bool := w != 0 && 2 ^ w.log2 == w
def fieldsLog : List Field :=
  [fInt 0 1 0 1 .boot, fInt 1 1 0 1 .boot, fAny 2 1 .boot, fAny 3 1 .boot,
   (fAny 4 4 .boot).with_ (fun v w => v.u 12 4 == 0 || w % v.u 12 4 == 0), fInt 8 4 1048576 268435456 .boot,
   (fInt 12 4 4096 262144 .boot).with_ (fun _ w => powerOfTwo w), (fInt 16 2 64 1024 .boot).with_ (fun _ w => powerOfTwo w),
   fReal 20 (ms 1) 5 .boot, fReal 24 (us 10) (ms 10) .boot, fReal 28 1 3600 .hot, fReal 32 1 60 .hot]

/-! ## PWM (Table 5.8, R146) -/

def pwmSensed (v : SecView) : Bool := bitsOf (v.u 3 1) 0 3 != 0
def fieldsPwm : List Field :=
  [fInt 0 1 0 1 (.cold .own), fInt 1 1 1 3 (.cold .own), fInt 2 1 0 5 (.cold .own), fBits 3 1 0 4 15 .hot, fBits 3 1 4 4 0 .hot,
   fReal 4 (us 10) (us 500) (.cold .own), (fReal 8 0 (us 500) .hot).atLeast (·.f 4),
   ((fReal 12 0 (us 500) (.cold .own)).atMost (·.f 4)).when (fun v => v.u 2 1 != 0)] ++
  (List.range 8).map (fun k => fReal (16 + 4 * k) 0 (us 2) .hot) ++
  [(fReal 48 0 (us 2) .hot).when pwmSensed, (fReal 52 0 (us 2) .hot).when pwmSensed, fReal 56 0 (us 2) .hot, fReal 60 0 1 .hot,
   fReal 64 0 (us 1) .hot, fReal 68 (1 / 10) 1000 .hot, (fInt 72 1 0 15 .hot).when pwmSensed, (fInt 73 1 1 255 .hot).when pwmSensed,
   (fInt 74 1 1 255 .hot).when pwmSensed, fInt 75 1 1 4 .hot]

/-! ## TRIP (Tables 6.8, 6.9, R172) -/

/-- An entry beyond NCMP or NDSF holds the number 0xFF followed by zeros. -/
def entryBlank (v : SecView) (base : Nat) : Bool := v.u base 1 == 0xFF && (slice v.body (base + 1) 11).all (· == 0)

def fieldsCmp (k : Nat) : List Field :=
  let b := 16 + 12 * k
  let used (v : SecView) : Bool := decide (k < v.u 2 1)
  [{ fInt b 1 0 23 (.cold .own) with ok := fun v w => if used v then decide (w ≤ 23) else entryBlank v b },
   ((fBits (b + 1) 1 0 1 1 (.cold .own)).with_ fun v w => w == 0 || (v.u b 1 != 22 && v.u b 1 != 23)).when used,
   (fBits (b + 1) 1 1 1 1 (.cold .own)).when used, (fBits (b + 1) 1 2 2 3 .hot).when used, (fBits (b + 1) 1 4 2 3 (.cold .own)).when used,
   (fBits (b + 1) 1 6 2 0 (.cold .own)).when used, ((fInt (b + 2) 1 1 7 (.cold .own))).when used, (fReal (b + 4) 0 (29993 / 10000) .hot).when used,
   (fReal (b + 8) 0 (us 2) .hot).when used]
def fieldsDsf (k : Nat) : List Field :=
  let b := 112 + 12 * k
  let used (v : SecView) : Bool := decide (k < v.u 3 1)
  [{ fInt b 1 0 15 (.cold .own) with ok := fun v w => if used v then decide (w ≤ 15) else entryBlank v b },
   (fBits (b + 1) 1 0 4 0 (.cold .own)).when used, (fBits (b + 1) 1 4 2 3 (.cold .own)).when used, (fBits (b + 1) 1 6 2 0 (.cold .own)).when used,
   (fInt (b + 2) 1 1 7 (.cold .own)).when used, (fReal (b + 4) (-1) 1 .hot).when used,
   ((fReal (b + 8) (-1) 1 .hot).with_ fun v _ => decide (v.f (b + 8) < v.f (b + 4))).when used]
def tripFlt (v : SecView) : Bool := bitsOf (v.u 0 1) 3 3 != 0
/-- Some used entry has the action CBC or LATCH. -/
def tripLatches (v : SecView) : Bool :=
  ((List.range (min 8 (v.u 2 1))).any fun k => let a := bitsOf (v.u (17 + 12 * k) 1) 4 2; a == 1 || a == 2) ||
  (List.range (min 4 (v.u 3 1))).any fun k => let a := bitsOf (v.u (113 + 12 * k) 1) 4 2; a == 1 || a == 2
def fieldsTrip : List Field :=
  [fBits 0 1 0 2 2 (.cold .own), fBits 0 1 2 4 15 (.cold .own), fBits 0 1 6 2 0 (.cold .own), fInt 1 1 1 255 .hot, fInt 2 1 0 8 (.cold .own),
   fInt 3 1 0 4 (.cold .own), (fReal 4 (us (1 / 10)) (us 10) .hot).when (fun v => tripFlt v || tripLatches v), (fReal 8 0 (us 2) .hot).when tripFlt,
   fOpt 12 2 7 (.cold .own), (fInt 13 1 0 100 .hot).when (fun v => v.u 12 1 != 0xFF)] ++
  (List.range 8).flatMap fieldsCmp ++ (List.range 4).flatMap fieldsDsf

/-! ## SENSE and CONVERTERS (Tables 7.7 to 7.10, R198 to R200) -/

def fldLsPresent (v : SecView) : Bool := v.bit 0 3
/-- Three currents are present. -/
def threeCurrents (v : SecView) : Bool := ([0, 1, 2] : List Nat).all fun k => v.u (36 + 12 * k) 1 != 0
def sarCurrents (v : SecView) : Bool := ([0, 1, 2] : List Nat).any fun k => v.u (36 + 12 * k) 1 == 1

/-- A channel entry (Table 7.10); voltages are absent or SAR, the DC link is required. -/
def fieldsChan (b : Nat) (current required : Bool) : List Field :=
  let used (v : SecView) : Bool := v.u b 1 != 0
  [fInt b 1 (if required then 1 else 0) (if current then 2 else 1) (.cold .own),
   ((fAny (b + 1) 1 (.cold .own)).with_ fun v w => if v.u b 1 = 2 then decide (w ≤ 15) else decide (w ≤ 6)).when used,
   ((fAny (b + 2) 1 (.cold .own)).with_ fun v w => if v.u b 1 = 2 then w == 0 else decide (w ≤ 19) && w != 15).when used,
   ((fReal (b + 4) (-100000) 100000 (.cold .own)).with_ fun v _ => decide (1 ≤ qabs (v.f (b + 4)))).when used,
   ((fNum (b + 8) (.cold .own)).with_ fun v w => if v.u b 1 = 2 then f32In (-1) 1 w else f32In 0 3 w).when used]
def fieldsSense : List Field :=
  [fBits 0 1 0 7 127 (.cold .own), fBits 0 1 7 1 0 (.cold .own), fInt 1 1 1 4 .hot, (fInt 2 1 1 16 .hot).when threeCurrents, fInt 3 1 1 16 .hot,
   fReal 4 (us (-5)) (us 20) (.cold .own), (fReal 8 0 (us 5) .hot).when sarCurrents, fReal 12 0 100 .hot,
   (fReal 16 1 1000 .hot).when threeCurrents, (fReal 20 1 1000 .hot).when fldLsPresent, (fReal 24 (us (1 / 2)) (us 5) .hot).when fldLsPresent,
   ((fReal 28 (-100000) 100000 .hot).with_ fun _ w => w % 2 ^ 31 != 0).when fldLsPresent, (fReal 32 0 3 .hot).when fldLsPresent] ++
  (List.range 3).flatMap (fun k => fieldsChan (36 + 12 * k) true false) ++ fieldsChan 72 false true ++
  (List.range 3).flatMap (fun k => fieldsChan (84 + 12 * k) false false)

/-- A clock entry is used when a used channel names it. -/
def dsClockUsed (v : SecView) (c : Nat) : Bool := (List.range 16).any fun k => dsClaimed v.s k && v.u (48 + 8 * k) 1 == c
def fieldsClock (c : Nat) : List Field :=
  let b := 16 + 8 * c
  let k := TackClass.cold (.clock c)
  [(fInt b 1 0 2 k).when (dsClockUsed · c), (fInt (b + 1) 1 4 64 k).when (fun v => dsClockUsed v c && v.u b 1 == 2),
   (fReal (b + 4) 1000000 25000000 k).when (fun v => dsClockUsed v c && v.u b 1 == 1)]
def fieldsDs (c : Nat) : List Field :=
  let b := 48 + 8 * c
  let k := TackClass.cold (.chan c)
  let used (v : SecView) : Bool := dsClaimed v.s c
  [(fInt b 1 0 3 k).when used, (fBits (b + 1) 1 0 2 3 k).when used, (fBits (b + 1) 1 2 6 0 k).when used, (fInt (b + 2) 2 16 256 k).when used,
   (fInt (b + 4) 1 8 32 k).when used, (fInt (b + 5) 1 16 255 k).when used]
def fieldsConverters : List Field :=
  [fReal 0 (1 / 2) (29 / 10) .hot, fReal 4 (1 / 10) (24 / 10) .hot, fReal 8 (ms (1 / 2)) (ms 20) .hot, fReal 12 (ms 5) (ms 100) .hot] ++
  (List.range 4).flatMap fieldsClock ++ (List.range 16).flatMap fieldsDs

/-! ## CONTROL (Table 8.4, R233, R234) -/

def ctlPi (v : SecView) : Bool := v.u 0 1 == 0
def ctlFw (v : SecView) : Bool := v.bit 2 1
def ctlGrouped (v : SecView) : Bool := axGroup v.s v.ax != 0
/-- The THERMAL section of the axis supplies a magnet temperature (MAG_MODE). -/
def magSupplied (v : SecView) : Bool := bitAt (cfgU v.s secThermal v.inst 0 1) 1
def fieldsControlHead : List Field :=
  [fInt 0 1 0 1 (.cold .own), fInt 1 1 0 2 .hot, fBits 2 1 0 4 15 .hot, fBits 2 1 4 4 0 .hot, fInt 3 1 0 2 (.cold .own), fInt 4 1 1 32 (.cold .own),
   fReal 8 (1 / 1000) 2 .hot, fReal 12 (us 1) (1 / 10) .hot, fReal 16 (us 1) (1 / 10) .hot, fReal 20 (1 / 10000) 10 .hot, fReal 24 0 (1 / 100) .hot,
   fReal 28 (-1 / 200) 0 .hot, (fReal 32 (23315 / 100) (47315 / 100) .hot).when (fun v => !magSupplied v),
   (fReal 36 (1 / 1000) 1000 .hot).when ctlPi, (fReal 40 0 10000000 .hot).when ctlPi, (fReal 44 (1 / 1000) 1000 .hot).when ctlPi,
   (fReal 48 0 10000000 .hot).when ctlPi, (fReal 52 (1 / 10) 1 .hot).when (fun v => v.u 0 1 == 1), (fReal 56 0 1000 .hot).when ctlGrouped,
   (fReal 60 0 10000000 .hot).when ctlGrouped, fReal 64 (1 / 2) (11027 / 10000) .hot, (fReal 68 (1 / 10) 1 .hot).when (fun v => v.u 1 1 != 0),
   (fReal 72 0 (1 / 5) .hot).when ctlFw, (fReal 76 1 100000 .hot).when ctlFw, fReal 80 1 5000 .hot, fReal 84 (1 / 10) 100000 .hot,
   fReal 88 0 100000000 .hot, fReal 92 0 100000000 .hot, fReal 96 1 10000000 .hot,
   (fReal 100 0 (13176795 / 2097152) (.cold .own)).when ctlGrouped,  -- 2π as binary32 holds it
   ((fNum 104 .hot).with_ fun _ w => match f32Value w with | some x => decide (x ≤ 100000) | none => false),
   fReal 108 (1 / 10000) 10 .hot, fReal 112 (1 / 10000) 10 .hot, (fReal 116 10 100000 .hot).when (·.bit 2 3), (fReal 120 (-1 / 2) 0 .hot).when (·.bit 2 3),
   (fReal 124 0 (1 / 2) .hot).when (·.bit 2 3), (fReal 128 (1 / 100) 10 .hot).when (·.bit 2 3), (fReal 132 (1 / 20) (1 / 2) .hot).when (·.bit 2 3),
   (fReal 136 0 10000 .hot).when (·.bit 2 2), (fReal 140 (1 / 10) 1000 .hot).when (·.bit 2 2)]
/-- COLMAX and TABLE: only column 31 is used without field weakening. -/
def fieldsControlTables : List Field :=
  (List.range 32).map (fun c => (fNum (144 + 4 * c) .hot).when fun v => c == 31 || ctlFw v) ++
  (List.range 1024).flatMap fun e =>
    let used (v : SecView) : Bool := e % 32 == 31 || ctlFw v
    let le (w : Nat) (p : Q → Bool) : Bool := match f32Value w with | some x => p x | none => false
    [((fNum (272 + 8 * e) .hot).with_ fun _ w => le w fun x => decide (x ≤ 0)).when used,
     ((fNum (276 + 8 * e) .hot).with_ fun _ w => le w fun x => decide (0 ≤ x)).when used]
def fieldsControl : List Field := fieldsControlHead ++ fieldsControlTables

/-! ## SENSORLESS (Table 10.4, R296, R297) -/

def fldObsEn (v : SecView) : Bool := v.bit 0 0
def fldHfEn (v : SecView) : Bool := v.bit 0 1
def fieldsSensorless : List Field :=
  [fBits 0 1 0 2 3 (.cold .own), fBits 0 1 2 2 3 .hot, fBits 0 1 4 4 0 .hot, (fInt 1 1 1 8 .hot).when fldHfEn, (fInt 2 1 1 64 .hot).when fldObsEn,
   (fReal 4 50 5000 .hot).when fldObsEn, (fReal 8 5 1000 .hot).when fldObsEn, (fReal 12 0 10000 .hot).when fldObsEn,
   ((fReal 16 0 100000 .hot).atLeast fun v => 6 / 5 * v.f 12).when fldObsEn, (fReal 20 1 200 .hot).when fldHfEn, (fReal 24 (1 / 20) 1 .hot).when fldObsEn,
   ((fReal 28 (1 / 100) 1 .hot).atMost (·.f 24)).when fldObsEn, (fReal 32 (1 / 20) (1 / 2) .hot).when fldObsEn, (fReal 36 (ms 2) (ms 200) .hot).when fldObsEn,
   fReal 40 1 100 .hot, fReal 44 0 10000 .hot, (fReal 48 (1 / 10) 600 .hot).when (fun v => !v.bit 0 2), fReal 52 (ms (1 / 10)) (ms (1 / 2)) .hot,
   (fReal 56 (1 / 20) 1 .hot).when fldHfEn]

/-! ## THERMAL (Tables 13.5, 13.6, R368) -/

/-- A sensor entry (Table 13.6). -/
def fieldsSensor (k : Nat) : List Field :=
  let b := 560 + 28 * k
  let c := TackClass.cold .own
  let used (v : SecView) : Bool := v.u b 1 != 0
  let kind (lo1 hi1 lo2 hi2 : Q) (v : SecView) (w : Nat) : Bool := if v.u b 1 = 1 then f32In lo1 hi1 w else f32In lo2 hi2 w
  [fInt b 1 0 2 c, (fInt (b + 1) 1 0 6 c).when used, (fInt (b + 2) 1 0 14 c).when used,
   ((fNum (b + 4) c).with_ (kind 10 10000000 (-1000) 1000)).when used, ((fNum (b + 8) c).with_ (kind 1000 10000 0 1000)).when used,
   ((fNum (b + 12) c).with_ (kind 10 10000000 0 0)).when used, (fReal (b + 16) (-50) 50 c).when used, (fReal (b + 20) 0 3 c).when used,
   ((fReal (b + 24) 0 3 c).atLeast fun v => v.f (b + 20) + 1 / 5).when used]
/-- A list of binary32 fields with an upper bound; what lies below it is a rule of R368. -/
def fieldsUpTo (off n : Nat) (hi : Q) : List Field :=
  (List.range n).map fun k => (fNum (off + 4 * k) .hot).with_ fun _ w => match f32Value w with | some x => decide (x ≤ lim hi) | none => false
def fieldsReals (off n step : Nat) (lo hi : Q) : List Field := (List.range n).map fun k => fReal (off + step * k) lo hi .hot
def fieldsThermal : List Field :=
  [fBits 0 1 0 2 3 .hot, fBits 0 1 2 6 0 .hot, fInt 1 1 0 3 .hot, fInt 2 1 0 3 .hot] ++
  fieldsReals 4 8 4 (27315 / 100) (52315 / 100) ++ fieldsReals 36 4 4 (27315 / 100) (42315 / 100) ++
  [fReal 52 1 20 .hot, fReal 56 (21315 / 100) (29315 / 100) .hot, fReal 60 (21315 / 100) (29315 / 100) .hot, fReal 64 2000 100000 .hot] ++
  (List.range 4).flatMap (fun k => [fNum (68 + 8 * k) .hot, fReal (72 + 8 * k) (1 / 10) 1 .hot]) ++
  [fReal 100 0 5000 .hot, fReal 104 (27315 / 100) (42315 / 100) .hot, (fReal 108 0 2000 .hot).when (fun v => v.u 2 1 != 0), fReal 112 (1 / 1000) 10 .hot,
   fReal 116 1 10000 .hot, (fReal 120 0 1 .hot).when (·.bit 0 1), (fReal 124 1 10000 .hot).when (·.bit 0 1)] ++
  (List.range 8).flatMap (fun k => [fReal (128 + 8 * k) 0 10 .hot, fReal (132 + 8 * k) (1 / 100000) 100 .hot]) ++
  fieldsReals 192 8 4 0 10000 ++ fieldsUpTo 224 32 20 ++ fieldsUpTo 352 48 10 ++
  [fReal 544 10 3000 .hot, fReal 548 (1 / 2) 2 .hot, fReal 552 (22315 / 100) (47315 / 100) .hot, fReal 556 (22315 / 100) (52315 / 100) .hot] ++
  (List.range 3).flatMap fieldsSensor ++ fieldsReals 644 3 4 0 1 ++ fieldsReals 656 3 4 (1 / 10) 1 ++
  [fReal 668 0 5 .hot, fReal 672 0 60 .hot, fReal 676 0 600 .hot]

/-! ## PROFILE (Table 12.3, R345) -/

/-- The axis has a primary position interface (R237, R260). -/
def axHasPrimary (v : SecView) : Bool := (ifcOf v.s v.ax 0).isSome
def fieldsProfile : List Field :=
  [fBits 0 1 0 2 3 .hot, fBits 0 1 2 6 0 .hot, fReal 4 (1 / 10) 10000 .hot, fReal 8 (1 / 10) 100000 .hot, fReal 12 (1 / 10) 100000 .hot,
   fReal 16 1 10000000 .hot, (fReal 20 1 10000000 .hot).when (·.bit 0 0), (fReal 24 1 1000000000 .hot).when (·.bit 0 0), fReal 28 0 10000 .hot,
   fReal 32 0 1000000 .hot, (fReal 36 0 10000 .hot).when (·.bit 0 1), (fReal 40 (1 / 10) 1000 .hot).when axHasPrimary,
   (fReal 44 (1 / 10000) 10 .hot).when axHasPrimary, (fReal 48 0 1 .hot).when axHasPrimary, (fReal 52 (1 / 100) 1000 .hot).when axHasPrimary]

end Sys2Proof.Machine
end

