-- ==== Sys2Proof/Machine/FieldsUnits.lean ====
section
/-! DEFINITION. The fields of the configuration sections of the interfaces, safety, auxiliary channel, networks and contexts
(R86, R92, R96). -/
namespace Sys2Proof.Machine
open Sys2Proof

/-! ## POSITION (Table 9.6, R267) -/

def posOn (v : SecView) : Bool := v.u 0 1 != 0
def posM (l : List Nat) (v : SecView) : Bool := l.contains (v.u 0 1)
/-- The interface is primary and its axis has a secondary, an interface or the observer (R260, R267). -/
def posCrossChecked (v : SecView) : Bool := v.u 1 1 == 0 && secondaryOf v.s (Fin.ofNat 4 (v.u 2 1)) != 0
/-- Fields of an interface that is on. -/
def fieldsPositionOn : List Field :=
  let c := TackClass.cold .ifc
  [fInt 1 1 0 2 c, fInt 2 1 0 3 c, fBits 3 1 0 1 1 c, fBits 3 1 1 1 1 .hot, (fBits 3 1 2 2 2 c).when (posM [1, 2]), fBits 3 1 4 1 1 c,
   (fBits 3 1 5 2 3 c).when (posM [3]), fBits 3 1 7 1 0 c, fInt 4 4 1 (2 ^ 31) c,
   ((fAny 8 4 .hot).with_ fun v w => decide (w < v.u 4 4)).when (·.bit 3 4), (fAny 12 1 .hot).when (·.bit 3 4), (fInt 13 1 1 64 .hot).when (posM [2, 4]),
   (fInt 14 1 0 3 .hot).when (posM [1, 2]), (fInt 15 1 0 1 c).when (posM [4]), (fInt 16 1 1 16 c).when (posM [4]), (fInt 17 1 8 48 c).when (posM [3]),
   (fInt 18 1 8 31 c).when (posM [3]), ((fAny 19 1 c).with_ fun v w => decide (w + v.u 18 1 ≤ v.u 17 1)).when (posM [3]),
   (fOpt 20 0 47 c).when (posM [3]), fInt 21 1 1 16 .hot, fInt 22 1 1 16 .hot, (fInt 23 1 0x10 0x1B c).when (posM [2, 3]), fAny 24 2 .hot,
   fOpt 26 0 3 c, (fInt 27 1 1 3 .hot).when (fun v => v.u 26 1 != 0xFF), (fReal 28 100000 10000000 c).when (posM [3]),
   (fReal 32 0 (us 1) .hot).when (posM [3]), ((fInt 36 4 1 (2 ^ 31) .hot).with_ fun v w => decide (2 * w ≤ v.u 4 4)).when (posM [3]),
   (fReal 40 (1 / 20) (3 / 2) .hot).when (posM [2, 4]), ((fReal 44 0 (3 / 2) .hot).atLeast (·.f 40)).when (posM [2, 4]),
   (fReal 48 2000 20000 c).when (posM [4]), (fReal 52 (1 / 10) (6 / 5) .hot).when (posM [4]),
   ((fReal 56 0 1 .hot).atMost fun v => 1 / (2 * v.f 48)).when (posM [4]), (fReal 60 10 5000 .hot).when (posM [2, 4]),
   (fReal 64 (us 1) (ms 10) .hot).when (posM [1]), (fReal 68 (ms 1) 1 .hot).when (posM [1]), fReal 72 0 (1 / 10) .hot,
   (fReal 76 (1 / 100) 1 .hot).when posCrossChecked, (fReal 80 (ms 1) 1 .hot).when posCrossChecked, (fInt 84 1 0 6 c).when (posM [2, 4]),
   (fInt 85 1 0 6 c).when (posM [2, 4]), (fInt 86 1 16 19 c).when (posM [2, 4]), (fInt 87 1 16 19 c).when (posM [4]),
   ((fAny 88 4 .hot).with_ fun v w => decide (w < v.u 4 4)).when (fun v => v.u 26 1 != 0xFF),
   (fReal 92 0 (us 10) .hot).when (fun v => v.u 26 1 != 0xFF), fOpt 96 0 1 c, (fInt 100 2 1 65535 .hot).when (fun v => v.u 96 1 != 0xFF),
   ((fInt 102 2 1 65535 .hot).with_ fun v w => decide (v.u 100 2 ≤ w)).when (fun v => v.u 96 1 != 0xFF)]
def fieldsPosition : List Field := fInt 0 1 0 4 (.cold .ifc) :: fieldsPositionOn.map fun f => f.when posOn

/-! ## AUX (Table 12.4, R346) -/

def auxM (l : List Nat) (v : SecView) : Bool := l.contains (v.u 0 1)
def fieldsAuxOn : List Field :=
  let c := TackClass.cold .auxiliary
  [(fBits 1 1 0 2 3 c).when (auxM [1]), fBits 1 1 2 6 0 c, (fInt 2 1 0 8 c).when (auxM [1]), fInt 3 1 0 16 .hot, fInt 4 1 0 19 c,
   (fOpt 5 0 19 c).when (auxM [1, 3]), fOpt 6 0 3 c, (fInt 7 1 1 3 .hot).when (fun v => v.u 6 1 != 0xFF), fReal 8 (us 1) (us 64) .hot,
   fReal 12 (us (1 / 4)) (us 4) .hot, fReal 16 (us (1 / 10)) (us 2) .hot, fReal 20 (1 / 100) 1000 .hot, fReal 24 (1 / 100) 50 .hot, fReal 28 0 50 .hot,
   (fReal 32 0 100 .hot).atLeast (·.f 24), fReal 36 0 10 .hot, { fReal 40 0 3600 .hot with ok := fun _ w => w == 0 || f32In (1 / 10) 3600 w },
   (fReal 44 1 1000000 .hot).when (auxM [1]), (fReal 48 1 100000000 .hot).when (auxM [1]), (fReal 52 0 1 .hot).when (auxM [3]), fAny 56 4 .hot,
   fReal 60 0 2 .hot, (fAny 64 4 .hot).when (fun v => v.u 6 1 != 0xFF), fReal 68 (us 10) (ms 10) .hot]
def fieldsAux : List Field := fInt 0 1 0 3 (.cold .auxiliary) :: fieldsAuxOn.map fun f => f.when posOn

/-! ## SAFETY (Tables 15.7, 15.8, R434, R435) -/

/-- Some SAFE_IN function in use satisfies a condition on its entry and names the axis. -/
def siFor (s : State) (n : Nat) (p : Nat → Bool) : Bool :=
  (List.range 8).any fun f => cfgU s secSafeIn 0 (32 + 16 * f) 1 != 0 && bitAt (cfgU s secSafeIn 0 (34 + 16 * f) 1) n && p f
/-- A SAFE_IN function can request SLS on the axis: RESULT SLS, or the jog mode of a guard door (Table 16.1). -/
def slsPossible (s : State) (n : Nat) : Bool :=
  siFor s n fun f => cfgU s secSafeIn 0 (33 + 16 * f) 1 == 2 || (cfgU s secSafeIn 0 (32 + 16 * f) 1 == 2 && cfgU s secSafeIn 0 (39 + 16 * f) 1 != 0xFF)
/-- The entry of an axis is used: present and enabled. -/
def safetyUsed (n : Fin 4) (v : SecView) : Bool := axEnabled v.s n
/-- A discharge is configured. -/
def dischUsed (v : SecView) : Bool := v.bit 0 0 || (([0, 1, 2, 3] : List (Fin 4)).any fun n => safetyUsed n v && v.bit (35 + 64 * n.val) 3)
def fieldsSafetyAxis (n : Fin 4) : List Field :=
  let b := 32 + 64 * n.val
  let c := TackClass.cold (.axis n.val)
  let sls (v : SecView) : Bool := v.bit (b + 3) 0 || slsPossible v.s n.val
  let sdi (v : SecView) : Bool := v.bit (b + 3) 1 || v.bit (b + 3) 2
  let pos (v : SecView) : Bool := v.u (b + 1) 1 != 0xFF
  let brake (v : SecView) : Bool := v.u (b + 2) 1 != 0xFF
  [fInt b 1 0 1 .hot, fOpt (b + 1) 0 3 c, fOpt (b + 2) 2 3 c, fBits (b + 3) 1 0 4 15 .hot, fBits (b + 3) 1 4 4 0 .hot, fReal (b + 4) (1 / 20) 60 .hot,
   fReal (b + 8) (1 / 20) 1 .hot, (fReal (b + 12) (1 / 10) 10000 .hot).when (fun v => v.u b 1 == 0), fReal (b + 16) (1 / 10) 50 .hot,
   (fReal (b + 20) (1 / 10) 10000 .hot).when sls, (fReal (b + 24) (1 / 100) 100 .hot).when sdi, (fReal (b + 28) 1 10000 .hot).when pos,
   fReal (b + 32) (1 / 1000) 2 .hot, fReal (b + 36) (us 1) (1 / 10) .hot, fReal (b + 40) (us 1) (1 / 10) .hot, fReal (b + 44) (1 / 10000) 10 .hot,
   (fReal (b + 48) 0 2 .hot).when brake, (fReal (b + 52) 0 2 .hot).when brake, (fReal (b + 56) 1 5000 .hot).when (·.bit (b + 3) 3),
   (fAny (b + 60) 2 .hot).when pos, fInt (b + 62) 1 1 32 c].map fun f => f.when (safetyUsed n)
def fieldsSafety : List Field :=
  [fBits 0 1 0 3 7 (.cold .all), fBits 0 1 3 5 0 (.cold .all), fInt 1 1 1 40 .hot, fInt 2 1 36 37 (.cold .all), fReal 4 0 200 .hot,
   fReal 8 (1 / 50) (1 / 2) .hot, fReal 12 (1 / 20) (1 / 2) .hot, (fReal 16 (1 / 10) 60 .hot).when dischUsed, (fReal 20 0 1000 .hot).when dischUsed] ++
  ([0, 1, 2, 3] : List (Fin 4)).flatMap fieldsSafetyAxis

/-! ## SAFE_IN and SAFE_OUT (Tables 16.3 to 16.5) -/

def tpUsed (v : SecView) : Bool := v.u 0 1 != 0
def fieldsSiFn (f : Nat) : List Field :=
  let b := 32 + 16 * f
  let c := TackClass.cold .safeIn
  let used (v : SecView) : Bool := v.u b 1 != 0
  [fInt b 1 0 4 c, (fInt (b + 1) 1 0 2 c).when used, (fBits (b + 2) 1 0 4 15 c).when used, (fBits (b + 2) 1 4 4 0 c).when used,
   (fBits (b + 3) 1 0 4 15 c).when used, (fBits (b + 3) 1 4 4 0 c).when used] ++
  (List.range 4).map (fun k => (fOpt (b + 4 + k) 0 15 c).when used) ++
  [(fReal (b + 8) (us 20) (ms 1) .hot).when used, (fReal (b + 12) (ms 10) (ms 500) .hot).when used]
def fieldsSafeIn : List Field :=
  let c := TackClass.cold .safeIn
  [fBits 0 1 0 4 15 c, fBits 0 1 4 4 0 c, (fReal 4 (us 50) (ms 1) .hot).when tpUsed, (fReal 8 (ms 10) 1 .hot).when tpUsed] ++
  (List.range 16).map (fun n => (fBits (12 + n / 2) 1 (4 * (n % 2)) 4 4 c).when tpUsed) ++ (List.range 8).flatMap fieldsSiFn

def fieldsSo (k : Nat) : List Field :=
  let b := 12 * k
  let c := TackClass.cold (.safeOut k)
  let used (v : SecView) : Bool := v.u b 1 != 0
  [{ fInt b 1 0 3 c with ok := fun _ w => if k < 2 then w == 1 else w == 0 || w == 2 || w == 3 }, (fBits (b + 1) 1 0 1 1 c).when used,
   (fBits (b + 1) 1 1 7 0 c).when used, (fReal (b + 4) (us 100) (us 500) .hot).when used, (fReal (b + 8) (ms (1 / 10)) (ms 10) .hot).when used]
def fieldsSafeOut : List Field := (List.range 4).flatMap fieldsSo

/-! ## CAN (Tables 17.2, 17.10, 17.11, R481, R483) -/

def hdrFd (v : SecView) : Bool := v.bit 0 0
def hdrXl (v : SecView) : Bool := v.bit 0 1
def hdrTms (v : SecView) : Bool := v.bit 0 3
def fieldsCanHead : List Field :=
  let bounded (off size lo hi lim_ : Nat) : Field := (fInt off size lo hi .boot).with_ fun v w => decide (w ≤ v.u lim_ 1)
  [fBits 0 1 0 7 127 .boot, fBits 0 1 7 1 0 .boot, { fAny 1 1 .hot with ok := fun _ w => w == 0 || w == 2 || w == 3 }, fInt 2 2 0 256 .hot,
   fInt 4 1 1 32 .boot, fInt 5 1 1 128 .boot, fInt 6 2 2 256 .boot, bounded 8 1 1 128 5, (fInt 9 1 1 8 .boot).when hdrFd, (fInt 10 1 1 64 .boot).when hdrFd,
   (fInt 11 1 1 32 .boot).when hdrFd, (bounded 12 1 1 32 11).when hdrFd, (fInt 13 1 0 127 .boot).when hdrFd, (fInt 14 1 1 8 .boot).when hdrXl,
   (fInt 15 1 1 64 .boot).when hdrXl, (fInt 16 1 1 32 .boot).when hdrXl, (bounded 17 1 1 32 16).when hdrXl, (fInt 18 1 0 127 .boot).when hdrXl,
   (fInt 19 1 1 63 .boot).when hdrTms, (fInt 20 1 1 63 .boot).when hdrTms, (fInt 21 1 0 63 .boot).when hdrTms, fInt 22 1 0 128 .hot, fInt 23 1 0 64 .hot,
   fInt 24 1 0 64 .hot, fInt 25 1 0 64 .hot, fBits 26 1 4 4 0 .hot, (fBits 26 1 0 1 1 .hot).when (fun v => v.u 24 1 != 0),
   (fBits 26 1 1 1 1 .hot).when (fun v => v.u 25 1 != 0), (fBits 26 1 2 1 1 .hot).when (fun v => v.u 24 1 != 0),
   (fBits 26 1 3 1 1 .hot).when (fun v => v.u 25 1 != 0), fInt 27 1 1 15 .hot, fInt 28 2 0 1008 .boot, fInt 30 2 0 1017 .boot,
   (fInt 32 2 0 1023 .boot).when (fun v => v.u 24 1 != 0), (fInt 34 2 0 1023 .boot).when (fun v => v.u 25 1 != 0), fBits 36 4 0 29 (2 ^ 29 - 1) .hot,
   fBits 36 4 29 2 0 .hot, fBits 36 4 31 1 1 .hot, fInt 40 1 1 8 .hot]
/-- The bits of a filter entry that a table gives: match in range, reserved bits 0 (Table 17.7). An entry that serves as the data
of an XL_AF entry holds anything (R466). -/
def filterBitsOk (v : SecView) (std : Bool) (k : Nat) : Bool :=
  let b := if std then 64 + 8 * k else 1088 + 12 * k
  let w0 := v.u b 4
  let data := std && k != 0 && bitAt (v.u (b - 8) 4) 26
  data || (decide (bitsOf w0 24 2 ≤ 2) && (if std then bitsOf w0 11 5 == 0 && bitsOf (v.u (b + 4) 4) 11 21 == 0
    else bitsOf w0 0 16 == 0 && !bitAt w0 26 && bitsOf (v.u (b + 4) 4) 29 3 == 0 && bitsOf (v.u (b + 8) 4) 29 3 == 0))
/-- A standard and an extended filter entry are used below their counts. -/
def fieldsFilters : List Field :=
  (List.range 128).map (fun k => ((fAny (64 + 8 * k) 8 .hot).with_ fun v _ => filterBitsOk v true k).when fun v => decide (k < v.u 22 1)) ++
  (List.range 64).map fun k => ((fAny (1088 + 12 * k) 12 .hot).with_ fun v _ => filterBitsOk v false k).when fun v => decide (k < v.u 23 1)
def fieldsBuf (k : Nat) : List Field :=
  let b := 1856 + 16 * k
  let used (v : SecView) : Bool := v.u b 1 != 0
  [fInt b 1 0 2 .hot, ((fInt (b + 1) 1 0 4 .hot).with_ fun v w => v.u b 1 == 1 || w == 0 || w == 4).when used, (fBits (b + 2) 1 0 4 15 .hot).when used,
   (fBits (b + 2) 1 4 4 0 .hot).when used, (fBits (b + 3) 1 0 4 15 .hot).when used, (fBits (b + 3) 1 4 2 0 .hot).when used,
   (fBits (b + 3) 1 6 2 1 .hot).when used, (fBits (b + 4) 4 0 29 (2 ^ 29 - 1) .hot).when used, (fBits (b + 4) 4 29 2 0 .hot).when used,
   (fBits (b + 4) 4 31 1 1 .hot).when used, (fInt (b + 8) 2 0 2047 .hot).when used, (fInt (b + 10) 2 0 2048 .hot).when used,
   (fInt (b + 12) 4 0 (2 ^ 31) .hot).when used]
def fieldsCan : List Field := fieldsCanHead ++ fieldsFilters ++ (List.range 256).flatMap fieldsBuf

/-! ## RING (Tables 18.4, 18.5, 18.8, R506) -/

def fieldsRingGroup (g : Nat) : List Field :=
  let b := 32 + 32 * g
  let c := TackClass.cold (.ringGroup g)
  let used (v : SecView) : Bool := v.u b 1 != 0xFF
  [fOpt b 0 3 c] ++ ([fInt (b + 1) 1 0 3 c, fAny (b + 2) 1 c, fReal (b + 4) (1 / 100) 100 .hot, fReal (b + 8) (ms 1) 1 .hot, fReal (b + 12) 0 1000 .hot,
   fReal (b + 16) 0 10000000 .hot, fReal (b + 20) (ms (1 / 10)) (ms 10) .hot, (fReal (b + 24) 0 (us 500) c).atMost (·.f 4)].map fun f => f.when used)
def fieldsRing : List Field :=
  [fBits 0 1 0 1 1 .boot, fBits 0 1 1 7 0 .boot, fInt 1 1 2 8 .boot, fReal 4 (us 10) (us 500) (.cold .ringAxes)] ++
  (List.range 4).flatMap fieldsRingGroup ++
  (List.range 8).flatMap fun k => [fAny (160 + 12 * k) 8 .boot, (fAny (168 + 12 * k) 1 .boot).when fun v => v.u (160 + 12 * k) 8 != 0]

/-! ## CONTEXTS (Tables 11.7, 11.8, R318) -/

/-- LOCAL and SRAM of a kind in units of 64 bytes (Table 11.1). -/
def ctxNeeds (kind : Nat) : Nat × Nat :=
  match kind with
  | 1 => (192, 2) | 2 => (4, 1) | 3 => (16, 2) | 4 => (16, 2) | 5 => (32, 16) | 6 => (16, 2) | 7 => (64, 64) | 8 => (32, 16) | 9 => (8, 1) | 10 => (16, 2)
  | _ => (0, 0)
/-- The fabric requester of an ARB entry is present (Table 11.6). -/
def arbPresent (s : State) (k : Nat) : Bool := k != 7 || unitPresent s 14 || unitPresent s 15
/-- The update interval of an axis from its PWM fields (R204). -/
def tuField (s : State) (n : Fin 4) : Q := (if pwmU s n 1 1 = 3 then 1 / 2 else 1) * pwmF s n 4
/-- The default deadline of a context (Table 11.1): that of a CURRENT_LOOP is its update interval. -/
def ctxDeadline (v : SecView) (b : Nat) : Q :=
  let n : Fin 4 := Fin.ofNat 4 (v.u (b + 1) 1)
  match v.u b 1 with
  | 1 | 2 => tuField v.s n
  | 3 | 10 => tuField v.s n / 2
  | 4 | 7 => us 100
  | 5 => ms 1
  | 6 => us (16 / 10)
  | 8 | 9 => (v.u (b + 3) 1 : Q) * pwmF v.s n 4
  | _ => 0
def fieldsCtx (k : Nat) : List Field :=
  let b := 48 + 16 * k
  let used (v : SecView) : Bool := v.u b 1 != 0
  let div (v : SecView) : Bool := v.u b 1 == 8 || v.u b 1 == 9
  [(fInt b 1 0 10 .hot).with_ (fun v w => w != 0 || (slice v.body b 16).all (· == 0)), (fInt (b + 1) 1 0 3 .hot).when used, (fOpt (b + 2) 0 3 .hot).when used,
   ((fInt (b + 3) 1 1 64 .hot).with_ fun v w => div v || w == 1).when used,
   ((fReal (b + 4) 0 (ms 10) .hot).atLeast fun v => lim (ctxDeadline v b)).when used,
   ((fAny (b + 8) 2 .hot).with_ fun v w => decide ((ctxNeeds (v.u b 1)).1 ≤ w)).when used,
   ((fAny (b + 10) 2 .hot).with_ fun v w => decide ((ctxNeeds (v.u b 1)).2 ≤ w)).when used,
   (fInt (b + 12) 1 1 8 .hot).when fun v => v.u b 1 == 9]
def fieldsContexts : List Field :=
  [fBits 0 1 0 2 0 (.cold .all), fBits 0 1 2 6 63 (.cold .all)] ++
  (List.range 4).map (fun n => (fBits 1 1 (2 * n) 2 3 .hot)) ++ [fReal 4 (us 1) (ms 1) .hot] ++
  (List.range 12).flatMap (fun k => [(fInt (8 + 2 * k) 1 0 3 .hot).when fun v => arbPresent v.s k, (fInt (9 + 2 * k) 1 1 64 .hot).when fun v => arbPresent v.s k]) ++
  (List.range 128).flatMap fieldsCtx

/-! ## The section catalogue -/

/-- The fields of a section; OWNERSHIP is handled by its entries (R106). -/
def fieldsOf (id : Nat) : List Field :=
  if id = secSystem then fieldsSystem else if id = secHost then fieldsHost else if id = secLimits then fieldsLimits
  else if id = secOdometry then fieldsOdometry else if id = secSecurity then fieldsSecurity else if id = secLog then fieldsLog
  else if id = secPwm then fieldsPwm else if id = secTrip then fieldsTrip else if id = secSense then fieldsSense
  else if id = secControl then fieldsControl else if id = secPosition then fieldsPosition else if id = secSensorless then fieldsSensorless
  else if id = secThermal then fieldsThermal else if id = secProfile then fieldsProfile else if id = secConverters then fieldsConverters
  else if id = secSafety then fieldsSafety else if id = secSafeIn then fieldsSafeIn else if id = secSafeOut then fieldsSafeOut
  else if id = secAux then fieldsAux else if id = secCan then fieldsCan else if id = secRing then fieldsRing
  else if id = secContexts then fieldsContexts else []

/-- The section has one instance per axis (Table 4.4). -/
def axisSection (id : Nat) : Bool := [secPwm, secTrip, secSense, secControl, secSensorless, secThermal, secProfile].contains id
/-- Instances 0 to 3 exist of the axis, interface and controller sections, instance 0 of the others. -/
def instanceOk (id inst : Nat) : Bool := if axisSection id || id == secPosition || id == secCan then decide (inst < 4) else inst == 0

/-- The fields of a section are used at all: those of an axis section while its axis is enabled (R146, R435). -/
def sectionUsed (s : State) (x : Section) : Bool := if axisSection x.id then axEnabled s (Fin.ofNat 4 x.inst) else true

end Sys2Proof.Machine
end

