-- ==== Sys2Proof/Machine/LoadRules.lean ====
section
/-! DEFINITION. Check 6 of Table 4.5 for the system sections and those of an axis: the rules of the owning chapters, each answered
as the byte offsets of the fields that break it (R90). -/
namespace Sys2Proof.Machine
open Sys2Proof

/-- A section of the set under check. -/
def secView (s : State) (id inst : Nat) : SecView := ⟨s, inst, cfgBody s id inst⟩
/-- The enabled axes. -/
def enAxes (s : State) : List (Fin 4) := allAxes.filter (axEnabled s)
/-- An offset where a rule is broken. -/
def breaks (b : Bool) (off : Nat) : List Nat := if b then [off] else []

/-! ## System sections -/

/-- R93: a group holds 2, 3 or 4 enabled axes and no disabled one. -/
def rulesSystem (v : SecView) : List Nat :=
  let grp (n : Nat) : Nat := bitsOf (v.u 8 4) (4 * n) 4
  let bad (g : Nat) : Bool :=
    let m := (List.range 4).filter fun n => grp n == g
    !m.isEmpty && (m.length == 1 || m.any fun n => !axEnabled v.s (Fin.ofNat 4 n))
  breaks (v.bit 0 1 && !cfgHas v.s secRing 0) 0 ++ breaks (bad 1 || bad 2) 8

/-- R94: the controller has a section, the identifiers are distinct and standard ones fit 11 bits. -/
def rulesHost (v : SecView) : List Nat :=
  if v.u 2 1 = 0xFF then [] else
  let ids : List Nat := [4, 8, 12, 16]
  breaks (!cfgHas v.s secCan (v.u 2 1)) 2 ++
  ids.filter fun o => (!bitAt (v.u o 4) 31 && decide (0x7FF < v.u o 4)) || ids.any fun p => decide (p < o) && v.u p 4 == v.u o 4

/-- R543: the authorisation key. -/
def rulesSecurity (v : SecView) : List Nat :=
  let fused := v.s.sec.fuses.authKeyHash
  breaks (fused != List.replicate 32 0 && sha256 (slice v.body 72 64) != fused) 72

/-- R543: the log region clears the stored images and certificates, fits its chip select, and is whole sectors. -/
def rulesLog (v : SecView) : List Nat :=
  breaks (v.u 0 1 == 0 && v.u 1 1 == 0 && decide (v.u 4 4 < 0x00882000)) 4 ++
  breaks (decide (0x10000000 < v.u 4 4 + v.u 8 4) || (v.u 12 4 != 0 && v.u 8 4 % v.u 12 4 != 0)) 8

/-- R543: DIST_AXIS is enabled and has a ratio. -/
def rulesOdometry (v : SecView) : List Nat :=
  let d := v.u 16 1
  breaks (decide (d < 4) && (!axEnabled v.s (Fin.ofNat 4 d) || v.u (4 * d) 4 == 0)) 16

/-! ## PWM (R118, R121, R127, R145) -/

/-- The axis that SYNC names. -/
def syncAxis (s : State) (n : Fin 4) : Option (Fin 4) := let y := pwmU s n 2 1; if 1 ≤ y ∧ y ≤ 4 then some (Fin.ofNat 4 (y - 1)) else none
/-- SYNC leads to a disabled axis or around a cycle; `fuel` exceeds the number of axes. -/
def syncBroken (s : State) : Nat → Fin 4 → Bool
  | 0, _ => true
  | fuel + 1, n => match syncAxis s n with | none => false | some m => !axEnabled s m || syncBroken s fuel m

def rulesPwm (v : SecView) : List Nat :=
  let s := v.s
  let n := v.ax
  let l := axLeader s n
  let per := v.f 4
  let legs : List Nat := [0, 1, 2]
  let source := (enAxes s).any fun m => m != n && syncAxis s m == some n
  breaks (l != n && pwmU s l 0 1 != v.u 0 1) 0 ++ breaks (l != n && pwmU s l 1 1 != v.u 1 1) 1 ++
  breaks (syncBroken s 5 n || (v.u 2 1 == 5 && !cfgRing s)) 2 ++ breaks (l != n && pwmU s l 4 4 != v.u 4 4) 4 ++
  breaks ((source || (syncAxis s n).isSome) && v.f 8 != per) 8 ++
  breaks (l != n && v.f 12 != 0 && !(v.f 12 == per / 2 && v.u 1 1 == 3)) 12 ++
  legs.flatMap fun k =>
    breaks (decide (v.f (20 + 8 * k) < v.f 16) || decide (per / 2 ≤ v.f (20 + 8 * k) + v.f (24 + 8 * k) + 2 * v.f 44)) (20 + 8 * k) ++
    breaks (decide (v.f (24 + 8 * k) < v.f 16)) (24 + 8 * k)

/-! ## TRIP (R172) -/

def rulesTrip (v : SecView) : List Nat :=
  let first := (enAxes v.s).headD 0
  breaks (bitsOf (v.u 0 1) 0 2 == 2 && axGroup v.s v.ax == 0) 0 ++ breaks (v.u 12 1 != cfgU v.s secTrip first.val 12 1) 12 ++
  ((List.range (min 4 (v.u 3 1))).filter fun k => !bitAt (cfgU v.s secConverters 0 (49 + 8 * v.u (112 + 12 * k) 1) 1) 1).map (112 + 12 * ·)

/-! ## SENSE (R180, R199) -/

/-- The trigger code of a claimed slot. -/
def slotCode (s : State) (conv slot : Nat) : Option Nat := (ownerOf s (resSarSlot conv slot)).map (·.select / 256)
/-- A trigger code names the carrier that drives an axis: the member's codes and the leader's name the same events (R176). -/
def codeCarrier (s : State) (n : Fin 4) (code : Nat) : Bool :=
  decide (0x10 ≤ code) && decide (code ≤ 0x1B) && (let m : Fin 4 := Fin.ofNat 4 (code % 4); m == n || (axGroup s n != 0 && axGroup s m == axGroup s n))
/-- Events per second of a trigger code; none for one that is not periodic (R180). -/
def codeRate (s : State) (code : Nat) : Q :=
  let inv (x : Q) : Q := if x = 0 then 0 else 1 / x
  if 0x10 ≤ code ∧ code ≤ 0x1B then (if 0x18 ≤ code then 2 else 1) * inv (pwmF s (Fin.ofNat 4 (code % 4)) 4)
  else if 0x40 ≤ code ∧ code ≤ 0x43 then
    match allAxes.find? fun i => posMode s i == 4 && posU s i 15 1 == code % 2 with
    | some i => posF s i 48
    | none => 0
  else 0
/-- R180: the injected occupancy of a converter. -/
def occupancy (s : State) (conv : Nat) : Q :=
  let codes := ([16, 17, 18, 19].filterMap (slotCode s conv)).eraseDups
  (codes.map fun c => ((injectedSlots s conv c).length * (1 / 4000000 : Q) + 1 / 20000000) * codeRate s c).sum
def overOccupied (s : State) (conv : Nat) : Bool := decide (1 / 2 < occupancy s conv)

def rulesSense (v : SecView) : List Nat :=
  let s := v.s
  let n := v.ax
  let per := pwmF s n 4
  let used := ([36, 48, 60] : List Nat).filter fun b => v.u b 1 != 0
  let kind (b : Nat) : Nat := v.u b 1
  let sars := used.filter fun b => kind b == 1
  let code (b : Nat) : Option Nat := slotCode s (v.u (b + 1) 1) (v.u (b + 2) 1)
  let code0 := (sars.head?.bind code)
  let reload := match code0 with | some c => codeCarrier s n c && c / 4 == (match pwmU s n 1 1 with | 1 => 4 | 2 => 5 | _ => 6) | none => true
  breaks (decide (used.length < 2)) 36 ++ breaks (decide (per / 4 < qabs (v.f 4))) 4 ++
  (used.filter fun b => used.any fun a => decide (a < b) && kind a != kind b) ++
  ((sars.filter fun b => sars.any fun a => decide (a < b) && v.u (a + 1) 1 == v.u (b + 1) 1).map (· + 1)) ++
  ((sars.filter fun b => decide (v.u (b + 2) 1 < 16) || ((code b).isSome && code b != code0)).map (· + 2)) ++
  ((sars.take 1).flatMap fun b => breaks (!reload) (b + 2)) ++
  ((used.filter fun b => kind b == 2 && decide (per / 2 < 3 * (cfgU s secConverters 0 (50 + 8 * v.u (b + 1) 1) 2 : Q) / dsRate s (v.u (b + 1) 1))).map (· + 1)) ++
  breaks (decide (16 ≤ v.u 74 1) && (code 72).isSome && code0.isSome && code 72 != code0) 74 ++
  ((sars ++ breaks (decide (16 ≤ v.u 74 1)) 72).filter fun b => overOccupied s (v.u (b + 1) 1)).map (· + 2)

/-! ## CONTROL (R228, R233) -/

/-- Some CAN section assigns the torque message of the axis: a buffer entry with ROLE 1 that names it. -/
def torqueAssigned (s : State) (n : Fin 4) : Bool :=
  allAxes.any fun c => cfgHas s secCan c.val && (List.range 256).any fun b =>
    let e := 1856 + 16 * b
    cfgU s secCan c.val e 1 != 0 && bitsOf (cfgU s secCan c.val (e + 3) 1) 6 2 == 1 && bitAt (cfgU s secCan c.val (e + 3) 1) n.val

def rulesControl (v : SecView) : List Nat :=
  let s := v.s
  let n := v.ax
  let l := axLeader s n
  let lead (off size : Nat) : Nat := cfgU s secControl l.val off size
  let col (c : Nat) : Bool := c == 31 || ctlFw v
  let others := (axMembers s n).filter fun m => decide (m < n)
  let iq (r c : Nat) : Q := v.f (276 + 8 * (32 * r + c))
  let cols := (List.range 32).filter col
  breaks (lead 0 1 != v.u 0 1) 0 ++ breaks (lead 1 1 != v.u 1 1) 1 ++
  breaks (lead 3 1 != v.u 3 1 || (v.u 3 1 == 1 && !torqueAssigned s n) || (v.u 3 1 == 2 && !cfgRing s)) 3 ++ breaks (lead 4 1 != v.u 4 1) 4 ++
  breaks (v.u 1 1 != 0 && decide (v.f 64 < v.f 68)) 64 ++
  breaks (axGroup s n != 0 && (if l = n then v.f 100 != 0 else others.any fun m => cfgF s secControl m.val 100 == v.f 100)) 100 ++
  breaks (decide (v.f 104 < v.f 84)) 104 ++ breaks (decide (v.f 112 ≤ v.f 108)) 108 ++
  ((cols.filter fun c => decide (v.f 104 < v.f (144 + 4 * c)) || (c != 0 && col (c - 1) && decide (v.f (144 + 4 * c) < v.f (140 + 4 * c)))).map (144 + 4 * ·)) ++
  ((cols.filter fun c => iq 0 c != 0).map fun c => 276 + 8 * c) ++
  (List.range 31).flatMap fun r => (cols.filter fun c => decide (iq (r + 1) c < iq r c)).map fun c => 276 + 8 * (32 * (r + 1) + c)

/-! ## SENSORLESS (R279, R282, R296) -/

/-- Three phase voltages are present: the axis has a rotation monitor (R319). -/
def threeVoltages (s : State) (n : Fin 4) : Bool := ([84, 96, 108] : List Nat).all fun b => cfgU s secSense n.val b 1 != 0
/-- An enabled axis without a primary interface needs the section with OBS_EN and HF_EN, and a monitor (R282, R296). -/
def observerNeeded (s : State) (n : Fin 4) : Bool := axEnabled s n && (ifcOf s n 0).isNone
def rulesSensorless (v : SecView) : List Nat :=
  let s := v.s
  let n := v.ax
  let ld := cfgF s secControl n.val 12
  let lq := cfgF s secControl n.val 16
  let hfBad := decide (qabs (lq - ld) < qmax ld lq / 10) || decide (lim (us (3125 / 100)) < tuField s n) || axGroup s n != 0
  breaks (!axEnabled s n || (fldHfEn v && (hfBad || !fldObsEn v)) || (observerNeeded s n && (!fldObsEn v || !fldHfEn v || !threeVoltages s n))) 0

/-! ## THERMAL (R368) -/

/-- Consecutive fields that do not rise, or that fall: a broken list is reported at its first field. -/
def listBad (v : SecView) (off step count : Nat) (ok : Q → Q → Bool) : Bool := (List.range (count - 1)).any fun k => !ok (v.f (off + step * k)) (v.f (off + step * (k + 1)))
def rising (a b : Q) : Bool := decide (a < b)
def rulesThermal (v : SecView) : List Nat :=
  (([4, 20, 36] : List Nat).filter fun o => listBad v o 4 4 rising) ++ breaks (decide (v.f 56 ≤ v.f 60)) 60 ++
  breaks (listBad v 68 8 4 (fun a b => decide (a ≤ b)) || v.f 96 != 1) 68 ++
  ((List.range 4).filterMap fun k => if v.f (68 + 8 * k) < 0 then some (68 + 8 * k) else none) ++ breaks (v.f 192 != 0 || listBad v 192 4 8 rising) 192 ++
  ((List.range 80).filterMap fun k => if v.f (224 + 4 * k) < 0 then some (224 + 4 * k) else none) ++ breaks (decide (v.f 556 ≤ v.f 552)) 552 ++
  (([644, 656] : List Nat).filter fun o => listBad v o 4 3 fun a b => decide (b ≤ a))

/-! ## PROFILE (R345) and CONVERTERS (R198) -/

/-- The first byte in which two bodies differ. -/
def firstDiff (a b : List Byte) : Nat := ((a.zip b).takeWhile fun p => p.1 == p.2).length
def rulesProfile (v : SecView) : List Nat :=
  let n := v.ax
  let l := axLeader v.s n
  let lead := cfgBody v.s secProfile l.val
  let stop := cfgF v.s secSafety 0 (36 + 64 * n.val)
  breaks (!axEnabled v.s n) 0 ++
  (if axEnabled v.s n && l != n && cfgHas v.s secProfile l.val && lead != v.body then [firstDiff lead v.body] else []) ++
  breaks (axEnabled v.s n && v.f 12 != 0 && v.f 16 != 0 && decide (stop < v.f 4 / v.f 12 + v.f 12 / v.f 16)) 4

def rulesConverters (v : SecView) : List Nat :=
  breaks (decide (v.f 0 < v.f 4 + 1 / 2)) 4 ++
  ((List.range 16).filter fun k => dsClaimed v.s k && v.u (16 + 8 * v.u (48 + 8 * k) 1) 1 == 0).map (48 + 8 * ·)

end Sys2Proof.Machine
end

