-- ==== Sys2Proof/Machine/LoadRulesUnits.lean ====
section
/-! DEFINITION. Check 6 of Table 4.5 for the interfaces, safety, auxiliary channel, networks and contexts (R90). -/
namespace Sys2Proof.Machine
open Sys2Proof

/-! ## POSITION (R248, R266) -/

/-- The axis has a secondary source: an interface, or the observer of its SENSORLESS section (R260). -/
def hasSecondary (s : State) (n : Fin 4) : Bool := (ifcOf s n 1).isSome || cfgHas s secSensorless n.val
def rulesPosition (v : SecView) : List Nat :=
  let s := v.s
  let m := v.u 0 1
  if m = 0 then [] else
  let ax : Fin 4 := Fin.ofNat 4 (v.u 2 1)
  let role := v.u 1 1
  let cprOk := match m with | 2 => v.u 4 4 % 4096 == 0 | 3 => v.u 4 4 == 2 ^ v.u 18 1 | 4 => v.u 4 4 == 65536 * v.u 16 1 | _ => true
  let twice := allAxes.any fun i => decide (i.val < v.inst) && posMode s i != 0 && posU s i 1 1 == role && posU s i 2 1 == v.u 2 1
  let sc : List Nat := [v.u 84 1, v.u 85 1]
  let codeIs (slot code : Nat) : Bool := sc.all fun c => match slotCode s c slot with | some k => k == code | none => true
  let front := m == 2 || m == 4
  breaks ((role != 2 && twice) || (role == 0 && (m == 1 || m == 2) && !hasSecondary s ax)) 1 ++
  breaks (role != 2 && !axEnabled s ax) 2 ++ breaks (!cprOk) 4 ++
  breaks (m == 4 && v.u 16 1 != 0 && cfgU s secControl ax.val 4 1 % v.u 16 1 != 0) 16 ++
  breaks ((m == 2 || m == 3) && !codeCarrier s ax (v.u 23 1)) 23 ++ breaks (front && v.u 84 1 == v.u 85 1) 85 ++
  breaks ((m == 2 && !codeIs (v.u 86 1) (v.u 23 1)) || (m == 4 && !codeIs (v.u 86 1) (0x40 + v.u 15 1)) || (front && sc.any (overOccupied s))) 86 ++
  breaks (m == 4 && (v.u 86 1 == v.u 87 1 || !codeIs (v.u 87 1) (0x42 + v.u 15 1))) 87

/-! ## SAFETY (R434) -/

def rulesSafetyAxis (v : SecView) (n : Fin 4) : List Nat :=
  let s := v.s
  if !axEnabled s n then [] else
  let b := 32 + 64 * n.val
  let pos := v.u (b + 1) 1
  let so := v.u (b + 2) 1
  let sdi := v.bit (b + 3) 1 || v.bit (b + 3) 2
  let sls := v.bit (b + 3) 0 || slsPossible s n.val
  breaks (decide (pos < 4) && ([0, 3, 4] : List Nat).contains (posMode s (Fin.ofNat 4 pos))) (b + 1) ++
  breaks (so != 0xFF && allAxes.any fun m => decide (m < n) && axEnabled s m && v.u (34 + 64 * m.val) 1 == so) (b + 2) ++
  breaks ((v.bit (b + 3) 1 && v.bit (b + 3) 2) || (sdi && ((ifcOf s n 0).isNone || pos == 0xFF))) (b + 3) ++
  breaks (v.u b 1 == 0 && sls && v.f (b + 12) != 0 && decide (v.f (b + 4) < 1 / 100 + v.f (b + 20) / v.f (b + 12))) (b + 4) ++
  breaks (v.u (b + 62) 1 != cfgU s secControl n.val 4 1) (b + 62)
def rulesSafety (v : SecView) : List Nat := allAxes.flatMap (rulesSafetyAxis v)

/-! ## SAFE_IN and SAFE_OUT (R455, R456, Table 16.1) -/

/-- The inputs a kind needs, and the results it allows. A two-hand function gives a permission, whatever RESULT holds. -/
def siNeeds (kind : Nat) : Nat := if kind = 3 then 4 else 2
def siAllows (kind result : Nat) : Bool := match kind with | 1 => decide (result ≤ 1) | 2 => result == 0 | 4 => result == 1 || result == 2 | _ => true
def rulesSiFn (v : SecView) (f : Nat) : List Nat :=
  let b := 32 + 16 * f
  let kind := v.u b 1
  if kind = 0 then [] else
  let other (o : Nat) : Bool := v.u o 1 != 0xFF && (List.range 8).any fun g => v.u (32 + 16 * g) 1 != 0 &&
    ([4, 5, 6, 7] : List Nat).any fun k => let p := 32 + 16 * g + k; decide (p < o) && v.u p 1 == v.u o 1
  breaks (!siAllows kind (v.u (b + 1) 1)) (b + 1) ++ breaks (allAxes.any fun n => v.bit (b + 2) n.val && !axEnabled v.s n) (b + 2) ++
  breaks (([2, 3] : List Nat).any fun o => v.bit (b + 3) o && cfgU v.s secSafeOut 0 (12 * o) 1 != 3) (b + 3) ++
  (List.range 4).flatMap fun k => breaks ((decide (k < siNeeds kind) && v.u (b + 4 + k) 1 == 0xFF) || other (b + 4 + k)) (b + 4 + k)
def rulesSafeIn (v : SecView) : List Nat :=
  breaks (tpUsed v && decide (v.f 8 / 8 < v.f 4)) 4 ++
  (if tpUsed v then (List.range 16).flatMap fun n =>
    let t := bitsOf (v.u (12 + n / 2) 1) (4 * (n % 2)) 4
    breaks (t != 0 && !v.bit 0 (t - 1)) (12 + n / 2) else []) ++
  (List.range 8).flatMap (rulesSiFn v)

/-- The axis whose BRAKE_SO names an output. -/
def brakeAxis (s : State) (so : Nat) : Option (Fin 4) := (enAxes s).find? fun n => safetyU s n 2 1 == so
def rulesSafeOut (v : SecView) : List Nat :=
  (([2, 3] : List Nat).filter fun k => (v.u (12 * k) 1 == 2) != (brakeAxis v.s k).isSome).map (12 * ·)

/-! ## AUX (R346) -/

def rulesAux (v : SecView) : List Nat :=
  if v.u 0 1 = 0 then [] else
  breaks ((v.u 0 1 == 1 || v.u 0 1 == 3) && v.u 5 1 == 0xFF) 5 ++ breaks (decide (v.f 24 < v.f 28)) 28 ++ breaks (decide (3 * v.f 20 < v.f 32)) 32

/-! ## CAN (R483) -/

/-- Bit rates of the three phases (R461). -/
def canRate (brp t1 t2 : Nat) : Q := 80000000 / ((max 1 brp * (1 + t1 + t2) : Nat) : Q)
/-- Bytes of the message RAM that a field of the section names: the field's offset, first byte and number of bytes (R462, R463). -/
structure CanArea where
  off : Nat
  start : Nat
  bytes : Nat
def slotArea (off slot : Nat) (xl : Bool) : CanArea := if xl then ⟨off, slot / 2 * 256, 2304⟩ else ⟨off, slot / 2 * 256 + slot % 2 * 128, 128⟩
def canAreas (v : SecView) : List CanArea :=
  let fifo (off depth bit_ : Nat) : List CanArea := if v.u depth 1 = 0 then [] else [⟨off, v.u off 2 * 256, v.u depth 1 * (if v.bit 26 bit_ then 2304 else 128)⟩]
  [⟨28, v.u 28 2 * 256, 4096⟩, ⟨30, v.u 30 2 * 256, 1792⟩] ++ fifo 32 24 2 ++ fifo 34 25 3 ++
  (List.range 256).flatMap fun k =>
    let b := 1856 + 16 * k
    if v.u b 1 = 0 then [] else
    let xl := v.u (b + 1) 1 == 4
    slotArea (b + 8) (v.u (b + 8) 2) xl :: (if v.bit (b + 2) 1 then [slotArea (b + 8) (v.u (b + 8) 2 + (if xl then 20 else 1)) xl] else [])
def areaMeets (a b : CanArea) : Bool := decide (a.start < b.start + b.bytes) && decide (b.start < a.start + a.bytes)
/-- Areas that meet an earlier one: the offset of the later field. -/
def areaClashes : List CanArea → List CanArea → List Nat
  | _, [] => []
  | seen, a :: as => (if seen.any fun x => areaMeets x a && (x.off != a.off || x.start != a.start) then [a.off] else []) ++ areaClashes (a :: seen) as

/-- A standard filter entry is the data of the entry before it (R466). -/
def filterIsData (v : SecView) : Nat → Bool
  | 0 => false
  | k + 1 => bitAt (v.u (64 + 8 * k) 4) 26 && !filterIsData v k
def rulesFilter (v : SecView) (std : Bool) (k : Nat) : List Nat :=
  let b := if std then 64 + 8 * k else 1088 + 12 * k
  let w := v.u b 4
  if (std && filterIsData v k) || bitsOf w 30 2 == 0 then [] else
  let t := 1856 + 16 * bitsOf w 16 8
  breaks ((bitsOf w 28 2 == 1 && v.u t 1 != 2) || (std && bitAt w 26 && decide (v.u 22 1 ≤ k + 1))) b

/-- A TX frame format that its slot, its length or FLAGS does not admit (Table 17.11). -/
def canFormatBad (v : SecView) (b : Nat) : Bool :=
  let len := v.u (b + 10) 2
  match v.u (b + 1) 1 with
  | 0 | 1 => decide (8 < len)
  | 2 => !hdrFd v || decide (64 < len)
  | 3 => !hdrFd v || !v.bit 0 2 || decide (64 < len)
  | _ => !hdrXl v || len == 0
def rulesBuf (v : SecView) (k : Nat) : List Nat :=
  let b := 1856 + 16 * k
  let kind := v.u b 1
  if kind = 0 then [] else
  let xl := v.u (b + 1) 1 == 4
  let slot := v.u (b + 8) 2
  let role := bitsOf (v.u (b + 3) 1) 6 2
  let torqueEarlier (n : Fin 4) : Bool := v.bit (b + 3) n.val && allAxes.any fun c => (List.range 256).any fun j =>
    (decide (c.val < v.inst) || (c.val == v.inst && decide (j < k))) &&
    (let e := 1856 + 16 * j
     cfgU v.s secCan c.val e 1 != 0 && bitsOf (cfgU v.s secCan c.val (e + 3) 1) 6 2 == 1 && bitAt (cfgU v.s secCan c.val (e + 3) 1) n.val)
  breaks (kind == 1 && canFormatBad v b) (b + 1) ++ breaks (v.bit (b + 2) 1 && (kind == 1 || (!xl && slot % 2 == 1))) (b + 2) ++
  breaks (role == 1 && allAxes.any fun n => (v.bit (b + 3) n.val && cfgU v.s secControl n.val 3 1 != 1) || torqueEarlier n) (b + 3) ++
  breaks (!bitAt (v.u (b + 4) 4) 31 && decide (0x7FF < v.u (b + 4) 4)) (b + 4) ++ breaks (xl && (slot % 2 == 1 || slot / 2 % 2 == 1)) (b + 8) ++
  breaks ((v.bit (b + 2) 0 && decide (v.u (b + 10) 2 < 3)) || (role == 1 && decide (v.u (b + 10) 2 < 8))) (b + 10)

def rulesCan (v : SecView) : List Nat :=
  let nom := canRate (v.u 4 1) (v.u 6 2) (v.u 5 1)
  let fd := canRate (v.u 9 1) (v.u 10 1) (v.u 11 1)
  let xl := canRate (v.u 14 1) (v.u 15 1) (v.u 16 1)
  breaks (decide (nom < 50000) || decide (1000000 < nom)) 4 ++ breaks (decide (v.u 6 2 < v.u 5 1)) 5 ++
  breaks (hdrFd v && (decide (fd < nom) || decide (8000000 < fd))) 9 ++
  breaks (hdrXl v && (decide (20000000 < xl) || (!hdrTms v && decide (10000000 < xl)))) 14 ++ areaClashes [] (canAreas v) ++
  (List.range (min 128 (v.u 22 1))).flatMap (rulesFilter v true) ++ (List.range (min 64 (v.u 23 1))).flatMap (rulesFilter v false) ++
  (List.range 256).flatMap (rulesBuf v)

/-! ## RING (R506) -/

def rulesRing (v : SecView) : List Nat :=
  let s := v.s
  let gs := List.range 4
  let axisOf (g : Nat) : Nat := v.u (32 + 32 * g) 1
  let badAxis (g : Nat) : Bool :=
    let n : Fin 4 := Fin.ofNat 4 (axisOf g)
    !axEnabled s n || pwmU s n 2 1 != 5 || cfgU s secControl n.val 3 1 != 2 || gs.any fun h => decide (h < g) && axisOf h == axisOf g
  let badRef (g : Nat) : Bool :=
    let c := v.u (33 + 32 * g) 1
    let e := 1856 + 16 * v.u (34 + 32 * g) 1
    let u (o n : Nat) : Nat := cfgU s secCan c (e + o) n
    !(u 0 1 == 2 && bitAt (u 2 1) 0 && decide (8 ≤ u 10 2) && bitsOf (u 3 1) 6 2 == 0)
  let ks := List.range 8
  let uid (k : Nat) : Nat := v.u (160 + 12 * k) 8
  breaks (!cfgRing s) 0 ++ breaks ((enAxes s).any fun n => pwmU s n 2 1 == 5 && pwmF s n 4 != v.f 4) 4 ++
  (gs.flatMap fun g => if axisOf g = 0xFF then [] else breaks (badAxis g) (32 + 32 * g) ++ breaks (badRef g) (34 + 32 * g)) ++
  (ks.filter fun k => uid k != 0 && ks.any fun j => decide (j < k) && uid j == uid k).map fun k => 160 + 12 * k

/-! ## CONTEXTS (R319) -/

/-- Used entries of a kind and instance, ascending. -/
def ctxEntries (v : SecView) (kind : Nat) (inst : Nat) : List Nat := (List.range 128).filter fun k => v.u (48 + 16 * k) 1 == kind && v.u (49 + 16 * k) 1 == inst
/-- A count that is not allowed: at the last entry of the kind, at 0 where none exists. -/
def countBreak (v : SecView) (kind inst : Nat) (ok : Nat → Bool) : List Nat :=
  let l := ctxEntries v kind inst
  if ok l.length then [] else match l.getLast? with | some k => [48 + 16 * k] | none => [0]
/-- Entries that stand without what they belong to, or what is there without its entry. -/
def pairBreak (v : SecView) (kind inst : Nat) (wanted : Bool) : List Nat :=
  let l := ctxEntries v kind inst
  if wanted then (if l.isEmpty then [0] else []) else l.map fun k => 48 + 16 * k
def rulesCtxAxis (v : SecView) (n : Fin 4) : List Nat :=
  let s := v.s
  let one (c : Nat) : Bool := c == 1
  let bundle := (List.range 128).filter fun k => ([1, 2, 3, 10] : List Nat).contains (v.u (48 + 16 * k) 1) && v.u (49 + 16 * k) 1 == n.val
  let pin := match ctxEntries v 1 n.val ++ bundle with | k :: _ => v.u (50 + 16 * k) 1 | [] => 0xFF
  (if !axEnabled s n then [] else
    ([1, 2, 5] : List Nat).flatMap (fun k => countBreak v k n.val one) ++ countBreak v 7 n.val (fun c => c == 1 || c == 3)) ++
  pairBreak v 3 n.val (bitAt (cfgU s secSensorless n.val 0 1) 0) ++ pairBreak v 4 n.val (threeVoltages s n) ++
  (if cfgHas s secProfile n.val then [] else pairBreak v 8 n.val false) ++ (if cfgU s secControl n.val 3 1 == 2 then [] else pairBreak v 10 n.val false) ++
  (bundle.filter fun k => v.u (50 + 16 * k) 1 != pin).map fun k => 48 + 16 * k

def rulesContexts (v : SecView) : List Nat :=
  let s := v.s
  let rank (n : Fin 4) : Nat := bitsOf (v.u 1 1) (2 * n.val) 2
  let ens := enAxes s
  breaks (ens.any fun a => ens.any fun b => decide (a < b) && rank a == rank b) 1 ++ allAxes.flatMap (rulesCtxAxis v) ++
  allAxes.flatMap fun i => if posMode s i == 2 || posMode s i == 4 then [] else pairBreak v 6 i.val false

/-! ## All rules -/

/-- The offsets at which a section breaks a rule of its chapter. -/
def rulesOf (x : Section) (s : State) : List Nat :=
  let v : SecView := ⟨s, x.inst, x.body⟩
  let id := x.id
  let on := axEnabled s v.ax
  if id = secSystem then rulesSystem v else if id = secHost then rulesHost v else if id = secSecurity then rulesSecurity v
  else if id = secLog then rulesLog v else if id = secOdometry then rulesOdometry v
  else if id = secPwm then (if on then rulesPwm v else []) else if id = secTrip then (if on then rulesTrip v else [])
  else if id = secSense then (if on then rulesSense v else []) else if id = secControl then (if on then rulesControl v else [])
  else if id = secSensorless then rulesSensorless v else if id = secThermal then (if on then rulesThermal v else [])
  else if id = secProfile then rulesProfile v else if id = secConverters then rulesConverters v else if id = secPosition then rulesPosition v
  else if id = secSafety then rulesSafety v else if id = secSafeIn then rulesSafeIn v else if id = secSafeOut then rulesSafeOut v
  else if id = secAux then rulesAux v else if id = secCan then rulesCan v else if id = secRing then rulesRing v
  else if id = secContexts then rulesContexts v else []

/-- The sections that an image must have (Table 4.4), and SENSORLESS of an axis that needs an observer (R282, R295). -/
def missingSections (s : State) : List (Nat × Nat) :=
  let need (id inst : Nat) : List (Nat × Nat) := if cfgHas s id inst then [] else [(id, inst)]
  ([secSystem, secHost, secOwnership, secLimits, secOdometry, secSecurity, secLog] : List Nat).flatMap (need · 0) ++
  (([secPwm, secTrip, secSense, secControl] : List Nat).flatMap fun id => (enAxes s).flatMap fun n => need id n.val) ++
  ((enAxes s).flatMap fun n => if observerNeeded s n then need secSensorless n.val else []) ++ ((enAxes s).flatMap fun n => need secThermal n.val) ++
  ([secConverters, secSafety, secSafeOut, secContexts] : List Nat).flatMap (need · 0)

end Sys2Proof.Machine
end

