-- ==== Sys2Proof/Machine/OwnershipCheck.lean ====
section
/-! DEFINITION. Resource ownership (check 8 of Table 4.5; R105 to R109, R556 to R558): what the sections use, the fixed owners,
the claimants of each resource and their order. -/
namespace Sys2Proof.Machine
open Sys2Proof

/-- A claimant: function and instance (R91). -/
abbrev Claimant := Nat × Nat

/-! ## Balls (Table 20.1) -/

/-- The resource of a ball: rows A = 0 to AC = 21, columns from 1 (R107). -/
def ball (row col : Nat) : Nat := 0x01000000 + row * 32 + col
def ballAin (k : Nat) : Nat := if k < 20 then ball 0 (2 + k) else ball 1 (k - 18)
/-- Row of a leg of an axis in columns 1 to 4. -/
def legRow (n leg : Nat) : Nat := 4 + 3 * n + leg
def ballSo (k : Nat) : Nat := ball (15 + k) 21
def ballSofb (k : Nat) : Nat := ball (15 + k) 22
def ballSi (k : Nat) : Nat := ball (11 + k / 4) (18 + k % 4)
def ballTp (k : Nat) : Nat := ball (11 + k) 22
def ballRefsw (k : Nat) : Nat := ball 8 (18 + k)
/-- The three balls of an emulation channel, the eight of the auxiliary half-bridges. -/
def ballsEmu (m : Nat) : List Nat := if m = 0 then [ball 9 18, ball 9 19, ball 9 20] else [ball 17 19, ball 17 20, ball 18 19]
def ballsHalf (k : Nat) : List Nat := [ball (15 + k) 19, ball (15 + k) 20]
/-- SIN and COS balls of an interface. -/
def ballsSinCos (n : Nat) : List Nat := (List.range 4).map fun k => ball 2 ((if n < 2 then 2 + 4 * n else 6 + 4 * n) + k)
/-- The balls that carry EMU1 under SELECT 1 (R557). -/
def muxBall (r : Nat) : Bool := (ballsEmu 1).contains r

/-- The ball carries a signal (Table 20.1). -/
def signalBall (row col : Nat) : Bool :=
  let within (l : List (Nat × Nat)) : Bool := l.any fun p => decide (p.1 ≤ col) && decide (col ≤ p.2)
  match row with
  | 0 | 1 | 3 => within [(2, 21)]
  | 2 => within [(2, 9), (11, 21)]
  | 4 | 5 | 6 | 7 | 11 | 12 | 13 | 14 => within [(1, 4), (18, 22)]
  | 8 => within [(1, 4), (18, 21)]
  | 9 => within [(1, 4), (18, 20)]
  | 10 => within [(1, 4), (19, 19), (21, 21)]
  | 15 => within [(1, 4), (19, 22)]
  | 16 => within [(2, 2), (4, 4), (19, 22)]
  | 17 | 18 => within [(19, 22)]
  | 19 => within [(1, 10), (13, 22)]
  | 20 | 21 => within [(1, 22)]
  | _ => false

/-- Fixed owners (R108, R301, R556). -/
def fixedOwner (s : State) (r : Nat) : Option Claimant :=
  let idx := r % 0x01000000
  let row := idx / 32
  let col := idx % 32
  match r / 0x01000000 with
  | 1 =>
    if row = 1 ∧ (col = 20 ∨ col = 21) then some (0x0E, 0)
    else if row = 20 ∧ col ≤ 12 then some (if cfgU s secLog 0 0 1 = 1 then (0x11, 0) else (0x0F, 0))
    else if (row = 2 ∧ col = 13) ∨ (row = 10 ∧ (col = 19 ∨ col = 21)) ∨ (row = 19 ∧ (col = 9 ∨ col = 10 ∨ 21 ≤ col)) ∨ 20 ≤ row then some (0x0F, 0)
    else none
  | 3 => if idx = 7 then some (0x0B, 0) else none
  | 4 => if row = 7 then some (0x0B, 0) else if col = 15 then some (0x0E, 0) else none
  | 8 => if idx = 0 then some (0x0F, 0) else if idx = 1 then some (0x10, 0) else none
  | 9 => if 124 ≤ idx then some (0x0F, 0) else none
  | _ => none

/-- The owner that a ball's table gives for the function SELECT names; none where any function may claim it (Tables 20.4 to 20.10). -/
def tableOwner (r select : Nat) : Option Claimant :=
  let row := r % 0x01000000 / 32
  let col := r % 32
  if r / 0x01000000 ≠ 1 then none
  else if muxBall r then some (if select = 1 then (0x05, 1) else (0x06, 0))
  else if col ≤ 4 ∧ 4 ≤ row ∧ row ≤ 15 then some (0x03, (row - 4) / 3)
  else if r = ball 16 2 then some (0x0A, 4) else if r = ball 16 4 then some (0x0C, 0)
  else if row = 2 ∧ 2 ≤ col ∧ col ≤ 9 then some (0x04, (col - 2) / 4) else if row = 2 ∧ 14 ≤ col then some (0x04, (col - 6) / 4)
  else if 4 ≤ row ∧ row ≤ 7 ∧ 18 ≤ col then some (0x04, row - 4)
  else if row = 9 ∧ 18 ≤ col then some (0x05, 0)
  else if 11 ≤ row ∧ row ≤ 14 ∧ 18 ≤ col then some (0x09, 0)
  else if 15 ≤ row ∧ row ≤ 18 ∧ 21 ≤ col then some (0x0A, row - 15)
  else if 15 ≤ row ∧ row ≤ 18 ∧ 19 ≤ col then some (0x06, 0)
  else if row = 19 ∧ col ≤ 8 then some (0x08, (col - 1) / 4) else if row = 19 ∧ 13 ≤ col ∧ col ≤ 20 then some (0x07, (col - 13) / 2)
  else none

/-! ## What the sections use, in canonical order -/

/-- A use: the resource, the claimant, and whether any instance of the function may own it, as a regular voltage slot (R175). -/
structure Use where
  resource : Nat
  who : Claimant
  shared : Bool
  deriving DecidableEq, Repr

def use (who : Claimant) (rs : List Nat) : List Use := rs.map fun r => ⟨r, who, false⟩
/-- A converter slot and, where the map lists it, the ball it converts. The ball of a shared slot is owned by the slot's owner (R175). -/
def slotUses (s : State) (who : Claimant) (shared : Bool) (conv slot : Nat) : List Use :=
  let r := resSarSlot conv slot
  ⟨r, who, shared⟩ :: (match ownerOf s r with
    | some e => [⟨ballAin (e.select % 256), if shared && e.function == who.1 then (e.function, e.inst) else who, false⟩]
    | none => [])

def usesPwm (v : SecView) : List Use :=
  use (0x03, v.inst) ((List.range 3).flatMap fun l => [ball (legRow v.inst l) 1, ball (legRow v.inst l) 2] ++ if v.bit 3 l then [ball (legRow v.inst l) 3] else [])
def usesTrip (v : SecView) : List Use :=
  use (0x03, v.inst) (((List.range 3).filter fun l => v.bit 0 (3 + l)).map fun l => ball (legRow v.inst l) 4) ++
  use (0x12, v.inst) ((List.range (min 8 (v.u 2 1))).map fun k => 0x06000000 + v.u (16 + 12 * k) 1) ++
  use (0x01, v.inst) ((List.range (min 4 (v.u 3 1))).map fun k => resDs (v.u (112 + 12 * k) 1)) ++
  (if v.u 12 1 = 0xFF then [] else use (0x12, 0) [0x08000000 + v.u 12 1])
def usesSense (v : SecView) : List Use :=
  let entry (b : Nat) (fn : Nat) : List Use :=
    match v.u b 1 with
    | 1 => slotUses v.s (fn, v.inst) (fn == 0x02 && decide (v.u (b + 2) 1 < 16)) (v.u (b + 1) 1) (v.u (b + 2) 1)
    | 2 => use (fn, v.inst) [resDs (v.u (b + 1) 1)]
    | _ => []
  ([36, 48, 60] : List Nat).flatMap (entry · 0x01) ++ (if fldLsPresent v then use (0x01, v.inst) [ballAin (28 + 2 * v.inst), ballAin (29 + 2 * v.inst)] else []) ++
  ([72, 84, 96, 108] : List Nat).flatMap (entry · 0x02)
def usesPosition (v : SecView) : List Use :=
  let n := v.inst
  let m := v.u 0 1
  if m = 0 then [] else
  let front := m == 2 || m == 4
  let e := v.u 15 1
  use (0x04, n) (
    (if m = 1 then [ball (4 + n) 18, ball (4 + n) 19] else []) ++ (if v.bit 3 4 then [ball (4 + n) 20, 0x02000000 + 8 * n] else []) ++
    (if m = 3 then [ball (4 + n) 21, ball (4 + n) 22] else []) ++ (if front then ballsSinCos n ++ [ballAin (20 + 2 * n), ballAin (21 + 2 * n)] else []) ++
    (if m = 4 ∧ excUser v.s e = some (Fin.ofNat 4 n) then [ball 2 (11 + e), 0x0A000000 + e] else []) ++
    (if v.u 26 1 = 0xFF then [] else [0x02000020 + v.u 26 1, ballRefsw (v.u 26 1)]) ++ (if v.u 96 1 = 0xFF then [] else [0x0B000000 + v.u 96 1])) ++
  (if v.u 96 1 = 0xFF then [] else use (0x05, v.u 96 1) (ballsEmu (v.u 96 1))) ++
  (if front then ([v.u 84 1, v.u 85 1] : List Nat).flatMap fun c =>
    slotUses v.s (0x04, n) false c (v.u 86 1) ++ if m = 4 then slotUses v.s (0x04, n) false c (v.u 87 1) else [] else [])
def usesThermal (v : SecView) : List Use :=
  ([560, 588, 616] : List Nat).flatMap fun b => if v.u b 1 = 0 then [] else slotUses v.s (0x0C, v.inst) false (v.u (b + 1) 1) (v.u (b + 2) 1)
/-- The data and clock balls of a used channel belong to the channel's owner (R198). -/
def usesConverters (v : SecView) : List Use :=
  (List.range 16).flatMap fun k => match ownerOf v.s (resDs k) with
    | some e => use (e.function, e.inst) [ball 3 (2 + k), ball 3 (18 + v.u (48 + 8 * k) 1)]
    | none => []
def usesSafety (v : SecView) : List Use :=
  (if v.bit 0 0 then use (0x0A, 4) [ball 16 2] else []) ++
  (enAxes v.s).flatMap fun n => let so := v.u (34 + 64 * n.val) 1; if so = 0xFF then [] else use (0x0A, so) [ballSo so]
def usesSafeIn (v : SecView) : List Use :=
  use (0x09, 0) (((List.range 4).filter fun k => v.bit 0 k).map ballTp ++ (List.range 8).flatMap fun f =>
    if v.u (32 + 16 * f) 1 = 0 then [] else ((List.range 4).filterMap fun k => let i := v.u (36 + 16 * f + k) 1; if i = 0xFF then none else some (ballSi i)))
def usesSafeOut (v : SecView) : List Use := (List.range 4).flatMap fun k => if v.u (12 * k) 1 = 0 then [] else use (0x0A, k) [ballSo k, ballSofb k]
def usesAux (v : SecView) : List Use :=
  if v.u 0 1 = 0 then [] else
  use (0x06, 0) (((if v.u 0 1 = 2 then [0, 1] else [0, 1, 2, 3] : List Nat).flatMap ballsHalf) ++ [ballAin (v.u 4 1)] ++
    (if v.u 0 1 = 2 ∨ v.u 5 1 = 0xFF then [] else [ballAin (v.u 5 1)]) ++ (if v.u 6 1 = 0xFF then [] else [0x02000020 + v.u 6 1, ballRefsw (v.u 6 1)]))
/-- Granules of an area. -/
def areaGranules (a : CanArea) : List Nat := (List.range ((a.bytes + 255 + a.start % 256) / 256)).map fun k => 0x07000000 + a.start / 256 + k
def usesCan (v : SecView) : List Use := use (0x07, v.inst) ((canAreas v).flatMap areaGranules ++ canBalls (Fin.ofNat 4 v.inst))
def usesRing : List Use := use (0x08, 0) ((List.range 4).map fun k => ball 19 (1 + k)) ++ use (0x08, 1) ((List.range 4).map fun k => ball 19 (5 + k))
def usesContexts (v : SecView) : List Use :=
  use (0x0F, 1) (((List.range 8).filter fun b => v.bit 0 b).map (0x08000000 + ·)) ++ (List.range 128).flatMap fun k =>
    let b := 48 + 16 * k
    match v.u b 1 with
    | 0 => []
    | 6 => use (0x04, v.u (b + 1) 1) [0x09000000 + k]
    | 7 => use (0x0C, v.u (b + 1) 1) [0x09000000 + k]
    | _ => use (0x01, v.u (b + 1) 1) [0x09000000 + k]

/-- The uses of one section. -/
def usesOf (s : State) (x : Section) : List Use :=
  let v : SecView := ⟨s, x.inst, x.body⟩
  if !sectionUsed s x then []
  else if x.id = secPwm then usesPwm v else if x.id = secTrip then usesTrip v else if x.id = secSense then usesSense v
  else if x.id = secPosition then usesPosition v else if x.id = secThermal then usesThermal v else if x.id = secConverters then usesConverters v
  else if x.id = secSafety then usesSafety v else if x.id = secSafeIn then usesSafeIn v else if x.id = secSafeOut then usesSafeOut v
  else if x.id = secAux then usesAux v else if x.id = secCan then usesCan v else if x.id = secRing then usesRing
  else if x.id = secContexts then usesContexts v else []

/-! ## Claimants (R91, R105) -/

/-- The map of the set under check. -/
def theMap (s : State) : List Owned := ownedEntries (cfgBody s secOwnership 0)
/-- A shared voltage slot counts for the instance of voltage sensing that owns it (R175). -/
def Use.claimant (m : List Owned) (u : Use) : Claimant :=
  if u.shared then match m.find? fun e => e.resource == u.resource && e.function == u.who.1 with | some e => (e.function, e.inst) | none => u.who
  else u.who

/-- The claimants of a resource in the order of R91, each once. -/
def claimants (s : State) (m : List Owned) (us : List Use) (r : Nat) : List Claimant :=
  let users := (us.filter fun u => u.resource == r).map (Use.claimant m)
  let entries := m.filter fun e => e.resource == r
  let mine := entries.map fun e => (e.function, e.inst)
  let slots := (m.filter fun e => e.resource / 0x01000000 == 4 && ballAin (e.select % 256) == r).map fun e => (e.function, e.inst)
  let tables := entries.filterMap fun e => tableOwner r e.select
  ((fixedOwner s r).toList ++ users ++ tables ++ mine ++ slots).eraseDups
/-- A section uses the resource and the map omits it: the map's owner counts as 0x00 with instance 0x00, and is the second claimant
(R91 item 4, R105). -/
def mapOmits (s : State) (m : List Owned) (us : List Use) (r : Nat) : Bool :=
  (fixedOwner s r).isNone && us.any (fun u => u.resource == r) && !m.any fun e => e.resource == r

/-- A conflict: the resource and its two claimants. -/
structure Conflict where
  resource : Nat
  first : Claimant
  second : Claimant
  deriving DecidableEq, Repr

def conflictAt (s : State) (m : List Owned) (us : List Use) (r : Nat) : Option Conflict :=
  match claimants s m us r with
  | a :: b :: _ => some ⟨r, a, if mapOmits s m us r then (0, 0) else b⟩
  | [a] =>
    if mapOmits s m us r then some ⟨r, a, (0, 0)⟩ else
    let entries := m.filter fun e => e.resource == r
    match fixedOwner s r, entries with
    | some f, e :: _ => some ⟨r, f, (e.function, e.inst)⟩
    | _, _ => if 2 ≤ entries.length then some ⟨r, a, a⟩ else none
  | [] => none

/-! ## Converters shared by owners (R109) -/

/-- The timebase an axis runs from, 4 for the ring, with its offset in seconds (R117, R118); `fuel` bounds the chain. -/
def timebase (s : State) : Nat → Fin 4 → Nat × Q
  | 0, n => (n.val, 0)
  | fuel + 1, n =>
    let l := axLeader s n
    if pwmU s l 2 1 = 5 then (4, pwmF s l 12) else
    match syncAxis s l with
    | none => (l.val, 0)
    | some m => let t := timebase s fuel m; (t.1, t.2 + pwmF s l 12)

/-- A sampling window: start within the period, length, owner. -/
structure Window where
  start : Q
  length : Q
  owner : Claimant

def wrap (per x : Q) : Q := if per = 0 then 0 else x - per * ((x / per).floor : Q)
/-- The windows of a code of an owner on a converter. -/
def windowsOf (s : State) (slots : List (Nat × Nat × Claimant)) (code : Nat) (o : Claimant) : List Window :=
  let n : Fin 4 := Fin.ofNat 4 (code % 4)
  let per := pwmF s n 4
  let t0 := (timebase s 4 n).2 + cfgF s secSense n.val 4
  let len : Q := ((slots.filter fun x => x.2.1 == code).length : Q) / 4000000 + 1 / 20000000
  let at_ (f : Q) : Window := ⟨wrap per (t0 + f * per), len, o⟩
  match code / 4 with | 4 => [at_ 0] | 5 => [at_ (1 / 2)] | _ => [at_ 0, at_ (1 / 2)]
def windowsMeet (per : Q) (a b : Window) : Bool := decide (wrap per (b.start - a.start) < a.length) || decide (wrap per (a.start - b.start) < b.length)

/-- The injected slots of two owners cannot share a converter. Slots of both that carry one trigger code begin at one instant: R109 does not
say whether they share a window as one sequence, and they count as overlapping. DESIGN CHOICE (log entry 212), unsafe. -/
def cannotShare (s : State) (slots : List (Nat × Nat × Claimant)) (a b : Claimant) : Bool :=
  let mine := slots.filter fun x => x.2.2 == a || x.2.2 == b
  let codes := (mine.map (·.2.1)).eraseDups
  if codes.any fun c => decide (c < 0x10) || decide (0x1B < c) then true else
  let ax := codes.map fun c => (Fin.ofNat 4 (c % 4) : Fin 4)
  let bases := (ax.map fun n => (timebase s 4 n).1).eraseDups
  let pers := (ax.map fun n => pwmF s n 4).eraseDups
  if bases.length ≠ 1 ∨ pers.length ≠ 1 then true else
  let ws (o : Claimant) : List Window := (((mine.filter fun x => x.2.2 == o).map (·.2.1)).eraseDups).flatMap fun c => windowsOf s mine c o
  (ws a).any fun x => (ws b).any fun y => windowsMeet (pers.headD 0) x y

/-- The owners of injected slots on a converter in the order of R91, and the first pair that fails. -/
def sharedConflict (s : State) (m : List Owned) (us : List Use) (conv : Nat) : Option Conflict :=
  let slots := (m.filter fun e => e.resource / 0x01000000 == 4 && e.resource % 0x01000000 / 32 == conv && decide (16 ≤ e.resource % 32)).map
    fun e => (e.resource, e.select / 256, ((e.function, e.inst) : Claimant))
  let used := (us.filter fun u => slots.any fun x => x.1 == u.resource).map (Use.claimant m)
  let owners := ((used.filter fun o => slots.any fun x => x.2.2 == o) ++ slots.map (·.2.2)).eraseDups
  let rec go : List Claimant → List Claimant → Option Conflict
    | _, [] => none
    | seen, o :: rest =>
      match seen.reverse.find? fun e => cannotShare s slots e o with
      | some e => some ⟨((slots.filter fun x => x.2.2 == o).map (·.1)).foldl min 0xFFFFFFFF, e, o⟩
      | none => go (o :: seen) rest
  go [] owners

/-- The conflict with the lowest resource number (R90). -/
def firstConflict (s : State) (secs : List Section) : Option Conflict :=
  let m := theMap s
  let us := secs.flatMap (usesOf s)
  let rs := ((us.map (·.resource)) ++ m.map (·.resource) ++ (m.filter fun e => e.resource / 0x01000000 == 4).map fun e => ballAin (e.select % 256)).eraseDups
  let all := rs.filterMap (conflictAt s m us) ++ (List.range 7).filterMap (sharedConflict s m us)
  all.foldl (fun acc c => match acc with | none => some c | some a => if c.resource < a.resource then some c else some a) none

end Sys2Proof.Machine
end

