-- ==== Sys2Proof/Machine/LoadCheck.lean ====
section
/-! DEFINITION. The load checks of Table 4.5 in their order, and the failure each reports (R87 to R91, R518, R543). -/
namespace Sys2Proof.Machine
open Sys2Proof

/-- A failing check: its code, the data word of R91, and the payload of CFG.STAGE. -/
structure LoadFailure where
  code : Nat
  data : Nat
  payload : List Byte
  deriving DecidableEq, Repr

/-- The state with an image as its active set, in which its fields are looked up while it is checked. -/
def probeOf (s : State) (img : List Byte) : State :=
  { s with cfg := { s.cfg with active := some img, prev := none, lag := 0 } }

/-- A failure located at a field (R91). -/
def failAt (code id inst off : Nat) : LoadFailure := ⟨code, place id 24 8 + place inst 16 8 + place off 0 16, []⟩
def failPlain (code : Nat) : LoadFailure := ⟨code, 0, []⟩

/-! ## Checks 1 to 3 -/

/-- Check 1: where the image and its sections lie (R90). -/
def checkFormat (img : List Byte) : Option LoadFailure :=
  let size := imgSize img
  let ok := imgMagic img == 0x4746434B && imgFormat img == 0x0302 && decide (200 ≤ size) && decide (size ≤ 262144) && size % 8 == 0 &&
    decide (size ≤ img.length) &&
    (match parseSections 32768 (slice img 64 (size - 128)) with | some l => l.length == imgCount img | none => false)
  if ok then none else some (failPlain evCfgBadFormat)

/-- Check 2: the signature, by the key of the SECURITY section, whose hash a fused hash binds (R88, R543). -/
def checkSignature (s : State) (img : List Byte) : Option LoadFailure :=
  let ok := match imgBody img secSecurity 0 with
    | none => false
    | some b =>
      let key := slice b 8 64
      (s.sec.fuses.cfgKeyHash == List.replicate 32 0 || sha256 key == s.sec.fuses.cfgKeyHash) && ecdsaVerify key (imgDigest img) (slice img (imgSize img - 64) 64)
  if ok then none else some (failPlain evCfgBadSignature)

/-- The bits of a body that its fields cover. -/
def coveredBits (id : Nat) : Nat := (fieldsOf id).foldl (fun m f => m ||| ((2 ^ f.width - 1) <<< (8 * f.off + f.lo))) 0
/-- The lowest set bit of a number, as the byte that holds it. -/
def lowestByte (n : Nat) : Nat := (n ^^^ (n &&& (n - 1))).log2 / 8
/-- A binary32 pattern that R87 admits: finite, not subnormal, and not −0. -/
def canonicalReal (w : Nat) : Bool := bitsOf w 23 8 != 255 && !f32Subnormal w && w != 2 ^ 31

/-- The offsets at which a body is not canonical (R87, R106). R106 gives the entries of the map an order and no code for a map that breaks it,
and R87 does not list that order: it counts as canonical form, at the entry that is out of order. DESIGN CHOICE (log entry 213), unsafe. -/
def bodyFlaws (x : Section) : List Nat :=
  if x.id = secOwnership then
    breaks (fieldU x.body 2 6 != 0) (2 + lowestByte (fieldU x.body 2 6)) ++
    ((List.range (fieldU x.body 0 2)).filter fun k => k != 0 && decide (fieldU x.body (8 * k + 8) 4 < fieldU x.body (8 * k) 4)).map fun k => 8 * k + 8
  else
    let v : Nat := leNat x.body
    let rest := v ^^^ (v &&& coveredBits x.id)
    breaks (rest != 0) (lowestByte rest) ++
    ((fieldsOf x.id).filter fun f => f.real && !canonicalReal (fieldU x.body f.off 4)).map (·.off)

/-- The key by which sections are ordered. -/
def sectionKey (x : Section) : Nat := x.id * 256 + x.inst

/-- The sections that break the order of R87, each after the one before it. -/
def orderFlaws : Option Nat → List Section → List (Nat × Nat)
  | _, [] => []
  | prev, x :: xs =>
    (if (match prev with | some p => decide (sectionKey x ≤ p) | none => false) || x.reserved != 0 then [(sectionKey x, 0)] else []) ++
    orderFlaws (some (sectionKey x)) xs

/-- The first of some located failures: by section, then by offset (R90). -/
def firstAt (l : List (Nat × Nat)) : Option (Nat × Nat) :=
  l.foldl (fun acc p => match acc with
    | none => some p
    | some a => if p.1 < a.1 ∨ (p.1 = a.1 ∧ p.2 < a.2) then some p else acc) none

/-- The failure of a check at the first of some places. -/
def failFirst (code : Nat) (l : List (Nat × Nat)) : Option LoadFailure :=
  (firstAt l).map fun p => failAt code (p.1 / 256) (p.1 % 256) p.2

/-- Check 3: canonical form (R87). -/
def checkCanonical (secs : List Section) : Option LoadFailure :=
  failFirst evCfgNotCanonical (orderFlaws none secs ++ secs.flatMap fun x => (bodyFlaws x).map fun o => (sectionKey x, o))

/-! ## Check 4 -/

/-- The axes of a mask. -/
def maskAxes (m : Nat) : List Nat := (List.range 4).filter (bitAt m)

/-- The unit that a ball belongs to and that can be absent (R555). -/
def ballUnit (r select : Nat) : List Nat :=
  let row := r % 0x01000000 / 32
  let col := r % 32
  if 4 ≤ row ∧ row ≤ 15 ∧ 1 ≤ col ∧ col ≤ 4 then [(row - 4) / 3]
  else if row = 2 ∧ (col = 11 ∨ col = 12) then [col + 7]
  else if 11 ≤ row ∧ row ≤ 14 ∧ 18 ≤ col then [16]
  else if row = 19 ∧ 1 ≤ col ∧ col ≤ 8 then [14 + (col - 1) / 4]
  else if row = 19 ∧ 13 ≤ col ∧ col ≤ 20 then [8 + (col - 13) / 2]
  else if 15 ≤ row ∧ row ≤ 18 ∧ (col = 19 ∨ col = 20) then (if muxBall r ∧ select ≠ 0 then [] else [17])
  else []

/-- The unit that an owner is and that can be absent (Table 4.12): an axis by its current path, voltages, signals, thermal sensors or trip logic,
a CAN controller, a Halyard port, the safe inputs, the auxiliary channel. -/
def ownerUnits (function inst : Nat) : List Nat :=
  match function with
  | 0x01 | 0x02 | 0x03 | 0x0C | 0x12 => if inst < 4 then [inst] else []
  | 0x06 => [17]
  | 0x07 => if inst < 4 then [8 + inst] else []
  | 0x08 => if inst < 2 then [14 + inst] else []
  | 0x09 => [16]
  | _ => []

/-- The units that an entry of the map names: those of its resource, and its owner (R45). -/
def entryUnits (e : Owned) : List Nat :=
  let idx := e.resource % 0x01000000
  (match e.resource / 0x01000000 with
    | 1 => ballUnit e.resource e.select
    | 6 => if idx < 24 then [idx / 6] else []
    | 10 => if idx < 2 then [18 + idx] else []
    | _ => []) ++ ownerUnits e.function e.inst

/-- Both Halyard ports. -/
def halyardUnits : List Nat := [14, 15]

/-- The units that a section names, in the order of its bytes (R90, R45). Fields that imply a unit do so while they are used. -/
def unitsOf (s : State) (x : Section) : List Nat :=
  let v : SecView := ⟨s, x.inst, x.body⟩
  let on := axEnabled s v.ax
  let own : List Nat := if axisSection x.id ∧ x.inst < 4 then [x.inst] else if x.id = secCan ∧ x.inst < 4 then [8 + x.inst] else []
  own ++
  (if x.id = secSystem then (if v.bit 0 1 then halyardUnits else []) ++ maskAxes (v.u 4 1) ++ (List.range 4).filter fun n => bitsOf (v.u 8 4) (4 * n) 4 != 0
  else if x.id = secHost then (if v.u 2 1 < 4 then [8 + v.u 2 1] else [])
  else if x.id = secOwnership then (ownedEntries x.body).flatMap entryUnits
  else if x.id = secOdometry then (if v.u 16 1 < 4 then [v.u 16 1] else [])
  else if x.id = secPwm ∧ on then (if v.u 2 1 = 5 then halyardUnits else if 1 ≤ v.u 2 1 ∧ v.u 2 1 ≤ 4 then [v.u 2 1 - 1] else [])
  else if x.id = secTrip ∧ on then
    ((List.range (min 8 (v.u 2 1))).map fun k => v.u (16 + 12 * k) 1).filterMap fun c => if c < 24 then some (c / 6) else none
  else if x.id = secControl ∧ on then (if v.u 3 1 = 2 then halyardUnits else [])
  else if x.id = secPosition ∧ v.u 0 1 ≠ 0 then
    (if v.u 1 1 ≤ 1 ∧ v.u 2 1 < 4 then [v.u 2 1] else []) ++ (if v.u 0 1 = 4 ∧ v.u 15 1 < 2 then [18 + v.u 15 1] else [])
  else if x.id = secSafeIn then 16 :: (List.range 8).flatMap fun f => if v.u (32 + 16 * f) 1 = 0 then [] else maskAxes (v.u (34 + 16 * f) 1)
  else if x.id = secAux then [17]
  else if x.id = secCan then
    (if v.bit 0 1 then [13] else []) ++
    (List.range 256).flatMap fun k => if v.u (1856 + 16 * k) 1 = 0 then [] else
      (if v.u (1857 + 16 * k) 1 = 4 then [13] else []) ++ maskAxes (bitsOf (v.u (1859 + 16 * k) 1) 0 4)
  else if x.id = secRing then halyardUnits ++ (List.range 4).filterMap fun g => if v.u (32 + 32 * g) 1 < 4 then some (v.u (32 + 32 * g) 1) else none
  else if x.id = secContexts then (List.range 128).filterMap fun k =>
    let kind := v.u (48 + 16 * k) 1
    let inst := v.u (49 + 16 * k) 1
    if kind ≠ 0 ∧ kind ≠ 6 ∧ inst < 4 then some inst else none
  else [])

/-- The entries of SAFETY that belong to absent axes and are not all zeros (R434). -/
def strayEntries (s : State) (x : Section) : List Nat :=
  if x.id = secSafety then
    (List.range 4).filter fun n => !axPresent s (Fin.ofNat 4 n) && (slice x.body (32 + 64 * n) 64).any (· != 0)
  else []

def failUnit (unit id inst : Nat) : LoadFailure := ⟨evCfgUnitAbsent, place unit 24 8 + place id 16 8 + place inst 8 8, []⟩

/-- Check 4: NEEDS, then every unit that a section names, is present. -/
def checkUnits (s : State) (img : List Byte) (secs : List Section) : Option LoadFailure :=
  match (List.range 32).find? fun u => bitAt (imgNeeds img) u && !unitPresent s u with
  | some u => some (failUnit u 0 0)
  | none =>
    ((secs.flatMap fun x => (unitsOf s x ++ strayEntries s x).map fun u => (u, x)).find? fun p => !unitPresent s p.1).map fun p => failUnit p.1 p.2.id p.2.inst

/-- The presence mask of every unit the image names. -/
def namedMask (s : State) (secs : List Section) : Nat := (secs.flatMap (unitsOf s)).foldl (fun m u => m ||| 2 ^ u) 0

/-! ## Checks 5 to 8 -/

/-- A resource number of Table 4.11 that exists. -/
def resourceOk (r : Nat) : Bool :=
  let idx := r % 0x01000000
  match r / 0x01000000 with
  | 1 => signalBall (idx / 32) (idx % 32)
  | 2 => decide (idx < 36)
  | 3 | 8 => decide (idx < 8)
  | 4 => decide (idx < 256) && decide (idx % 32 < 20)
  | 5 => decide (idx < 16)
  | 6 => decide (idx < 24)
  | 7 => decide (idx < 1024)
  | 9 => decide (idx < 128)
  | 10 | 11 => decide (idx < 2)
  | _ => false
/-- A trigger code of an injected slot (R176). -/
def triggerOk (code : Nat) : Bool := (decide (0x10 ≤ code) && decide (code ≤ 0x1B)) || (decide (0x20 ≤ code) && decide (code ≤ 0x37)) || (decide (0x40 ≤ code) && decide (code ≤ 0x43))
/-- SELECT of an entry (R106, R176, R557). -/
def selectOk (r sel : Nat) : Bool :=
  let idx := r % 0x01000000
  match r / 0x01000000 with
  | 1 => sel == 0 || (sel == 1 && muxBall r)
  | 4 => decide (sel % 256 ≤ 39) && (if idx % 32 < 16 then sel / 256 == 0 else triggerOk (sel / 256))
  | _ => sel == 0
/-- The offsets of the map's entries that lie outside their ranges. -/
def mapRanges (body : List Byte) : List Nat :=
  breaks (decide (2040 < fieldU body 0 2)) 0 ++
  (List.range (fieldU body 0 2)).flatMap fun k =>
    let o := 8 + 8 * k
    breaks (!resourceOk (fieldU body o 4)) o ++ breaks (fieldU body (o + 4) 1 == 0 || decide (0x12 < fieldU body (o + 4) 1)) (o + 4) ++
    breaks (!selectOk (fieldU body o 4) (fieldU body (o + 6) 2)) (o + 6)

/-- The offsets of a section's fields that are used and outside their ranges. No check of R90 names a section whose INSTANCE Table 4.4 does not
list: it is out of range, at offset 0. DESIGN CHOICE (log entry 214), unsafe. -/
def rangeFlaws (s : State) (x : Section) : List Nat :=
  let v : SecView := ⟨s, x.inst, x.body⟩
  if !instanceOk x.id x.inst then [0]
  else if x.id = secOwnership then mapRanges x.body
  else if !sectionUsed s x then []
  else ((fieldsOf x.id).filter fun f => f.used v && !f.ok v (f.get v)).map (·.off)

/-- Check 5: GENERATION of the header, and every used field. -/
def checkRange (s : State) (img : List Byte) (secs : List Section) : Option LoadFailure :=
  let g := imgGeneration img
  if g = 0 ∨ g = 0xFFFFFFFF then some (failAt evCfgRange 0 0 8) else
  failFirst evCfgRange (secs.flatMap fun x => (rangeFlaws s x).map fun o => (sectionKey x, o))

/-- Check 6: NEEDS holds exactly the units named; the required sections; the rules of the owning chapters. -/
def checkConsistency (s : State) (img : List Byte) (secs : List Section) : Option LoadFailure :=
  if imgNeeds img ≠ namedMask s secs then some (failAt evCfgConsistency 0 0 16) else
  failFirst evCfgConsistency
    ((missingSections s).map (fun p => (p.1 * 256 + p.2, 0)) ++ secs.flatMap fun x => (rulesOf x s).map fun o => (sectionKey x, o))

/-- A ceiling of a certificate: torque 0, power 1, speed 2 (Table 19.4). -/
def certCeiling (cert : List Byte) (n : Fin 4) (k : Nat) : Q := fieldF cert (40 + 12 * n.val + 4 * k)

/-- Check 7 against a certificate (R518). -/
def checkLimits (s : State) (cert : Option (List Byte)) : Option LoadFailure :=
  match cert with
  | none => none
  | some c =>
    failFirst evCfgLimitRaised ((enAxes s).flatMap fun n =>
      (breaks (decide (certCeiling c n 2 < cfgF s secLimits 0 (4 * n.val))) (4 * n.val)).map (fun o => (secLimits * 256, o)) ++
      (breaks (decide (certCeiling c n 0 < cfgF s secControl n.val 84)) 84 ++ breaks (decide (certCeiling c n 1 < cfgF s secControl n.val 88)) 88 ++
        breaks (decide (certCeiling c n 1 < cfgF s secControl n.val 92)) 92).map fun o => (secControl * 256 + n.val, o))

/-- Check 8: the resource and its two claimants (R105, R91). -/
def checkOwnership (s : State) (secs : List Section) : Option LoadFailure :=
  (firstConflict s secs).map fun c =>
    ⟨evResourceConflict, c.resource, leBytes 4 c.resource ++ [BitVec.ofNat 8 c.first.1, BitVec.ofNat 8 c.first.2, BitVec.ofNat 8 c.second.1, BitVec.ofNat 8 c.second.2]⟩

/-! ## The sequence -/

/-- Checks 3 to 8 of an image that passed checks 1 and 2, with the certificate of check 7. -/
def checkContent (s : State) (img : List Byte) (cert : Option (List Byte)) : Option LoadFailure :=
  let p := probeOf s img
  let secs := imgSections img
  (checkCanonical secs).orElse fun _ => (checkUnits p img secs).orElse fun _ => (checkRange p img secs).orElse fun _ =>
    (checkConsistency p img secs).orElse fun _ => (checkLimits p cert).orElse fun _ => checkOwnership p secs

/-- Checks 1 to 8 (R90); none where the image passes. -/
def loadCheck (s : State) (img : List Byte) (cert : Option (List Byte)) : Option LoadFailure :=
  (checkFormat img).orElse fun _ => (checkSignature s img).orElse fun _ => checkContent s img cert

/-- The schedule that the Rigger builds for an image (R303). -/
def imageSchedule (s : State) (img : List Byte) : Except Infeasible Placement := schedule (probeOf s img)

/-- Check 10: the Rigger's placement of the contexts of an image. -/
def checkPlacement (s : State) (img : List Byte) : Option LoadFailure :=
  match imageSchedule s img with
  | .ok _ => none
  | .error f => some ⟨evPlacementInfeasible, infeasibleData f, []⟩

/-- All checks, as CFG.STAGE applies them (R99). -/
def stageCheck (s : State) (img : List Byte) : Option LoadFailure :=
  (loadCheck s img s.sec.cert).orElse fun _ =>
    if imgGeneration img ≤ (s.cfg.active.map imgGeneration).getD 0 then some (failPlain evCfgGeneration) else checkPlacement s img

/-- An image that passes becomes the shadow set, and its schedule is held until Ts (R99, R303). -/
def holdShadow (s : State) (img : List Byte) (slot : Bool) : State :=
  let places := match imageSchedule s img with
    | .ok p => p.map fun x => (x.1.num, x.2)
    | .error _ => []
  { s with cfg := { s.cfg with shadow := some img, shadowSlot := slot }, rig := { s.rig with staged := places } }

/-- The event of a failed check, where its code has a severity (R91). -/
def raiseLoad (s : State) (f : LoadFailure) : State := raise s f.code 0xFF f.data

end Sys2Proof.Machine
end

