-- ==== Sys2Proof/Machine/TackRules.lean ====
section
/-! DEFINITION. Differences between images (R95 to R98), and what a tack may change (R92, R101, R346, R456). -/
namespace Sys2Proof.Machine
open Sys2Proof

/-! ## Where two images differ -/

/-- The sections that two images do not share byte for byte, in canonical order: the key, and each body where it exists. -/
structure SecDiff where
  id : Nat
  inst : Nat
  a : Option (List Byte)
  b : Option (List Byte)

/-- A number put into an ascending list that has none twice. -/
def insertKey (k : Nat) : List Nat → List Nat
  | [] => [k]
  | x :: xs => if k < x then k :: x :: xs else if k = x then x :: xs else x :: insertKey k xs

def imgDiffs (a b : List Byte) : List SecDiff :=
  let sa := imgSections a
  let sb := imgSections b
  let keys := ((sa ++ sb).map fun x => sectionKey x).foldr insertKey []
  let body (l : List Section) (k : Nat) : Option (List Byte) := (l.find? fun x => sectionKey x == k).map (·.body)
  (keys.map fun k => (⟨k / 256, k % 256, body sa k, body sb k⟩ : SecDiff)).filter fun d => d.a != d.b

/-- The fields of a section that differ; every field where one image lacks the section. -/
def SecDiff.fields (d : SecDiff) : List Field :=
  match d.a, d.b with
  | some x, some y => (fieldsOf d.id).filter fun f => bitsOf (fieldU x f.off f.size) f.lo f.width != bitsOf (fieldU y f.off f.size) f.lo f.width
  | _, _ => fieldsOf d.id

/-- A field of a section is used in an image: `p` is the state with the image as its active set. -/
def usedIn (p : State) (d : SecDiff) (body : List Byte) (f : Field) : Bool :=
  sectionUsed p ⟨d.id, d.inst, 0, body⟩ && f.used ⟨p, d.inst, body⟩

/-- The unit that a section configures is enabled in the set in force (R96). -/
def sectionEnabled (p : State) (d : SecDiff) : Bool :=
  if axisSection d.id then axEnabled p (Fin.ofNat 4 d.inst)
  else if d.id = secPosition then posMode p (Fin.ofNat 4 d.inst) != 0
  else if d.id = secAux then unitPresent p 17 && cfgU p secAux 0 0 1 != 0
  else if d.id = secCan then unitPresent p (8 + d.inst)
  else if d.id = secSafeIn then unitPresent p 16
  else if d.id = secRing then unitPresent p 14
  else true

/-- A difference of a section is LIVE (R96). -/
def SecDiff.live (d : SecDiff) (pa pb : State) : Bool :=
  match d.a, d.b with
  | some x, some y => d.id == secOwnership || d.fields.any fun f => usedIn pa d x f || usedIn pb d y f
  | _, _ => sectionEnabled pa d || sectionEnabled pb d

/-- The class of the difference between two images, and its first differing section (R96, R97). -/
def classify (s : State) (a b : List Byte) : DiffClass × Nat :=
  if a = b then (.same, 0) else
  let ds := imgDiffs a b
  let pa := probeOf s a
  let pb := probeOf s b
  let live := imgNeeds a != imgNeeds b || imgCertKeyHash a != imgCertKeyHash b || ds.any fun d => d.live pa pb
  (if live then .live else .latent, match ds with | d :: _ => d.id * 256 + d.inst | [] => 0)

/-- A difference takes effect: FAULTSUM.CFG_DIFF, its event, and the record with both digests (R97). -/
def raiseDiff (s : State) (c : DiffClass × Nat) (active other : List Byte) : State :=
  match c.1 with
  | .same => { s with cfg := { s.cfg with diff := .same, diffAt := 0 } }
  | .latent | .live =>
    let t := raise { s with cfg := { s.cfg with diff := c.1, diffAt := c.2 } } (if c.1 = .live then evCfgDiffLive else evCfgDiffLatent) 0xFF (place c.2 16 16)
    logRec (logRec t 0x0014 sevInfo 0 (imgDigest active)) 0x0014 sevInfo 1 (imgDigest other)

/-! ## Tack classes -/

/-- The axes that use a delta-sigma channel: their SENSE or TRIP section names it. -/
def channelAxes (p : State) (k : Nat) : List (Fin 4) :=
  allAxes.filter fun n => axEnabled p n &&
    (([36, 48, 60] : List Nat).any (fun b => cfgU p secSense n.val b 1 == 2 && cfgU p secSense n.val (b + 1) 1 == k) ||
     (List.range (min 4 (cfgU p secTrip n.val 3 1))).any fun j => cfgU p secTrip n.val (112 + 12 * j) 1 == k)

/-- The axes that a COLD field affects in one image (R92, R93, R456). -/
def affectedIn (p : State) (inst : Nat) (body : List Byte) : Affects → List (Fin 4)
  | .all => allAxes
  | .own => [Fin.ofNat 4 inst]
  | .axis n => [Fin.ofNat 4 n]
  | .groupOf n => Fin.ofNat 4 n :: (if axGroup p (Fin.ofNat 4 n) = 0 then [] else axMembers p (Fin.ofNat 4 n))
  | .ifc => if fieldU body 0 1 = 0 then [] else [Fin.ofNat 4 (fieldU body 2 1)]
  | .chan k => channelAxes p k
  | .clock c => (List.range 16).flatMap fun k => if dsClock p k = c then channelAxes p k else []
  | .safeIn => allAxes.filter fun n => siFor p n.val fun _ => true
  | .safeOut k =>
    match fieldU body (12 * k) 1 with
    | 1 | 3 => allAxes.filter (axEnabled p)
    | 2 => allAxes.filter fun n => axEnabled p n && safetyU p n 2 1 == k
    | _ => []
  | .auxiliary => []
  | .ringAxes => allAxes.filter fun n => axEnabled p n && pwmU p n 2 1 == 5
  | .ringGroup g => if fieldU body (32 + 32 * g) 1 < 4 then [Fin.ofNat 4 (fieldU body (32 + 32 * g) 1)] else []

/-- The axes whose resources an OWNERSHIP entry names (R106): by its owner. -/
def entryAxes (p : State) (e : Owned) : List (Fin 4) :=
  match e.function with
  | 0x01 | 0x02 | 0x03 | 0x0C | 0x12 => if e.inst < 4 then [Fin.ofNat 4 e.inst] else []
  | 0x04 => if e.inst < 4 ∧ posMode p (Fin.ofNat 4 e.inst) ≠ 0 then [posAxis p (Fin.ofNat 4 e.inst)] else []
  | _ => []

/-- The axes that must be OFF for a section to change, by its COLD fields that differ. -/
def SecDiff.coldAxes (d : SecDiff) (pa pb : State) : List (Fin 4) :=
  let x := d.a.getD []
  let y := d.b.getD []
  if d.id = secOwnership then
    let ex := ownedEntries x
    let ey := ownedEntries y
    (ex.filter fun e => !ey.contains e).flatMap (entryAxes pa) ++ (ey.filter fun e => !ex.contains e).flatMap (entryAxes pb)
  else
    let whos := (d.fields.filterMap fun f => match f.cls with | .cold w => some w | _ => none).eraseDups
    whos.flatMap fun w => affectedIn pa d.inst x w ++ affectedIn pb d.inst y w

/-- A COLD field of the auxiliary channel differs (R346). -/
def SecDiff.coldAux (d : SecDiff) : Bool := d.fields.any fun f => f.cls == .cold .auxiliary
/-- A BOOT field differs. -/
def SecDiff.boot (d : SecDiff) : Bool := d.id != secOwnership && d.fields.any fun f => f.cls == .boot

/-! ## Refusals of a tack (Table 4.9) -/

/-- The channel is energised, or holds a move (R346). -/
def auxBusy (s : State) : Bool := s.aux.energised || s.aux.held.isSome

/-- A resource claimed at run time changes its owner (R110, R385). -/
def claimChanges (s : State) (pb : State) : Bool :=
  s.cfg.claims.any fun c => (ownerOf s c.resource).map (fun e => (e.function, e.inst)) != (ownerOf pb c.resource).map fun e => (e.function, e.inst)

/-- The reason that refuses a tack of the shadow set (R101), for the ring too: at a follower of a ring tack RING_FOLLOWER does not
count (R500). -/
def tackReason (s : State) (generation : Nat) (inRing : Bool) : Option Nat :=
  match s.cfg.shadow, s.cfg.active with
  | some b, some a =>
    if imgGeneration b ≠ generation then some 0x01
    else if s.cfg.diff ≠ .same then some 0x02
    else if s.sec.locked then some 0x03
    else
      let pb := probeOf s b
      let ds := imgDiffs a b
      if (ds.any fun d => (d.coldAxes s pb).any fun n => axPresent s n && (s.axis n).core.st != .off) || (auxBusy s && ds.any SecDiff.coldAux) then some 0x04
      else if imgCertKeyHash a != imgCertKeyHash b || ds.any SecDiff.boot then some 0x05
      else if claimChanges s pb then some 0x06
      else if s.ring.role = .follower ∧ !inRing then some 0x07
      else if ringDivergent s then some 0x08
      else none
  | _, _ => some 0x01

/-! ## The swap instant (R102) -/

/-- The tack reference carrier: that of the lowest-numbered enabled axis. -/
def referenceAxis (s : State) : Option (Fin 4) := allAxes.find? (axEnabled s)

/-- Ts, and the carrier count of the period that begins there: the first valley that lies at least 4 periods after now. Drive time
counts 10 ns, a PWM clock is 2.5 ns. With no axis enabled there is no carrier to count, and the count is a free value. -/
def swapInstant (s : State) : (Nat × Nat) × State :=
  let now := s.clk.drive.toNat
  match referenceAxis s with
  | none =>
    let (c, t) := drawNat s
    (((now + 40000 + 9999) / 10000 * 10000, c % 2 ^ 32), t)
  | some n =>
    let l := axLeader s n
    let p := (s.axis l).pwm
    let per := if p.active.period = 0 then max 1 (periodClocks s l) else p.active.period
    let valley : Int := 4 * (p.eventAt : Int) - (if p.eventPeak then ((per / 2 : Nat) : Int) else 0)
    let since := (4 * (now : Int) - valley).toNat
    let k := (since + 4 * per + per - 1) / per
    ((((valley + ((k * per : Nat) : Int)) / 4).toNat, (p.carrier + k) % 2 ^ 32), s)

end Sys2Proof.Machine
end

