-- ==== Sys2Proof/Machine/Configuration.lean ====
section
/-! DEFINITION. The configuration commands and the tack (R84, R85, R90, R91, R95 to R104). -/
namespace Sys2Proof.Machine
open Sys2Proof

/-! ## Writing a slot -/

/-- CFG.WRITE_BEGIN (R84, R85): the slot is erased, and the command completes with the erase. -/
def execCfgWriteBegin (slot : Nat) (s : State) : Result :=
  command s slot 0x0201 fun s j =>
    let b := j.u 0 1 == 1
    let other := (s.slot (!b)).state
    if 1 < j.u 0 1 || 262144 < j.u 4 4 || other == .pending || other == .copying || ((s.slot b).state == .current && other != .current) then badParameter s j
    else markStarted ({ (s.setSlot b ⟨[], .invalid⟩) with cfg := { (s.setSlot b ⟨[], .invalid⟩).cfg with writing := none } }) j.slot

/-- The erase is complete: data may be written. -/
def finishWriteBegin (s : State) (j : Job) : State :=
  respond { s with cfg := { s.cfg with writing := some (j.u 0 1 == 1, j.u 4 4) } } j 0 []

/-- Bytes written over an erased slot. -/
def programSlot (bytes : List Byte) (off : Nat) (data : List Byte) : List Byte :=
  overlay (bytes ++ List.replicate (off - bytes.length) 0xFF#8) off data

/-- CFG.WRITE_DATA: into the slot that CFG.WRITE_BEGIN opened, within the size it gave. -/
def execCfgWriteData (slot : Nat) (s : State) : Result :=
  command s slot 0x0202 fun s j =>
    let off := j.u 0 4
    let data := j.payload.drop 4
    match s.cfg.writing with
    | none => badParameter s j
    | some (b, size) =>
      if off % 4 ≠ 0 || size < off + data.length || (if j.proto = 1 then 48 else 488) < data.length || j.payload.length < 4 then badParameter s j
      else
        let x := s.slot b
        succeed s (s.setSlot b { x with bytes := programSlot x.bytes off data }) j []

/-- CFG.WRITE_END: the image is checked in the background. -/
def execCfgWriteEnd (slot : Nat) (s : State) : Result :=
  command s slot 0x0203 fun s j =>
    match s.cfg.writing with
    | none => badParameter s j
    | some (b, _) => if j.u 0 1 ≠ (if b then 1 else 0) then badParameter s j else markStarted s j.slot

/-- The result of CFG.WRITE_END (R85, R90, R91): CURRENT, PENDING or INVALID. An image that does not lie in the slot (check 1) has no
generation and digest: free values. A CURRENT slot ends an outstanding difference (R98). -/
def finishWriteEnd (s : State) (j : Job) : State :=
  let b := j.u 0 1 == 1
  let x := s.slot b
  let img := slotImg x
  let t := { s with cfg := { s.cfg with writing := none } }
  match loadCheck s img s.sec.cert with
  | some f =>
    let u := raiseLoad (t.setSlot b { x with state := .invalid }) f
    if f.code = evCfgBadFormat then
      let (bs, v) := drawBytes u 36
      respond v j 0 (leBytes 2 f.code ++ [0, 0] ++ bs)
    else respond u j 0 (leBytes 2 f.code ++ [0, 0] ++ leBytes 4 (imgGeneration img) ++ imgDigest img)
  | none =>
    let same := t.cfg.active == some img
    let u := t.setSlot b { x with state := if same then .current else .pending }
    let v := if same && (u.slot (!b)).state != .differing then { u with cfg := { u.cfg with diff := .same, diffAt := 0 } } else u
    respond v j 0 ([0, 0, 0, 0] ++ leBytes 4 (imgGeneration img) ++ imgDigest img)

/-! ## Digest, stage, discard -/

def diffCode : DiffClass → Nat
  | .same => 0 | .latent => 1 | .live => 2

/-- The image that CFG.DIGEST names. -/
def digestSet (s : State) (set : Nat) : Option (List Byte) :=
  let stored (x : CfgSlot) : Option (List Byte) := if x.state = .invalid ∨ x.state = .copying then none else some (slotImg x)
  match set with
  | 0 => s.cfg.active
  | 1 => s.cfg.shadow
  | 2 => stored s.cfg.slotA
  | _ => stored s.cfg.slotB
/-- The difference of a set or slot: only a slot that R95 compares can have one. -/
def digestDiff (s : State) (set : Nat) : Nat :=
  if set = 0 ∨ (set = 2 ∧ s.cfg.slotA.state = .differing) ∨ (set = 3 ∧ s.cfg.slotB.state = .differing) then diffCode s.cfg.diff else 0

/-- CFG.DIGEST. Generation and digest of a set that is not there are free values. -/
def execCfgDigest (slot : Nat) (s : State) : Result :=
  command s slot 0x0204 fun s j =>
    if 3 < j.u 0 1 then badParameter s j else
    match digestSet s (j.u 0 1) with
    | some img => succeed s s j (leBytes 4 (imgGeneration img) ++ imgDigest img ++ leBytes 2 (digestDiff s (j.u 0 1)))
    | none =>
      let (bs, t) := drawBytes s 36
      succeed s t j (bs ++ leBytes 2 (digestDiff s (j.u 0 1)))

/-- CFG.STAGE (R99): a PENDING slot, with no tack pending. -/
def execCfgStage (slot : Nat) (s : State) : Result :=
  command s slot 0x0205 fun s j =>
    if 1 < j.u 0 1 || (s.slot (j.u 0 1 == 1)).state != .pending then badParameter s j
    else if s.cfg.tack.isSome then refuse s j rsTackPending
    else markStarted s j.slot

/-- The result of CFG.STAGE: the shadow set, or the failing code with the payload of Table 22.3. A slot that fails one of checks 1 to 8
is INVALID (R85). -/
def finishStage (s : State) (j : Job) : State :=
  let b := j.u 0 1 == 1
  let x := s.slot b
  match stageCheck s (slotImg x) with
  | none => respond (holdShadow s (slotImg x) b) j 0 (leBytes 4 (imgGeneration (slotImg x)))
  | some f =>
    let t := if f.code = evCfgGeneration ∨ f.code = evPlacementInfeasible then s else s.setSlot b { x with state := .invalid }
    respond (raiseLoad t f) j f.code (if f.payload.isEmpty then leBytes 4 f.data else f.payload)

/-- CFG.DISCARD (R99): the shadow set is deleted, and a PENDING slot is rewritten from the active set. -/
def execCfgDiscard (slot : Nat) (s : State) : Result :=
  command s slot 0x0207 fun s j =>
    if s.cfg.tack.isSome then refuse s j rsTackPending else
    let t := { s with cfg := { s.cfg with shadow := none } }
    let u := if t.cfg.slotA.state = .pending then startCopy t false else if t.cfg.slotB.state = .pending then startCopy t true else t
    succeed s u j []

/-- A twin copy is complete (R95, R100): the slot holds the active set, with which it is compared. -/
def execTwinCopyDone (s : State) : Result :=
  match s.cfg.active with
  | none => .next s
  | some img =>
    let done (b : Bool) : State := (s.setSlot b ⟨img, .current⟩)
    let end_ (t : State) : Result := finish s (raise { t with cfg := { t.cfg with diff := .same, diffAt := 0, copyBroken := false } } evTwinCopyDone 0xFF 0)
    if !pairAWorks s then .next s else
    if s.cfg.slotA.state = .copying then end_ (done false) else if s.cfg.slotB.state = .copying then end_ (done true) else .next s

/-! ## The tack -/

/-- CFG.TACK (R101, R102). At the timing master of a ring with other members in step it starts a ring tack (R500). -/
def execCfgTack (slot : Nat) (s : State) : Result :=
  command s slot 0x0206 fun s j =>
    match tackReason s (j.u 0 4) false, s.cfg.shadow with
    | some r, _ => respond s j evTackRefused (leBytes 2 r)
    | none, none => s
    | none, some img =>
      if s.ring.role = .master ∧ !(othersInStep s).isEmpty then
        let t := announce (ringSend s 0x06 (leBytes 4 (imgGeneration img) ++ imgDigest img)) (imgGeneration img) (imgDigest img)
        markStarted { t with
          cfg := { t.cfg with tack := some ⟨2 ^ 64, 0, true⟩ }
          ring := { t.ring with tack := some ⟨[], j.slot, t.clk.now, false⟩ } } j.slot
      else
        let ((ts, c), t) := swapInstant s
        markStarted { t with cfg := { t.cfg with tack := some ⟨ts, c, false⟩ } } j.slot

/-- A function whose COLD fields a tack changes starts anew: what locked it or was pending goes, and it stays active, where it is still used, until
the next sample evaluates it: DESIGN CHOICE (log entry 272), unsafe. -/
def swapFn (d : SecDiff) (s : State) (f : Fin 8) : State :=
  let entry (b : Option (List Byte)) : List Byte := slice (b.getD []) (32 + 16 * f.val) 8
  if d.id = secSafeIn ∧ entry d.a ≠ entry d.b then
    s.setFn f fun x => { SiFn.reset with active := x.active && fieldU (entry d.b) 0 1 != 0, endSto := x.endSto }
  else s

def swapSafeIn (s : State) (d : SecDiff) : State := allFns.foldl (swapFn d) s

/-- The units that have a boundary of their own after Ts (R103): axes whose carrier runs and that the new set `b` enables too, and the Backstay
while Pair A feeds it. An axis that the new set disables changes at Ts. -/
def lagUnits (s : State) (b : List Byte) : Nat :=
  let stays (n : Fin 4) : Bool := bitAt (fieldU ((imgBody b secSystem 0).getD []) 4 1) n.val
  (allAxes.map fun n => if axEnabled s n && stays n && (s.axis n).pwm.running && !bitAt s.clk.lost 2 then place 1 n.val 1 else 0).sum +
  (if s.back.copy.isSome && !s.lock.pairAFailed && !s.lock.pairs[0].halted then 16 else 0)

/-- A POSITION section whose COLD fields change: the interface starts anew, and a held move of its axis is discarded (R332). -/
def swapInterface (old s : State) (d : SecDiff) : State :=
  if d.id = secPosition ∧ d.fields.any (fun f => f.cls == .cold .ifc) then
    let i : Fin 4 := Fin.ofNat 4 d.inst
    let axes := (affectedIn old d.inst (d.a.getD []) .ifc ++ affectedIn s d.inst (d.b.getD []) .ifc).eraseDups
    axes.foldl discardMove (s.setIfc i fun _ => { PosIfc.reset with updated := s.clk.now })
  else s

/-- The balls that two sets give to different owners, or to different functions by SELECT (R557, R559). -/
def movedBalls (a b : List Byte) : List Nat :=
  let own (img : List Byte) : List Owned := (ownedEntries ((imgBody img secOwnership 0).getD [])).filter fun e => e.resource / 0x01000000 == 1
  (((own a ++ own b).filter fun e => (own a).contains e != (own b).contains e).map (·.resource)).eraseDups

/-- A move whose PROFILE fields change is planned again at the first profile period after Ts (R333). -/
def swapProfile (s : State) (d : SecDiff) : State :=
  if h : d.id = secProfile ∧ d.inst < 4 then s.setProf ⟨d.inst, h.2⟩ fun p => { p with replan := p.replan || p.moving } else s

/-- The shadow set becomes the active set at Ts (R103): loop contexts, the schedule, and the units without a carrier change now; the
PWM and trip parameters and the Backstay at their own boundaries. -/
def swapSets (s : State) (a b : List Byte) : State :=
  let lag := lagUnits s b
  let t := { s with
    cfg := { s.cfg with active := some b, shadow := none, prev := some a, lag := lag, movedBalls := movedBalls a b, movedAt := s.clk.now }
    ring := { s.ring with graceUntil := s.clk.now + 200000 } }
  let u := (imgDiffs a b).foldl swapSafeIn ((imgDiffs a b).foldl swapProfile ((imgDiffs a b).foldl (swapInterface s) t))
  let v := allAxes.foldl (fun w n => if unitPresent w (8 + n.val) then canAdopt s w n else w) (startCarriers u)
  let w := unlagged (fun u => adoptSchedule u (placementOf u u.rig.staged)) v
  let x := w.forAxes axEnabled fun y n => y.setAxis n fun c => { c with ctl := { c.ctl with spinDue := true, spinMs := 0 } }
  if cfgU s secHost 0 0 2 = 0 then { x with host := { x.host with beatSpi := x.clk.now, beatCan := x.clk.now } } else x

/-- Ts of the pending tack (R103). -/
def execTackSwap (s : State) : Result :=
  match s.cfg.tack, s.cfg.active, s.cfg.shadow with
  | some k, some a, some b =>
    if !pairAWorks s ∨ s.clk.drive.toNat < k.ts ∨ s.cfg.prev.isSome then .next s else finish s (tackDone (swapSets s a b))
  | _, _, _ => .next s

/-! ## Long commands -/

/-- A long command that runs in the background completes (R73): the erase of a slot, the check of an image, a stage. The others are
answered by what they wait for. -/
def execLongCommandComplete (slot : Nat) (s : State) : Result :=
  match if hostServed s then runningJob s slot else none with
  | none => .next s
  | some j =>
    if j.code = 0x0201 then finish s (finishWriteBegin s j)
    else if j.code = 0x0203 then finish s (finishWriteEnd s j)
    else if j.code = 0x0205 then finish s (finishStage s j)
    else .next s

end Sys2Proof.Machine
end

