-- ==== Sys2Proof/Machine/SecurityOps.lean ====
section
/-! DEFINITION. The tamper response and what the security controller shares (R509 to R542): the sources of Table 19.6, LOCK and ERASE,
nonces, signatures and the certificate in force. -/
namespace Sys2Proof.Machine
open Sys2Proof

/-! ## The tamper-flags word (Table 19.15 word 0) -/

/-- Glitches within the last 24 h of RTC time. -/
def recentGlitches (s : State) : List Nat := s.sec.glitchTimes.filter fun t => decide (s.clk.rtc < t + 86400 * 32768)
/-- Sources active now: their last samples still show what detected them (Table 19.15 word 0, bits 3 to 1). -/
def meshActive (s : State) : Bool := s.sec.meshRun[0] == 2 || s.sec.meshRun[1] == 2
def encActive (s : State) : Bool := s.sec.encRun[0] == 4 || s.sec.encRun[1] == 4
def tempActive (s : State) : Bool := s.sec.tempRun == 2
def tamperWord (s : State) : Nat :=
  s.sec.tamperHeld + place (min 15 (recentGlitches s).length) 16 4 + place (ofFlag (meshActive s)) 3 1 + place (ofFlag (encActive s)) 2 1 +
  place (ofFlag (tempActive s)) 1 1

/-- The sources, numbered as the rows of Table 19.6 from 1 (R545). -/
def srcMesh : Nat := 1
def srcLight : Nat := 2
def srcEnclosure : Nat := 3
def srcSupplyGlitch : Nat := 4
def srcClockGlitch : Nat := 5
def srcTemperature : Nat := 6
def srcAon : Nat := 7
def srcStall : Nat := 8
def srcAuth : Nat := 9
def srcVbat : Nat := 10

/-- The event of a source (R520). -/
def tamperEvent (src : Nat) : Nat :=
  match src with
  | 1 => evTamperMesh | 2 => evTamperLight | 3 => evTamperEnclosure | 4 | 5 => evTamperGlitch | 6 => evTamperTemperature
  | 7 => evAonClockLoss | 8 => evLogStall | 9 => evTamperAuth | _ => evKeysErased

/-- The source performs ERASE: an enclosure switch does with ENC_ERASE. -/
def tamperErases (s : State) (src : Nat) : Bool := src == srcMesh || src == srcLight || src == srcVbat || (src == srcEnclosure && bitAt s.sec.tamperCfg 4)
/-- The source applies LOCK. A glitch does at the third within 24 h, apart. -/
def tamperLocks (src : Nat) : Bool := src != srcSupplyGlitch && src != srcClockGlitch

/-! ## LOCK and ERASE (R520, R522) -/

/-- LOCK: the debug port closes, and a tack before Ts is aborted. -/
def applyLock (s : State) : State := tackAbort { s with sec := { s.sec with locked := true, debugOpen := false } }
/-- ERASE: the key register with its canary, the session keys and the nonces are zeroised; LOCK is included. -/
def applyErase (s : State) : State :=
  applyLock { s with sec := { s.sec with logKey := none, canary := false, nonces := Vector.replicate 3 none, erased := true } }

/-! ## Records and events -/

/-- A SECURITY record (Table 19.10). The spec gives the action byte no numbers: a free value. -/
def securityRecord (s : State) (src rtc : Nat) : State :=
  let (a, t) := drawNat s
  logRec t 0x0017 sevAlarm 0xFF ([BitVec.ofNat 8 src, BitVec.ofNat 8 a, 0, 0] ++ leBytes 4 (tamperWord t) ++ leBytes 8 rtc)

/-- The report of an ERASE (R534, R536): KEYS_ERASED with an IDSIG pair, and the counters. -/
def eraseReport (s : State) (src : Nat) : State := counterRecords (logIdSig (raise s evKeysErased 0xFF src))

/-- The event and the records of a source that was detected at an RTC time. -/
def tamperReport (s : State) (src rtc : Nat) : State :=
  let t := securityRecord (if src = srcVbat then s else raise s (tamperEvent src) 0xFF src) src rtc
  if tamperErases s src then eraseReport t src else t

/-- Firmware is up and the log has resumed: a detection is reported at once. Before that, and in SLEEP, it waits in the tamper
slot of the staging RAM (R520). -/
def tamperServed (s : State) : Bool := firmwareUp s && s.log.resumed

/-- A tamper source acts (R520): its action, its held bit, and its report. -/
def tamper (s : State) (src held : Nat) : State :=
  let t := { s with sec := { s.sec with tamperHeld := s.sec.tamperHeld ||| held } }
  let u := if tamperErases t src then applyErase t else if tamperLocks src then applyLock t else t
  if tamperServed u then tamperReport u src u.clk.rtc
  else { u with sec := { u.sec with aonTamper := u.sec.aonTamper ++ [(src, u.clk.rtc)] } }

/-- The detections that waited enter the chain, once the log has resumed. -/
def tamperFlush (s : State) : State :=
  let w := s.sec.aonTamper
  w.foldl (fun t p => tamperReport t p.1 p.2) { s with sec := { s.sec with aonTamper := [] } }

/-! ## Signatures of SEC commands (R520, R523, R539) -/

/-- A failed signature: the fifth within 1 h of RTC time applies LOCK, once until LOCK is cleared. -/
def authFailed (s : State) : State :=
  let times := s.clk.rtc :: s.sec.authTimes.filter fun t => decide (s.clk.rtc < t + 3600 * 32768)
  let t := { s with sec := { s.sec with authTimes := times, authFails := satInc 8 s.sec.authFails } }
  if decide (5 ≤ times.length) && !bitAt t.sec.tamperHeld 22 then tamper t srcAuth (2 ^ 22) else t

/-- An unused nonce of a purpose, at most 10 s old. -/
def nonceOf (s : State) (k : Fin 3) : Option (List Byte) :=
  (s.sec.nonces[k.val]).bind fun n => if s.clk.now ≤ n.issued + 1000000000 then some n.bytes else none
/-- A nonce is used. -/
def useNonce (s : State) (k : Fin 3) : State := { s with sec := { s.sec with nonces := vupd s.sec.nonces k fun _ => none } }

/-- SHA-256(NONCE ‖ UID ‖ tag ‖ LIFECYCLE.STATE), what SEC.UNLOCK and SEC.CLEAR_LOCK sign. -/
def authDigest (s : State) (nonce : List Byte) (tag : Nat) : List Byte :=
  sha256 (nonce ++ leBytes 8 s.sec.fuses.uid ++ [BitVec.ofNat 8 tag, BitVec.ofNat 8 (lifeCode s.sec.life)])
/-- SECURITY.AUTH_PUBKEY of the active set. -/
def authKey (s : State) : List Byte := slice (cfgBody s secSecurity 0) 72 64

/-! ## Limit certificates (R515, R516) -/

def certSerial (c : List Byte) : Nat := fieldU c 16 4
/-- The key hash that a certificate must name (R515): the header's, else the fused one. -/
def certKeyHash (s : State) (img : List Byte) : List Byte :=
  let h := imgCertKeyHash img
  if h = List.replicate 32 0 then s.sec.fuses.limKeyHash else h
/-- Key hash and signature (check 3 of Table 19.5). -/
def certSigned (s : State) (img c : List Byte) : Bool :=
  c.length == 216 && sha256 (slice c 88 64) == certKeyHash s img && ecdsaVerify (slice c 88 64) (sha256 (slice c 0 152)) (slice c 152 64)
/-- MAGIC, FORMAT and UID. -/
def certShape (s : State) (c : List Byte) : Bool :=
  fieldU c 0 4 == 0x5452434C && fieldU c 4 2 == 1 && fieldU c 8 8 == s.sec.fuses.uid

/-- The certificate in force under the key hash of an image: the valid copy with the higher SERIAL, not below CERT_FLOOR. -/
def chooseCert (s : State) (img : List Byte) : Option (List Byte × Bool) :=
  let ok (c : List Byte) : Bool := certShape s c && certSigned s img c && decide (s.sec.certFloor ≤ certSerial c)
  let a := if ok s.sec.certA then [(s.sec.certA, false)] else []
  let b := if ok s.sec.certB then [(s.sec.certB, true)] else []
  (a ++ b).foldl (fun acc c => match acc with | none => some c | some d => if certSerial d.1 < certSerial c.1 then some c else some d) none

/-- CERT_FLOOR as it is rebuilt: the value of the staging RAM or the newest SERIAL of the CERT records, whichever is larger. -/
def rebuiltFloor (s : State) : Nat :=
  ((s.log.region ++ s.log.staged).filter fun r => r.type == 0x0016).foldl (fun m r => max m (fieldU r.body 4 4)) s.sec.certFloor

/-! ## The log key (R511, R524, R534) -/

/-- A new log key from the true random generator: a number between 1 and the order of the curve. -/
def makeLogKey (s : State) : State :=
  let (x, t) := drawNat s
  { t with sec := { t.sec with logKey := some (1 + x % (p256N - 1)), canary := true, keyMade := true } }
/-- The public key is published as two KEY records and an IDSIG pair. -/
def publishLogKey (s : State) : State :=
  match s.sec.logKey with
  | none => s
  | some k =>
    let pub := ecdsaPub k
    logIdSig (logRec (logRec s 0x001A sevInfo 0 (slice pub 0 32)) 0x001A sevInfo 1 (slice pub 32 32))

end Sys2Proof.Machine
end

