-- ==== Sys2Proof/Machine/DriveLog.lean ====
section
/-! DEFINITION. The drive log at work: flushing, sectors and gaps, stalls, checkpoints, counters, and the LOG commands (R527 to R538). -/
namespace Sys2Proof.Machine
open Sys2Proof

/-! ## The region (R533, Table 19.14) -/

/-- Records that the region and one of its sectors hold. -/
def regionRecords (s : State) : Nat := cfgU s secLog 0 8 4 / 64
def sectorRecords (s : State) : Nat := cfgU s secLog 0 12 4 / 64

/-- A GAP record, counted (Table 19.16). -/
def gapRecord (s : State) (first last : Nat) : State :=
  let t := logRec s 0x0018 sevWarn 0xFF (leBytes 8 first ++ leBytes 8 last)
  { t with log := { t.log with gaps := satInc 16 t.log.gaps } }

/-- The place of a record in the region, and the record whose place it takes over with its sector (R533). -/
def overwritten (s : State) (index : Nat) (r : LogRecord) : Bool :=
  decide (r.index + regionRecords s < index + sectorRecords s)

/-- The sector that record `index` begins is erased; unexported records in it are reported as lost (R533). -/
def eraseSector (s : State) (index : Nat) : State :=
  if index % regionRecords s % sectorRecords s ≠ 0 then s else
  let gone := s.log.region.filter (overwritten s index)
  let t := { s with log := { s.log with region := s.log.region.filter fun r => !overwritten s index r } }
  match gone.filter fun r => decide (s.log.exported ≤ r.index) with
  | [] => t
  | r :: rs =>
    let last := ((r :: rs).getLast?.map (·.index)).getD r.index
    let u := gapRecord t r.index last
    raise { u with host := { u.host with logGap := true } } evLogGap 0xFF (last + 1 - r.index)

/-- Records refused are reported once 8 slots are free again (R531). -/
def reportDropped (s : State) : State :=
  if s.log.dropped = 0 ∨ logFree s < 8 then s else
  logRec { s with log := { s.log with dropped := 0 } } 0x0019 sevInfo 0xFF (leBytes 4 s.log.dropped)

/-- The store accepts the write of record `index`: the program takes no longer than PROG_TIME, and where the record begins a sector the erase no
longer than ERASE_TIME (Table 19.14). -/
def storeAccepts (s : State) (index : Nat) (erase program : Q) : Bool :=
  decide (program ≤ cfgF s secLog 0 24) && (index % regionRecords s % sectorRecords s != 0 || decide (erase ≤ cfgF s secLog 0 20))

/-- The oldest committed record is written to the region, or the store does not accept the write (R531 to R533). -/
def execLogFlush (erase program : Q) (s : State) : Result :=
  match s.log.staged with
  | [] => .next s
  | r :: rest =>
    if s.power.inReset || s.mode == .sleep || !s.log.resumed || regionRecords s = 0 then .next s
    else if !storeAccepts s r.index erase program then finish s { s with log := { s.log with storeOk := false } }
    else
      let t := eraseSector { s with log := { s.log with staged := rest } } r.index
      finish s (reportDropped { t with log := { t.log with
        region := t.log.region ++ [r], storeOk := true, stalled := false, writeAt := t.clk.now } })

/-- The staging RAM is flushed to the log region. -/
def flushAll (s : State) : State :=
  if regionRecords s = 0 then s else
  s.log.staged.foldl (fun t (r : LogRecord) =>
    let u := eraseSector { t with log := { t.log with staged := t.log.staged.drop 1 } } r.index
    { u with log := { u.log with region := u.log.region ++ [r], writeAt := u.clk.now } }) s

/-- The store has accepted no write for STALL_TIME while records waited (R532). -/
def execLogStall (s : State) : Result :=
  if s.log.staged.isEmpty || s.log.stalled || !firmwareUp s || !pairBTasksWork s || decide (s.clk.now < s.log.writeAt + ticksOf (cfgF s secLog 0 32)) then .next s
  else finish s (tamper { s with log := { s.log with stalled := true, storeOk := false } } srcStall (2 ^ 23))

/-- The signature of a full block is complete (R529). -/
def execCheckpointSigned (s : State) : Result :=
  if s.log.signing then finish s (logCheckpoint s) else .next s

/-! ## Counters (R535, R536) -/

/-- COUNTER_PERIOD has passed. -/
def execCountersRecord (s : State) : Result :=
  if !firmwareUp s || !pairBTasksWork s || !s.log.resumed || s.clk.now < s.log.countersAt + ticksOf (cfgF s secLog 0 28) then .next s
  else finish s (counterRecords { s with log := { s.log with countersAt := s.clk.now } })

/-- The counters of the newest COUNTERS record of an axis; the fractions, which no record holds, are 0. -/
def reloadedCounters (s : State) (n : Fin 4) : Counters :=
  match ((s.log.region ++ s.log.staged).filter fun r => r.type == 0x0011 && r.unit == n.val).getLast? with
  | none => Counters.reset
  | some r => { Counters.reset with
      revolutions := fieldI r.body 0 8, motorWh := fieldU r.body 8 8, regenWh := fieldU r.body 16 8, seconds := fieldU r.body 24 8 }
def reloadCounters (s : State) : State :=
  { s with log := { s.log with counters := #v[reloadedCounters s 0, reloadedCounters s 1, reloadedCounters s 2, reloadedCounters s 3] } }

/-! ## The LOG commands (Table 3.18) -/

/-- Retained records, oldest first. -/
def retained (s : State) : List LogRecord := s.log.region ++ s.log.staged
/-- The oldest retained INDEX. -/
def oldestIndex (s : State) : Nat := match retained s with | r :: _ => r.index | [] => s.log.next

/-- LOG.INFO. The newest index of a log without a record is not stated: a free value. -/
def execLogInfo (slot : Nat) (s : State) : Result :=
  command s slot 0x0501 fun s j =>
    let rest := leBytes 8 (oldestIndex s) ++ leBytes 8 s.log.exported ++ leBytes 4 s.log.gaps
    if s.log.next = 0 then let (bs, t) := drawBytes s 8; succeed s t j (bs ++ rest)
    else succeed s s j (leBytes 8 (s.log.next - 1) ++ rest)

/-- LOG.READ (R537, R538): retained records from an index upwards; an export starts or goes on. -/
def execLogRead (slot : Nat) (s : State) : Result :=
  command s slot 0x0502 fun s j =>
    let i := j.u 0 8
    let n := j.u 8 1
    if n = 0 || 7 < n || i < oldestIndex s || s.log.next ≤ i then badParameter s j
    else
      let rs := ((retained s).filter fun r => decide (i ≤ r.index)).take n
      let t := { s with log := { s.log with exporting := s.log.exported != s.log.next, exportAt := s.clk.now } }
      succeed s t j ([BitVec.ofNat 8 rs.length, 0, 0, 0] ++ rs.flatMap recordBytes)

/-- LOG.EXPORTED (R537, R538). -/
def execLogExported (slot : Nat) (s : State) : Result :=
  command s slot 0x0503 fun s j =>
    let i := j.u 0 8
    if i < s.log.exported || s.log.next < i then badParameter s j
    else succeed s { s with log := { s.log with exported := i, exporting := s.log.exporting && i != s.log.next, exportAt := s.clk.now } } j []

/-- LOG.CHECKPOINT: the checkpoint of the closed, retained block that holds an index (R529). -/
def execLogCheckpoint (slot : Nat) (s : State) : Result :=
  command s slot 0x0504 fun s j =>
    let i := j.u 0 8
    if i < oldestIndex s then badParameter s j else
    match s.log.ckpts.find? fun c => decide (c.first ≤ i) && decide (i ≤ c.last) with
    | some c => succeed s s j (leBytes 8 c.first ++ c.hash ++ c.signature)
    | none => badParameter s j

/-- LOG.COUNTERS: the live counters of a present axis (R536). -/
def execLogCounters (slot : Nat) (s : State) : Result :=
  command s slot 0x0505 fun s j =>
    if h : j.u 0 1 < 4 then
      let c := s.log.counters[j.u 0 1]
      succeed s s j (i64Bytes c.revolutions ++ leBytes 8 c.motorWh ++ leBytes 8 c.regenWh ++ leBytes 8 c.seconds)
    else badParameter s j

/-- 10 s without LOG.READ or LOG.EXPORTED end an export (R538). -/
def execExportTimeout (s : State) : Result :=
  if !s.log.exporting || !pairBTasksWork s || decide (s.clk.now < s.log.exportAt + 1000000000) then .next s
  else finish s { s with log := { s.log with exporting := false } }

/-! ## Loss of the staging RAM (R530, R562) -/

/-- H after the newest record of the region, from the last checkpoint whose records it holds (Table 2.4 step 14). -/
def chainFromRegion (s : State) : List Byte :=
  let ends := s.log.ckpts.filter fun c => s.log.region.any fun (r : LogRecord) => r.index == c.last
  let (h, rs) : List Byte × List LogRecord := match ends.getLast? with
    | some c => (c.hash, s.log.region.filter fun r => decide (c.last - 1 ≤ r.index))
    | none => (List.replicate 32 0#8, s.log.region)
  rs.foldl (fun (h : List Byte) (r : LogRecord) => sha256 (h ++ recordBytes r)) h

/-- The staging RAM has lost its contents: committed records that were not flushed, the chain value, the live counters, CERT_FLOOR, the
tamper slot and the auxiliary position. No INDEX is used again (R527). -/
def stagingLost (s : State) : State :=
  reloadCounters { s with
    log := { s.log with
      staged := [], waiting := [], chain := chainFromRegion s
      blockFirst := s.log.blockFirst.filter fun f => s.log.region.any fun (r : LogRecord) => r.index == f }
    sec := { s.sec with certFloor := 0, aonTamper := [] }
    aux := { s.aux with kept := none, keptRef := false, keptStale := false } }

end Sys2Proof.Machine
end

