-- ==== Sys2Proof/Machine/Aes.lean ====
section
/-! DEFINITION. AES-256-GCM, by which an encrypted firmware payload is opened (R40, R512). AES is FIPS 197 and GCM is
SP 800-38D: the spec names them and prints neither (log entry 4). -/
namespace Sys2Proof.Machine
open Sys2Proof

/-- Multiplication by x in GF(2^8). -/
def aesX (b : Byte) : Byte := if b.msb then (b <<< 1) ^^^ 0x1B#8 else b <<< 1

/-- Multiplication in GF(2^8), over `k` bits of the second factor. -/
def aesMul : Nat → Byte → Byte → Byte
  | 0, _, _ => 0
  | k + 1, a, b => (if b.getLsbD 0 then a else 0) ^^^ aesMul k (aesX a) (b >>> 1)

/-- The square in GF(2^8). -/
def aesSq (a : Byte) : Byte := aesMul 8 a a

/-- The inverse in GF(2^8): the 254th power. -/
def aesInv (a : Byte) : Byte :=
  let a2 := aesSq a
  let a4 := aesSq a2
  let a8 := aesSq a4
  let a16 := aesSq a8
  let a32 := aesSq a16
  let a64 := aesSq a32
  let a128 := aesSq a64
  aesMul 8 a128 (aesMul 8 a64 (aesMul 8 a32 (aesMul 8 a16 (aesMul 8 a8 (aesMul 8 a4 a2)))))

/-- The S-box. -/
def aesS (a : Byte) : Byte :=
  let i := aesInv a
  i ^^^ i.rotateLeft 1 ^^^ i.rotateLeft 2 ^^^ i.rotateLeft 3 ^^^ i.rotateLeft 4 ^^^ 0x63#8

/-- Byte-wise exclusive or. -/
def xorBytes (a b : List Byte) : List Byte := List.zipWith (· ^^^ ·) a b

/-- The key words that follow, newest first: `k` more words after the `i`th. -/
def aesExpand : Nat → Nat → Byte → List (List Byte) → List (List Byte)
  | 0, _, _, ws => ws
  | k + 1, i, rc, ws =>
    let prev := ws.getD 0 []
    let t :=
      if i % 8 = 0 then xorBytes (((prev.drop 1) ++ prev.take 1).map aesS) [rc, 0, 0, 0]
      else if i % 8 = 4 then prev.map aesS
      else prev
    aesExpand k (i + 1) (if i % 8 = 0 then aesX rc else rc) (xorBytes (ws.getD 7 []) t :: ws)

/-- A list cut into pieces of `n` bytes, `k` of them. -/
def pieces (n : Nat) : Nat → List Byte → List (List Byte)
  | 0, _ => []
  | k + 1, bs => bs.take n :: pieces n k (bs.drop n)

/-- The fifteen round keys of a 256-bit key. -/
def aesKeys (key : List Byte) : List (List Byte) :=
  pieces 16 15 ((aesExpand 52 8 1 (pieces 4 8 key).reverse).reverse.flatten)

/-- The row shift, over the column-major state. -/
def aesShift (s : List Byte) : List Byte := (List.range 16).map fun i => s.getD ((i + 4 * (i % 4)) % 16) 0

/-- The column mix of one column. -/
def aesMixCol (c : List Byte) : List Byte :=
  (List.range 4).map fun i =>
    let a := c.getD i 0
    let b := c.getD ((i + 1) % 4) 0
    aesX a ^^^ (aesX b ^^^ b) ^^^ c.getD ((i + 2) % 4) 0 ^^^ c.getD ((i + 3) % 4) 0

/-- The rounds after the first key. -/
def aesRounds : List (List Byte) → List Byte → List Byte
  | [], s => s
  | [k], s => xorBytes (aesShift (s.map aesS)) k
  | k :: ks, s => aesRounds ks (xorBytes ((pieces 4 4 (aesShift (s.map aesS))).flatMap aesMixCol) k)

/-- AES-256 of one block. -/
def aesBlock (keys : List (List Byte)) (b : List Byte) : List Byte :=
  match keys with
  | [] => b
  | k :: ks => aesRounds ks (xorBytes b k)

/-- Multiplication in the field of GCM: bits of `x` from the most significant, `v` shifted down. -/
def gfMul : Nat → BitVec 128 → BitVec 128 → BitVec 128
  | 0, _, _ => 0
  | k + 1, x, v => (if x.msb then v else 0) ^^^ gfMul k (x <<< 1) (if v.getLsbD 0 then (v >>> 1) ^^^ (0xE1#128 <<< 120) else v >>> 1)

/-- GHASH over the blocks of a padded message. -/
def ghash (h : BitVec 128) : Nat → List Byte → BitVec 128 → BitVec 128
  | 0, _, y => y
  | k + 1, bs, y => ghash h k (bs.drop 16) (gfMul 128 (y ^^^ BitVec.ofNat 128 (beNat (bs.take 16))) h)

/-- Zeros up to a whole number of blocks. -/
def padBlock (bs : List Byte) : List Byte := bs ++ List.replicate ((16 - bs.length % 16) % 16) 0

/-- The key stream applied from counter `c`, over `k` blocks. -/
def gcmStream (keys : List (List Byte)) (iv : List Byte) : Nat → Nat → List Byte → List Byte
  | 0, _, _ => []
  | k + 1, c, bs => xorBytes (bs.take 16) (aesBlock keys (iv ++ beBytes 4 c)) ++ gcmStream keys iv k (c + 1) (bs.drop 16)

/-- The tag of a ciphertext with its additional data. -/
def gcmTag (key iv aad ct : List Byte) : List Byte :=
  let keys := aesKeys key
  let h := BitVec.ofNat 128 (beNat (aesBlock keys (List.replicate 16 0)))
  let m := padBlock aad ++ padBlock ct ++ beBytes 8 (8 * aad.length) ++ beBytes 8 (8 * ct.length)
  xorBytes (beBytes 16 (ghash h (m.length / 16) m 0).toNat) (aesBlock keys (iv ++ beBytes 4 1))

/-- The plaintext, where the tag verifies (a 12-byte IV). -/
def gcmOpen (key iv aad ct tag : List Byte) : Option (List Byte) :=
  if gcmTag key iv aad ct = tag then some (gcmStream (aesKeys key) iv ((ct.length + 15) / 16) 2 ct) else none

end Sys2Proof.Machine
end

