-- ==== Sys2Proof/Machine/FwImage.lean ====
section
/-! DEFINITION. Firmware images: their header and the checks of the boot ROM (R40, R512, R513, Tables 19.1, 19.3). -/
namespace Sys2Proof.Machine
open Sys2Proof

def fwMagic (b : List Byte) : Bool := fieldU b 0 4 == 0x5746434B
/-- VERSION chooses the slot tried first; a slot without an image counts as version 0. -/
def fwVersionOf (b : List Byte) : Nat := if fwMagic b then fieldU b 4 4 else 0
def fwSecOf (b : List Byte) : Nat := fieldU b 8 1
def fwEncrypted (b : List Byte) : Bool := bitAt (fieldU b 9 1) 0
def fwAdvanceOf (b : List Byte) : Bool := bitAt (fieldU b 9 1) 1
def fwSize (b : List Byte) : Nat := fieldU b 12 4

/-- Checks 1 to 3 of R512: key hash, signature, rollback floor. A key hash that is not fused accepts any key in DEVELOPMENT. -/
def fwSigned (s : State) (b : List Byte) : Bool :=
  let n := fwSize b
  let key := slice b 44 64
  fwMagic b && n % 16 == 0 && decide (n ≤ 4 * 1048576 - 192) && decide (192 + n ≤ b.length) &&
  (sha256 key == s.sec.fuses.fwKeyHash || (s.sec.life == .development && s.sec.fuses.fwKeyHash == List.replicate 32 0)) &&
  ecdsaVerify key (sha256 (slice b 0 (128 + n))) (slice b (128 + n) 64) && decide (s.sec.fuses.fwFloor ≤ fwSecOf b)

/-- Check 4: the tag of an encrypted payload; the additional data is the header with TAG zero. A plain image is for DEVELOPMENT only. -/
def fwDecrypts (s : State) (b : List Byte) : Bool :=
  if fwEncrypted b then
    (gcmOpen s.sec.fuses.fek (slice b 16 12) (slice b 0 28 ++ List.replicate 16 0 ++ slice b 44 84) (slice b 128 (fwSize b)) (slice b 28 16)).isSome
  else s.sec.life == .development

/-- The slots as a pair selected by a flag: true is slot B. -/
def fwSlotBytes (s : State) (b : Bool) : List Byte := if b then s.fw.slotB else s.fw.slotA
def fwSlotMarked (s : State) (b : Bool) : Bool := if b then s.fw.invalidB else s.fw.invalidA

/-- A slot is valid (R40, R512). BLANK and SCRAPPED accept no image. -/
def fwValid (s : State) (b : Bool) : Bool :=
  s.sec.life != .blank && s.sec.life != .scrapped && !fwSlotMarked s b && fwSigned s (fwSlotBytes s b) && fwDecrypts s (fwSlotBytes s b)

/-- The slot tried first: the higher VERSION, A where they are equal. -/
def fwFirst (s : State) : Bool := decide (fwVersionOf s.fw.slotA < fwVersionOf s.fw.slotB)

end Sys2Proof.Machine
end

