-- ==== Sys2Proof/Machine/Halyard.lean ====
section
/-! DEFINITION. The Halyard (R486 to R505): rows LINK_UP to SHARE_STALE, ELECT, JOIN, LEAVE, SERVICE_FRAME, LINK_TRAINING and the LINK
commands. -/
namespace Sys2Proof.Machine
open Sys2Proof

/-! ## Ports (R488) -/

/-- The port exists, and its clock runs from cast-on step 3; without the FABRIC clock it reports link down (Table 1.4). -/
def portRuns (s : State) (p : Fin 2) : Bool := unitPresent s (14 + p.val) && !bitAt s.clk.lost 1 && decide (3 ≤ s.boot.phase) && !s.power.inReset && s.mode != .sleep

/-- 64 consecutive valid commas. -/
def execLinkTraining (port : Fin 2) (s : State) : Result :=
  if !portRuns s port || (s.port port).st != .down then .next s
  else finish s (s.setPort port fun p => { p with st := .training, measured := false, trainedAt := s.clk.now })

/-- The ring is closed where both ports are up and RING.FLAGS.LINE is clear: DEDUCED (log entry 275), unsafe. -/
def ringClosedNow (s : State) : Bool := portUp s 0 && portUp s 1 && !bitAt (ringU s 0 1) 0 && ringMember s

/-- 1 ms of error-free IDLE and a completed delay exchange. -/
def execLinkUp (port : Fin 2) (s : State) : Result :=
  if !portRuns s port || (s.port port).st != .training || !(s.port port).measured || s.clk.now < (s.port port).trainedAt + 100000 then .next s else
  let t := s.setPort port fun p => { p with st := .up }
  finish s (raise { t with ring := { t.ring with closed := ringClosedNow t } } evLinkUp (14 + port.val) (place port.val 24 8))

/-- The device becomes ISOLATED (R505): its group axes ramp to zero and the digest exchange stops. -/
def isolate (s : State) : State :=
  raise { s with ring := { s.ring with role := .isolated, tack := none, best := none, awaited := false, pllPort := none } } evIsolated 14 (place s.ring.pos 24 8)

/-- The own bid of an election. -/
def ownBid (s : State) : Nat × Nat := (ringPriority s s.sec.fuses.uid, s.sec.fuses.uid)

/-- An election begins (R489): the device sends its bid. -/
def beginElection (s : State) : State :=
  let b := ownBid s
  ringSend { s with ring := { s.ring with best := some b, awaited := false } } 0x0A (leBytes 8 b.2 ++ [BitVec.ofNat 8 b.1])

/-- The positions that this segment no longer holds leave the step. -/
def dropMembers (s : State) (reach : Nat) : State :=
  (List.range 8).foldl (fun u k => if k = u.ring.pos ∨ bitAt reach k then u else
    u.setMember k fun m => { m with inStep := false, heardAt := none, trips := 0, run := 0, asc := 0 }) s

/-- No port carries the SYNC of a master that the segment has lost. -/
def loseMaster (s : State) : State := lockPll { s with ring := { s.ring with ports := s.ring.ports.map fun p => { p with syncHops := none } } }

/-- A segment acts by what it holds (R505). `reach` names, bit by position, the members still in the segment. -/
def splitRing (s : State) (reach : Nat) : State :=
  if !ringMember s then s else
  let t := dropMembers s reach
  if t.ring.role == .master || bitAt reach t.ring.masterPos then t
  else if ringDevices t / 2 < 1 + (othersInStep t).length then beginElection (loseMaster t) else isolate (loseMaster t)

/-- A port goes DOWN (R488, R490, R505): the PLL of a follower changes to the other port where that carries SYNC; where none does, Table 1.5
applies, the reference is XIN and the shares ramp to zero. -/
def dropPort (s : State) (port : Fin 2) (reach : Nat) : State :=
  if (s.port port).st == .down then s else
  let was := (s.port port).st
  let down := s.setPort port fun p => { p with st := .down, measured := false, downs := satInc 16 p.downs, syncHops := none }
  let t := if s.ring.role == .follower then
      let l := lockPll down
      if l.ring.pllPort.isNone then allAxes.foldl (fun t g => if (grpAxis t g).isSome then aimShare t g 0 else t) l else l
    else down
  let u := raise t evLinkDown (14 + port.val) (place port.val 24 8)
  let v := if was == .up && s.ring.closed then raise { u with ring := { u.ring with closed := false } } evRingOpen 14 (place port.val 24 8) else u
  if was == .up then splitRing v reach else v

/-- Code errors or a missing comma (R488, R505). -/
def execLinkDown (port : Fin 2) (reach : Nat) (s : State) : Result :=
  if !portRuns s port || (s.port port).st == .down then .next s else finish s (dropPort s port reach)

/-- Ports report link down. -/
def dropPorts (s : State) (gone : List (Fin 2)) : State :=
  gone.foldl (fun u p => dropPort u p (if anyPortUp (u.setPort p fun x => { x with st := .down }) then 0xFF else 0)) s

/-- The recovered clock is lost (Tables 1.4 and 1.5): its port reports link down, and the PWM PLL of a follower takes XIN. The port is the one
that the PLL is locked to, and every UP port where it is locked to none: DESIGN CHOICE (log entry 202). -/
def halyardClockLost (s : State) : State :=
  let gone : List (Fin 2) := match s.ring.pllPort with | some p => [p] | none => ([0, 1] : List (Fin 2)).filter (portUp s)
  let t := dropPorts s gone
  allAxes.foldl (fun u g => if (grpAxis u g).isSome then aimShare u g 0 else u) { t with ring := { t.ring with pllPort := none } }

/-- A neighbour's delay request is answered with the instants of its receipt and of the answer, in 0.25 ns units (R490). The instant of
the answer is not stated: a free value. -/
def execDelayReq (port : Fin 2) (head : FrameHead) (s : State) : Result :=
  if !portRuns s port || (s.port port).st == .down then .next s
  else if !head.crcOk then
    finish s (raiseLimited (s.setPort port fun x => { x with crcErrors := satInc 16 x.crcErrors }) evHalyardFrameError port.val (14 + port.val) (place port.val 24 8))
  else
    let (tx, t) := drawNat s
    finish s (portsSend t [port.val] 0x03 (leBytes 8 (s.clk.drive.toNat * 40) ++ leBytes 8 tx))

/-- A completed exchange: the link delay is half the round trip, in 0.25 ns units (R490). -/
def execDelayRsp (port : Fin 2) (head : FrameHead) (delay : Nat) (s : State) : Result :=
  if !portRuns s port || (s.port port).st == .down then .next s
  else if !head.crcOk then
    finish s (raiseLimited (s.setPort port fun x => { x with crcErrors := satInc 16 x.crcErrors }) evHalyardFrameError port.val (14 + port.val) (place port.val 24 8))
  else finish s (s.setPort port fun p => { p with delay := delay / 2 % 65536, measured := true })

/-! ## Trips (R497) -/

/-- A TRIP ordered set, forwarded through the other port (Table 18.2): a rising origin bit of another device trips the group axis. -/
def execTripOrderedSet (port : Fin 2) (source mask : Nat) (s : State) : Result :=
  if !portUp s port || bitAt s.clk.lost 6 || !ringMember s || source = s.ring.pos || 8 ≤ source then .next s else
  let was := (s.member source).trips
  let other : Fin 2 := if port = 0 then 1 else 0
  let fwd := if portUp s other then linkSend s [(other.val, 0, [BitVec.ofNat 8 (32 * source + mask % 16)])] else s
  let t := fwd.setMember source fun m => { m with
    trips := mask % 16, heardAt := some s.clk.now
    tripAt := Vector.ofFn fun (g : Fin 4) => if bitAt mask g.val then some s.clk.now else m.tripAt[g.val] }
  finish s (allAxes.foldl (fun u g =>
    if bitAt mask g.val && !bitAt was g.val then
      match grpAxis u g with
      | some n => raise (latchTrip u n bitHalyard) evHalyardTrip n.val (place n.val 24 8 + place source 8 8 + g.val)
      | none => u
    else u) t)

/-! ## Timebase (R490, R491, R503) -/

/-- Generation and digest of the active set. -/
def ownDigest (s : State) : Nat × List Byte := match s.cfg.active with | some img => (imgGeneration img, imgDigest img) | none => (0, [])

/-- The position of a device by the hops of a SYNC frame: HL1 hears the master along HL0 (R486), and HL0 against it round DEVICES positions. It counts
from the position that the master names for itself, 0 as a ring forms, so that a new master (R505) moves no device: DEDUCED (log entry 275), unsafe. -/
def syncPosition (s : State) (p : Fin 2) (h : FrameHead) (f : SyncFrame) : Nat :=
  let devices := max 1 (ringDevices s)
  (if p = 1 then f.master % 8 + (h.hops + 1) else f.master % 8 + 8 * devices - (h.hops + 1)) % devices

/-- A join that is refused on its way (R503): the device is no member, and its LINK.JOIN is answered with the reason. -/
def refuseJoin (s : State) (reason : Nat) : State :=
  let t := { s with ring := { s.ring with role := .none, best := none, awaited := false } }
  match t.host.jobs.find? fun j => j.code == 0x0702 && j.started with
  | some j => respond t j evJoinRefused (leBytes 2 reason)
  | none => t

/-- A joining device takes the ring's drive time, and the record carries both values (R503). Its LINK.JOIN is answered. -/
def completeJoin (s : State) (old : Nat) : State :=
  let t := restartCarriers (lockPll { s with ring := { s.ring with role := .follower, best := none, closed := false } })
  let u := ringSend t 0x0B (leBytes 8 t.sec.fuses.uid)
  let v := raiseLogged { u with ring := { u.ring with closed := ringClosedNow u } } evRingJoined 14 (place u.ring.pos 24 8) (leBytes 8 old ++ leBytes 8 u.clk.drive.toNat)
  match v.host.jobs.find? fun j => j.code == 0x0702 && j.started with
  | some j => respond v j 0 []
  | none => v

/-- The distance of the master is noted at the port that a SYNC frame arrives by, also where the frame has come by the other port before. -/
def noteHops (s : State) (p : Fin 2) (h : FrameHead) : State :=
  if portUp s p && h.crcOk && !bitAt s.clk.lost 6 then s.setPort p fun x => { x with syncHops := some h.hops } else s

/-- The first SYNC of a master that has won an election raises MASTER_ELECTED with its position and EPOCH (R489). -/
def noteMaster (s : State) (f : SyncFrame) : State :=
  if s.ring.awaited then raiseLogged { s with ring := { s.ring with awaited := false } } evMasterElected 14 (place (f.master % 8) 24 8) (leBytes 8 f.epoch) else s

/-- A joining device whose set differs from the master's is refused before it takes the ring's time (R97, R503); until the master's digest has come it
waits. -/
def joinBySync (s near : State) (f : SyncFrame) (take : State → State) : State :=
  let theirs := (s.member (f.master % 8)).digest
  if s.cfg.diff != .same then refuseJoin s 3
  else if theirs == [] then near
  else if theirs != (ownDigest s).2 then refuseJoin s 4
  else completeJoin ((noteMaster (take near) f).setMember (f.master % 8) fun m => { m with inStep := true }) s.clk.drive.toNat

/-- A SYNC frame (R490): a follower loads drive time, corrected by the delays of the path, and locks its PLL by the nearer port. A joining device
completes its join by it. Without the PWM clock drive time stays at its last value (R17). -/
def execSync (port : Fin 2) (head : FrameHead) (frame : SyncFrame) (s : State) : Result :=
  finish s (ringTake (noteHops s port head) port head 0x01 true fun t =>
    if t.ring.role == .master then t else
    let near := { t with ring := { t.ring with masterPos := frame.master % 8, epoch := frame.epoch } }
    let time := frame.time + (frame.path + (t.port port).delay) / 40
    let sync (u : State) : State := { u with
      clk := { u.clk with drive := if u.clk.driveRuns then BitVec.ofNat 64 time else u.clk.drive }, ring := { u.ring with pos := syncPosition u port head frame, best := none } }
    match t.ring.role with
    | .follower => lockPll ((noteMaster (sync near) frame).setMember (frame.master % 8) fun m => { m with inStep := true })
    | .joining => joinBySync t near frame sync
    | _ => near)

/-! ## Digests (R498, R499) -/

/-- A difference that a ring tack explains: the old or the announced digest, until 2 ms after Ts. -/
def explained (s : State) (digest : List Byte) : Bool :=
  decide (s.clk.now ≤ s.ring.graceUntil) && (match s.ring.announced with | some a => digest == a.2 || digest == s.ring.replaced | none => false)

/-- One exchange with the master's digest. -/
def exchange (s : State) (digest : List Byte) : State :=
  let same := digest == (ownDigest s).2
  if same || explained s digest then
    let n := if same then min 3 (s.ring.matched + 1) else s.ring.matched
    let t := { s with ring := { s.ring with differs := 0, matched := n } }
    if t.ring.divergent && 3 ≤ n then raise { t with ring := { t.ring with divergent := false } } evDivergentCleared 14 (place t.ring.pos 24 8) else t
  else
    let n := min 2 (s.ring.differs + 1)
    let t := { s with ring := { s.ring with differs := n, matched := 0 } }
    if 2 ≤ n && !t.ring.divergent then markDivergent t requestSs1 else t

/-- The master's digest shows its Ts to a device that holds no Ts of its own (R502): the 2 ms run from there. -/
def noteChange (s : State) (h : FrameHead) (digest : List Byte) : State :=
  let waits := decide (2 ^ 63 ≤ s.ring.graceUntil) && !(match s.ring.tack with | some r => r.committed | none => false)
  if waits && h.src == s.ring.masterPos && s.ring.announced.map (·.2) == some digest then { s with ring := { s.ring with graceUntil := s.clk.now + 200000 } } else s

/-- A DIGEST frame: the sender is in step, and the master's digest is compared with the own. -/
def execDigest (port : Fin 2) (head : FrameHead) (generation : Nat) (digest : List Byte) (divergent : Bool) (s : State) : Result :=
  finish s (ringTake s port head 0x04 true fun t =>
    let m := t.setMember head.src fun m => { m with inStep := true, divergent := divergent, generation := generation, digest := digest }
    let u := noteChange m head digest
    if t.ring.role == .follower && head.src == t.ring.masterPos && pairBTasksWork t then exchange u digest else u)

/-! ## Shares (R493 to R496) -/

/-- A SHARE frame; the master's carries the group reference. -/
def execShare (port : Fin 2) (head : FrameHead) (frame : ShareFrame) (s : State) : Result :=
  finish s (ringTake s port head 0x05 true fun t =>
    if !ringMember t then t else
    let g := frame.group
    let u := t.setMember head.src fun m => { m with
      run := setBit m.run g.val frame.run, asc := setBit m.asc g.val frame.asc, id := m.id.set g.val frame.id, iq := m.iq.set g.val frame.iq }
    if head.src == t.ring.masterPos && t.ring.role == .follower then
      match frame.reference with
      | some r => u.setGroup g fun x => { x with reference := r, sharedAt := t.clk.now, stale := false }
      | none => u
    else u)

/-- No SHARE frame from the master for SHARE_TIMEOUT, or the master's reference not VALID (R494): the fraction ramps to zero at the
dispatches that follow. -/
def execShareStale (s : State) : Result :=
  let late (g : Fin 4) : Bool := (grpAxis s g).isSome && !(s.group g).stale &&
    (if s.ring.role == .master then !refValid s g else s.ring.role == .follower && decide ((s.group g).sharedAt + ticksOf (grpF s g 20) ≤ s.clk.now))
  let hit := allAxes.filter late
  if hit.isEmpty then .next s else
  finish s (hit.foldl (fun t g => raise (t.setGroup g fun x => { x with stale := true }) evShareStale 14 (place t.ring.pos 24 8 + g.val)) s)

/-! ## Elections, joining and leaving (R489, R503 to R505) -/

/-- The better of two bids: the higher priority, the lower UID at a tie. -/
def betterBid (a b : Nat × Nat) : Nat × Nat := if a.1 < b.1 ∨ (a.1 = b.1 ∧ b.2 < a.2) then b else a

/-- The elected master sets EPOCH, rounded down to RING_PERIOD, and its own carriers take their places and counts on it (R491); after a break it
keeps EPOCH (R489, R505). -/
def becomeMaster (s : State) : State :=
  let fresh := s.ring.role == .joining
  let epoch := if fresh then s.clk.drive.toNat / ringPeriod s * ringPeriod s else s.ring.epoch
  let pos := if fresh then 0 else s.ring.pos
  let r := { s with ring := { s.ring with role := .master, best := none, awaited := false, epoch := epoch, pos := pos, masterPos := pos, pllPort := none } }
  let t := if fresh then restartCarriers r else r
  let u := raiseLogged { t with ring := { t.ring with closed := ringClosedNow t } } evMasterElected 14 (place pos 24 8) (leBytes 8 epoch)
  match u.host.jobs.find? fun j => j.code == 0x0702 && j.started with
  | some j => respond u j 0 []
  | none => u

/-- An ELECT frame: the best bid so far is kept; `ended` is the end of the election. The winner becomes master, any other waits for its SYNC. A
follower takes part once a member in step sends its bid, which is the sign of a segment without its master (R505): DEDUCED (log entry 275). -/
def execElect (port : Fin 2) (head : FrameHead) (priority uid : Nat) (ended : Bool) (s : State) : Result :=
  finish s (ringTake s port head 0x0A true fun t =>
    if !(t.ring.role == .joining || (t.ring.role == .follower && (t.ring.best.isSome || (t.member head.src).inStep))) then t else
    let t := if t.ring.role == .follower && t.ring.best.isNone then beginElection t else t
    let best := betterBid (betterBid (t.ring.best.getD (ownBid t)) (ownBid t)) (priority, uid)
    let u := { t with ring := { t.ring with best := some best } }
    if !ended then u
    else if best = ownBid u then becomeMaster u
    else { u with ring := { u.ring with best := none, awaited := true } })

/-- A device enters the ring. -/
def execJoin (port : Fin 2) (head : FrameHead) (uid : Nat) (s : State) : Result :=
  finish s (ringTake s port head 0x0B true fun t =>
    if !ringMember t || uid = t.sec.fuses.uid then t else t.setMember head.src fun m => { m with inStep := true, divergent := false })

/-- A device leaves the ring; a ring whose master leaves acts as R505 gives. -/
def execLeave (port : Fin 2) (head : FrameHead) (s : State) : Result :=
  finish s (ringTake s port head 0x0C true fun t =>
    if !ringMember t then t else
    splitRing t (((List.range 8).map fun k => if k != head.src && (t.member k).inStep then place 1 k 1 else 0).sum))

/-- A SERVICE frame is for Pair B firmware and changes nothing that this block's rules name (R487). -/
def execServiceFrame (port : Fin 2) (head : FrameHead) (payload : List Byte) (s : State) : Result :=
  finish s (ringTake s port head 0x10 true fun t => if payload.isEmpty then t else t)

/-- A member that has not been heard for 3 ms is out of step, and the segment acts by what it still holds (R498, R505): DEDUCED (log entry 275). -/
def dropSilent (s : State) : State :=
  let kept := (othersInStep s).filter (heardNow s)
  if ringMember s && kept.length != (othersInStep s).length then splitRing s (kept.map fun k => place 1 k 1).sum else s

/-- The passage of time for a member and a joining device: a LINK.JOIN that has not completed within 100 ms is refused with reason 5 (R503):
DEDUCED (log entry 275). -/
def tickMembers (s : State) : State :=
  let t := dropSilent s
  match t.host.jobs.find? fun j => j.code == 0x0702 && j.started with
  | some j => if t.ring.role == .joining && decide (j.since + 10000000 ≤ t.clk.now) then refuseJoin t 5 else t
  | none => t

/-! ## Commands -/

/-- The state of a position in LINK.STATUS: 0 absent, 1 in step, 2 DIVERGENT. -/
def positionState (s : State) (k : Nat) : Nat :=
  if ringMember s && k == s.ring.pos then (if s.ring.divergent then 2 else 1)
  else if !heardNow s k || !(s.member k).inStep then 0 else if (s.member k).divergent then 2 else 1

def execLinkStatus (slot : Nat) (s : State) : Result :=
  command s slot 0x0701 fun s j =>
    succeed s s j ([BitVec.ofNat 8 (ringSeen s), BitVec.ofNat 8 s.ring.pos, BitVec.ofNat 8 s.ring.masterPos, 0] ++
      (List.range 8).map fun k => BitVec.ofNat 8 (positionState s k))

/-- The reason for which a join is refused (R503). -/
def joinReason (s : State) : Option Nat :=
  if !cfgRing s then some 1
  else if !anyPortUp s then some 2
  else if s.cfg.diff != .same then some 3
  else if masterHeard s && (s.member s.ring.masterPos).digest != [] && (s.member s.ring.masterPos).digest != (ownDigest s).2 then some 4
  else if !masterHeard s && ringSeen s ≤ ringDevices s / 2 then some 5
  else if ringMember s then some 6
  else none

/-- A join begins: the device follows the master, or takes part in an election. -/
def beginJoin (s : State) : State :=
  let t := { s with ring := { s.ring with role := .joining, differs := 0, matched := 0 } }
  if masterHeard s then t else beginElection t

/-- LINK.JOIN (R503): long; it is answered as the join completes. -/
def execLinkJoin (slot : Nat) (s : State) : Result :=
  command s slot 0x0702 fun s j =>
    match joinReason s with
    | some r => respond s j evJoinRefused (leBytes 2 r)
    | none => markStarted (beginJoin s) j.slot

/-- LINK.LEAVE (R504): group axes that run ramp their fraction to zero and go to OFF first. -/
def execLinkLeave (slot : Nat) (s : State) : Result :=
  command s slot 0x0703 fun s j =>
    succeed s (if groupAxesOff s then ringLeaveNow s else { s with ring := { s.ring with leaving := true } }) j []

end Sys2Proof.Machine
end

