-- ==== Sys2Proof/Machine/Lockstep.lean ====
section
/-! DEFINITION. The lockstep pairs (R371 to R392): rows CORE_MISMATCH to DBG_SPLIT, DEBUG_HALT, DEBUG_RELEASE, REJOIN_PART_L, DIAG.PAIR_B;
and the supply monitors' out-of-range row (R396). -/
namespace Sys2Proof.Machine
open Sys2Proof

/-- Pair A is 0, Pair B is 1 (R398). -/
def pairIx (pairB : Bool) : Fin 2 := if pairB then 1 else 0

def State.setPair (s : State) (b : Bool) (f : LockPair → LockPair) : State := { s with lock := { s.lock with pairs := vupd s.lock.pairs (pairIx b) f } }

def pairFailed (s : State) (b : Bool) : Bool := if b then s.lock.pairBFailed else s.lock.pairAFailed
def pairDebugSplit (s : State) (b : Bool) : Bool := if b then s.lock.dbgSplitB else s.lock.dbgSplitA

/-- Cores of the pair run: Pair A from cast-on step 4, Pair B from step 9 (Table 2.4), until their clock or the fabric's is lost (R19). -/
def pairStarted (s : State) (b : Bool) : Bool := !s.power.inReset && s.mode != .sleep && !pairsStopped s && decide ((if b then 9 else 4) ≤ s.boot.phase)

/-- The comparators of a pair compare: it runs, has not failed and is not split (R384, R389). During a rejoin Pair B is in lockstep
again from step 4 (Table 14.5). -/
def inLockstep (s : State) (b : Bool) : Bool :=
  pairStarted s b && !pairFailed s b &&
  (if b then decide (4 ≤ s.lock.rejoin) || (!s.lock.pairBSplit && !s.lock.dbgSplitB) else !s.lock.dbgSplitA)

/-! ## Classification (R373, R374) -/

/-- A comparator reports a mismatch: anything but 0b01 on its pair of wires (R373). -/
def reportsMismatch (wires : Fin 4) : Bool := wires != 1

/-- The lowest group of a cycle on which C1 and C2 report as asked. -/
def groupWhere (c : LockCycle) (p : Bool → Bool → Bool) : Option (Fin 32) :=
  (List.finRange 32).find? fun g => c.reports.any fun r => r.1 == g && p (reportsMismatch r.2.1) (reportsMismatch r.2.2)

/-- The class of a cycle and its group or slice within the pair, by the first row of Table 14.1 that applies. Of several groups in one cycle the
lowest is named: DESIGN CHOICE (log entry 235), unsafe. -/
def cycleClass (c : LockCycle) : Option (Nat × Nat) :=
  if c.parity ≠ 0 then some (2, c.slice.val) else
  match groupWhere c (· && ·), groupWhere c xor with
  | some g, _ => some (1, g.val)
  | none, some g => some (3, g.val)
  | none, none => none

/-- The number of a group of a pair (R372). -/
def groupNumber (b : Bool) (g : Nat) : Nat := (if b then 32 else 0) + g

/-- The four injections of R380 give what they must: the tested comparator reports a mismatch, the other a match. -/
def injectionGood (reports : List (Fin 4 × Fin 4)) : Bool :=
  (reports.map fun r => (reportsMismatch r.1, reportsMismatch r.2)) == [(true, false), (true, false), (false, true), (false, true)]

/-- The data word of a lockstep event (R398). -/
def lockData (b : Bool) (group : Nat) : Nat := place (ofFlag b) 24 8 + place group 0 8

/-- The first class of a pair is recorded; later ones are counted (R375). -/
def noteClass (s : State) (b : Bool) (cls group stage : Nat) : State :=
  s.setPair b fun p =>
    if p.firstClass = 0 then { p with firstClass := cls, firstGroup := group % 32, firstStage := stage, firstTime := s.clk.drive }
    else { p with later := satInc 16 p.later }

/-- Pair A fails (R377): its cores are held in reset, the Backstay takes every axis to its safe state, SAFE latches, and Pair B serves
the mailboxes. A rejoin of Pair B is abandoned (R387). -/
def failPairA (s : State) : State :=
  let t := bsSafeAll { s with lock := { s.lock with pairAFailed := true, rejoin := 0, splitDue := false } }
  { t with host := { t.host with outSystem := true } }

/-- An axis that a failure of Pair B affects (R378). -/
def pairBAffects (s : State) (n : Fin 4) : Bool :=
  let a := s.axis n
  axPresent s n && a.core.st != .off &&
  (cfgU s secControl n.val 3 1 == 1 || cfgU s secControl n.val 3 1 == 2 || a.core.st == .runSpeed || a.core.st == .runPosition ||
    s.ring.role == .master || s.ring.role == .follower)

/-- Pair B fails (R378): Pair A takes over its tasks, and the affected axes stop and start no more until the power cycle. -/
def failPairB (s : State) : State :=
  let hit := allAxes.filter (pairBAffects s)
  let t := { s with lock := { s.lock with
    pairBFailed := true, takeover := true, rejoin := 0, splitDue := false, noStart := hit.foldl (fun m n => setBit m n.val true) s.lock.noStart } }
  hit.foldl requestSs1 t

/-- CORE_MISMATCH and DELAY_PARITY (R376 to R378), with the severity that is applied (R582). -/
def lockFailure (s : State) (b : Bool) (code cls group stage : Nat) : State :=
  let t := noteClass s b cls group stage
  if b then raiseSev (failPairB t) code sevStop 0xFF (lockData b group) [] false
  else raiseSev (failPairA t) code sevSafe 0xFF (lockData b group) [] false

/-- A cycle of a pair in lockstep that is of class CORE_MISMATCH. -/
def execCoreMismatch (pairB : Bool) (cycle : LockCycle) (s : State) : Result :=
  match if inLockstep s pairB then cycleClass cycle else none with
  | some (1, g) => finish s (lockFailure s pairB evCoreMismatch 1 (groupNumber pairB g) 0)
  | _ => .next s

/-- A cycle of a pair in lockstep that is of class DELAY_PARITY. -/
def execDelayParity (pairB : Bool) (cycle : LockCycle) (s : State) : Result :=
  match if inLockstep s pairB then cycleClass cycle else none with
  | some (2, g) => finish s (lockFailure s pairB evDelayParity 2 (groupNumber pairB g) cycle.parity)
  | _ => .next s

/-- The reaction of R379: SS1 on every axis that is not OFF, and the run inhibit. A class after the first of its pair changes nothing of
the reaction under way (R375). -/
def lockDoubt (s : State) (b : Bool) (code cls group : Nat) : State :=
  let again := s.lock.pairs[(pairIx b).val].firstClass != 0
  let t := (noteClass s b cls group 0).setPair b fun p => { p with disagree := p.disagree || cls == 3, testFail := p.testFail || cls != 3 }
  if again then t else
  raise (requestSs1All { t with lock := { t.lock with inhibit := true } }) code 0xFF (lockData b group)

/-- A cycle of a pair in lockstep that is of class COMPARATOR_DISAGREE. -/
def execComparatorDisagree (pairB : Bool) (cycle : LockCycle) (s : State) : Result :=
  match if inLockstep s pairB then cycleClass cycle else none with
  | some (3, g) => finish s (lockDoubt s pairB evComparatorDisagree 3 (groupNumber pairB g))
  | _ => .next s

/-! ## Testing the checkers (R381, R382) -/

/-- The group tested now: the next one of a pair in lockstep, ascending with wrap. -/
def testGroup (s : State) : Option Nat :=
  let g := s.lock.nextGroup % 64
  if inLockstep s (decide (32 ≤ g)) then some g
  else if inLockstep s (decide (g < 32)) then some (if g < 32 then 32 else 0)
  else none

/-- RUN injection on one group, from IDLE onwards in every mode (R381): what C1 and C2 report for each of the four injections. -/
def execRunInjection (reports : List (Fin 4 × Fin 4)) (s : State) : Result :=
  if s.boot.phase != 0x0F || s.mode == .boot || s.mode == .sleep then .next s else
  match testGroup s with
  | none => .next s
  | some g =>
    let b := decide (32 ≤ g)
    let t := { s with lock := { s.lock with nextGroup := (g + 1) % 64 } }
    finish s (if injectionGood reports then t.setPair b fun p => { p with runTests := (p.runTests + 1) % 65536 } else lockDoubt t b evComparatorTestFail 4 g)

/-- The register signature of a pair (R382). In a rejoin the first one is compared at step 5 (Table 14.5). -/
def execRegisterSignature (pairB : Bool) (s : State) : Result :=
  if !inLockstep s pairB then .next s else
  let t := s.setPair pairB fun p => { p with
    regsigRuns := (p.regsigRuns + 1) % 65536, regsigGap := max p.regsigGap (min 65535 ((s.clk.now - p.regsigAt) / 10000)), regsigAt := s.clk.now }
  finish s (if pairB && t.lock.rejoin == 4 then { t with lock := { t.lock with rejoin := 5 } } else t)

/-- No completed signature for 30 ms (R382). -/
def execRegsigLate (pairB : Bool) (s : State) : Result :=
  if !inLockstep s pairB || s.clk.now < s.lock.pairs[(pairIx pairB).val].regsigAt + 3000000 then .next s
  else finish s (lockDoubt s pairB evRegsigLate 5 0)

/-! ## Splitting and rejoining Pair B (R383 to R387) -/

/-- No class of R376 is outstanding on either pair, a failed injection test of cast-on among them (R43), and Pair A is in lockstep (R384). -/
def splitSound (s : State) : Bool :=
  inLockstep s false && s.lock.pairs.toList.all fun p => p.firstClass == 0 && !p.disagree && !p.testFail

/-- The loop contexts that the map gives to Pair B firmware, claimed while Pair A has taken over (Table 4.13, log entry 40). -/
def splitClaims (s : State) : List Claim :=
  (((ownedEntries (cfgBody s secOwnership 0)).filter fun e => e.resource / 2 ^ 24 == 9 && e.function == 0x10)).map fun e => ⟨e.resource, 0x10, 0⟩

/-- A split of Pair B is accepted: Pair A takes over at its next 1 ms boundary. -/
def acceptSplit (s : State) : State :=
  { s with lock := { s.lock with splitDue := true }, cfg := { s.cfg with claims := s.cfg.claims ++ splitClaims s } }

/-- A debugger's halt breaks the lockstep of a pair (R389). A rejoin of Pair B that runs cannot complete and ends; Pair A keeps the tasks until the next
one (R392). DEDUCED (log entry 269), unsafe. -/
def breakPair (s : State) (b : Bool) : State :=
  let t := s.setPair b fun p => { p with halted := true, haltHeld := false, splits := satInc 16 p.splits }
  let u := { t with lock := if b then { t.lock with dbgSplitB := true, rejoin := 0 } else { t.lock with dbgSplitA := true } }
  raise u evDbgSplit 0xFF (lockData b 0)

/-- The 1 ms boundary after a split was accepted (R384): the tasks are on Pair A and the comparators of Pair B are disabled. A
debugger's halt that waited for the takeover follows (R390). -/
def execPairBSplit (s : State) : Result :=
  if !s.lock.splitDue || !pairAWorks s then .next s else
  let t := { s with lock := { s.lock with splitDue := false, haltAfterSplit := false, takeover := true, pairBSplit := true } }
  let u := raiseLogged (t.setPair true fun p => { p with splits := satInc 16 p.splits }) evPairBSplit 0xFF (lockData true 0) []
  finish s (if s.lock.haltAfterSplit then breakPair u true else u)

/-- Part L on the Pair B groups during a rejoin (Table 14.5, R387), with the group of the pair that fails it, if one does. A failure holds Pair B
in reset until the power cycle (log entry 35). -/
def execRejoinPartL (failed : Option (Fin 32)) (s : State) : Result :=
  if s.lock.rejoin != 1 || pairsStopped s then .next s else
  match failed with
  | none => finish s (({ s with lock := { s.lock with rejoin := 4 } }).setPair true fun p => { p with regsigAt := s.clk.now })
  | some g =>
    let t := (noteClass s true 4 g.val 0).setPair true fun p => { p with testFail := true }
    let u := requestSs1All { t with lock := { t.lock with rejoin := 0, pairBFailed := true, inhibit := true } }
    finish s (raise u evComparatorTestFail 0xFF (lockData true (groupNumber true g.val)))

/-- Step 6 of Table 14.5: the tasks return to Pair B, and the claim ends. -/
def execPairBRejoined (s : State) : Result :=
  if s.lock.rejoin != 5 || !pairAWorks s then .next s else
  let t := { s with
    lock := { s.lock with rejoin := 0, pairBSplit := false, dbgSplitB := false, takeover := false }
    cfg := { s.cfg with claims := s.cfg.claims.filter fun c => c.function != 0x10 } }
  finish s (raiseLogged (t.setPair true fun p => { p with rejoins := satInc 16 p.rejoins }) evPairBRejoined 0xFF (lockData true 0) [])

/-- DIAG.PAIR_B with action 1 (R384). `load` is PAIR_A_LOAD + TAKEOVER_LOAD in 0.01 %. -/
def execDiagPairBSplit (slot : Nat) (load : Nat) (s : State) : Result :=
  command s slot 0x0805 fun s j =>
    if j.u 0 1 ≠ 1 then s
    else if s.lock.pairBFailed || s.lock.pairBSplit || s.lock.splitDue || s.lock.rejoin != 0 || s.lock.dbgSplitB then badParameter s j
    else if !splitSound s || 8000 < load then refuse s j rsTakeover
    else if s.cfg.tack.isSome then refuse s j rsTackPending
    else succeed s (acceptSplit s) j []

/-- DIAG.PAIR_B with action 0 (R386), once a debugger has released both cores (R392). -/
def execDiagPairBRejoin (slot : Nat) (s : State) : Result :=
  command s slot 0x0805 fun s j =>
    if j.u 0 1 = 1 then s
    else if j.u 0 1 ≠ 0 || s.lock.pairBFailed || s.lock.rejoin != 0 || (!s.lock.pairBSplit && !s.lock.dbgSplitB) || s.lock.pairs[1].halted then badParameter s j
    else succeed s { s with lock := { s.lock with rejoin := 1 } } j []

/-! ## Debug access (R388 to R392) -/

/-- A takeover is feasible (R384). -/
def takeoverFeasible (s : State) (load : Nat) : Bool :=
  splitSound s && decide (load ≤ 8000) && s.cfg.tack.isNone && !s.lock.pairBSplit && s.lock.rejoin == 0

/-- A halt that waits for SS1 on every axis (R390). -/
def holdHalt (s : State) (b : Bool) : State := requestSs1All (s.setPair b fun p => { p with haltHeld := true })

/-- A debugger's halt request (R390); the port serves none unless it is open (R388). A Pair B whose tasks Pair A has already taken over, by a split or
a rejoin that runs, needs no takeover; where one is due, the halt follows it. -/
def execDebugHalt (pairB : Bool) (load : Nat) (s : State) : Result :=
  if !s.sec.debugOpen || pairFailed s pairB || s.lock.pairs[(pairIx pairB).val].halted then .next s else
  let atOnce := !pairB || s.lock.takeover
  let after (t : State) : State := { t with lock := { t.lock with haltAfterSplit := true } }
  let served (infeasible : State) : State :=
    if atOnce then breakPair s pairB else if s.lock.splitDue then after s else if takeoverFeasible s load then after (acceptSplit s) else infeasible
  match s.mode with
  | .idle | .safe | .service => finish s (served (breakPair s pairB))
  | .run => finish s (if cfgBench s then served (holdHalt s pairB) else holdHalt s pairB)
  | .boot | .sleep => .next s

/-- A held halt is served as the device has reached IDLE (R389, R390). -/
def execDbgSplit (pairB : Bool) (s : State) : Result :=
  if !s.lock.pairs[(pairIx pairB).val].haltHeld || s.mode != .idle then .next s else finish s (breakPair s pairB)

/-- The debugger releases a halted core: it resumes unchecked (R392). -/
def execDebugRelease (pairB : Bool) (s : State) : Result :=
  finish s (s.setPair pairB fun p => { p with halted := false })

/-! ## Supplies (R396) -/

/-- The supply monitor's level: VCORE 0, VDDA 1, VDD18 2, VDDIO5 to VDDIO0 3 to 8. Outside its operating range for 10 µs the supply latches SAFE and
trips every axis; inside it, OUT_NOW clears, and the source stays until a clear finds 10 ms in range (R396, R397). VBAT raises VBAT_LOW alone
(log entry 36). The data word and the masks have the layout of Table 14.9 word 11. -/
def execSupplyOutOfRange (supply : Nat) (volts : Q) (s : State) : Result :=
  if s.power.inReset || 9 ≤ supply then .next s
  else if !supplyOut supply volts then .next { s with power := { s.power with supplyNow := setBit s.power.supplyNow (21 - supply) false } }
  else
    let t := { s with power := { s.power with
      supplyBad := setBit s.power.supplyBad (21 - supply) true, supplyNow := setBit s.power.supplyNow (21 - supply) true } }
    finish s (raise (latchSafe (firmwareTripAll t evSupplyOutOfRange)) evSupplyOutOfRange 0xFF (place 1 (21 - supply) 1))

/-- The level of VBAT for 1 ms: below 1.70 V it raises VBAT_LOW, which 1.70 V or more clears; OUT_NOW follows its operating range (Tables 14.7 and
14.10). -/
def execVbatLow (volts : Q) (s : State) : Result :=
  let low := decide (volts < 17 / 10)
  let t := { s with power := { s.power with vbatLow := low, supplyNow := setBit s.power.supplyNow 12 (low || decide (18 / 5 < volts)) } }
  if low && !s.power.vbatLow then finish s (raise t evVbatLow 0xFF 0) else .next t

end Sys2Proof.Machine
end

