-- ==== Sys2Proof/Machine/SafeInputs.lean ====
section
/-! DEFINITION. Safe inputs and safe outputs (R438 to R458): rows SAFE_INPUT_SAMPLE to SO_READBACK_FAIL, SAFE.INPUTS and
SAFE.RESTART. -/
namespace Sys2Proof.Machine
open Sys2Proof

/-- The safe-input unit samples: it is present, firmware has configured it and its clock runs (R438). -/
def siRuns (s : State) : Bool := unitPresent s 16 && firmwareUp s && s.cfg.active.isSome && !bitAt s.clk.lost 1

/-- A reset input's falling edge that ends a high of 50 ms to 2 s, with the pair healthy and, for a light curtain, unlocked (R446,
R448). -/
def resetEdge (old s : State) (f : Fin 8) (input : Nat) : State :=
  let held := old.clk.now - (old.si.riseAt[input]?.getD 0)
  if (siKind s f = 1 ∨ siKind s f = 4) ∧ siInput s f 2 = some input ∧ bitAt old.si.filtered input ∧ !bitAt s.si.filtered input
      ∧ 5000000 ≤ held ∧ held ≤ 200000000 ∧ siHealthy s f ∧ !(siKind s f == 4 && siLocked s f) then
    s.setFn f fun x => { x with restart := false }
  else s

/-- SAFE_IN_FAULT (R441): every function in demand and STO_INT set, until the next cast-on. -/
def safeInFault (s : State) (input : Nat) : State :=
  if s.si.fault then s else
  siEvaluate s (raise { s with si := { s.si with fault := true } } evSafeInFault 16 (place 0xFF 24 8 + input)) (if input < 16 then 2 ^ input else 0)

/-- TP_WIDTH and TP_PERIOD in model time. -/
def tpWidth (s : State) : Nat := ticksOf (cfgF s secSafeIn 0 4)
def tpPeriod (s : State) : Nat := max 1 (ticksOf (cfgF s secSafeIn 0 8))

/-- The window of a pulse runs, from its start to 50 µs after its end (R440). -/
def tpWindow (s : State) (k : Nat) : Bool :=
  match s.si.tpAt with | some t => s.si.tp == k && decide (s.clk.now ≤ t + tpWidth s + 5000) | none => false

/-- A path that has sampled low `n` times in a row holds its input low: for FILTER of the function that uses it (R438); an input that no
function uses follows its samples (DESIGN CHOICE, log entry 239). -/
def siHolds (s : State) (input n : Nat) : Bool :=
  n != 0 && match allFns.find? fun f => siUses s f input with
    | some f => decide (ticksOf (cfgF s secSafeIn 0 (32 + 16 * f.val + 8)) ≤ 1000 * (n - 1))
    | none => true

/-- The low samples in a row of a path after a sample: one in a window of the input's own pulse neither counts nor starts anew (R440). -/
def lowCount (s : State) (input n : Nat) (level : Bool) : Nat :=
  if tpMap s input != 0 && tpWindow s (tpMap s input - 1) then n else if level then 0 else min 102 (n + 1)

/-- What a sample shows of the pulse whose window runs (R440). -/
def tpLook (s : State) (level : Nat) : SafeIn :=
  let x := s.si
  match x.tpAt with
  | none => x
  | some t =>
    let d := s.clk.now - t
    let w := tpWidth s
    let low := 0xFFFF - level
    { x with
      tpLow := if d ≤ 5000 then x.tpLow ||| low else x.tpLow
      tpHigh := if w ≤ d ∧ d ≤ w + 5000 then x.tpHigh ||| level else x.tpHigh
      tpCross := if d < w then x.tpCross ||| low else x.tpCross }

/-- The unit after a sample of both paths: the counts, and the filtered levels, low where either path holds low. -/
def siSampled (s : State) (a b : Nat) : SafeIn :=
  let la : Vector Nat 16 := Vector.ofFn fun (i : Fin 16) => lowCount s i.val s.si.lowA[i.val] (bitAt a i.val)
  let lb : Vector Nat 16 := Vector.ofFn fun (i : Fin 16) => lowCount s i.val s.si.lowB[i.val] (bitAt b i.val)
  let filtered := (List.range 16).foldl (fun m i => setBit m i (!(siHolds s i (la[i]?.getD 0) || siHolds s i (lb[i]?.getD 0)))) 0
  { tpLook s a with
    raw := a, filtered := filtered, sampledAt := s.clk.now, lowA := la, lowB := lb
    differ := Vector.ofFn fun (i : Fin 16) => if bitAt a i.val == bitAt b i.val then 0 else min 3 (s.si.differ[i.val] + 1)
    riseAt := Vector.ofFn fun (i : Fin 16) => if bitAt filtered i.val && !bitAt s.si.filtered i.val then s.clk.now else s.si.riseAt[i.val] }

/-- The 10 µs sample of SI0 to SI15 by both paths (R438): where filtered inputs change, every function is evaluated (R443); two paths that
differ in 3 samples in a row are SAFE_IN_FAULT (R441). Functions that a tack has changed are evaluated with the next sample as well. -/
def execSafeInputSample (a b : Nat) (s : State) : Result :=
  if !siRuns s || s.clk.now < s.si.sampledAt + 1000 then .next s else
  let t := { s with si := siSampled s (a % 65536) (b % 65536) }
  let changed := t.si.filtered ^^^ s.si.filtered
  let u := (List.range 16).foldl (fun v i => if bitAt changed i then allFns.foldl (fun w f => resetEdge s w f i) v else v) t
  let v := if changed = 0 && allFns.all fun f => siActive u f == (u.fn f).active then u else siEvaluate s u changed
  finish s (match (List.range 16).find? fun i => 3 ≤ (t.si.differ[i]?.getD 0) with
    | some i => safeInFault v i
    | none => v)

/-- Two channels that differ for DISCREPANCY lock their function active (R443). `button2` names the second button's contacts of a
two-hand function. -/
def execSiDiscrepancy (fn : Fin 8) (button2 : Bool) (s : State) : Result :=
  let since := if button2 && siKind s fn == 3 then (s.fn fn).differAt[1] else (s.fn fn).differAt[0]
  let due := match since with | some t => decide (t + ticksOf (cfgF s secSafeIn 0 (32 + 16 * fn.val + 12)) ≤ s.clk.now) | none => false
  if !siRuns s || siKind s fn == 0 || (s.fn fn).lockDisc || !due then .next s else
  let t := s.setFn fn fun x => { x with lockDisc := true, sawBoth := false, sawHealthy := false }
  finish s (siEvaluate s (raise t evSiDiscrepancy 16 (place fn.val 24 8 + 0xFF)) 0)

/-- One input at one pulse (R440): `stuck` stayed high in its own pulse, `crossed` went low in another one's. -/
def testInput (s : State) (pulse input : Nat) (stuck crossed : Bool) : State :=
  let own := tpMap s input == pulse + 1
  match allFns.find? fun f => siUses s f input with
  | none => s
  | some f =>
    if tpMap s input = 0 then s
    else if (own && stuck) || (!own && crossed) then
      let t := { s with si := { s.si with testFail := setBit s.si.testFail input true, passes := s.si.passes.setIfInBounds input 0 } }
      raiseLimited (t.setFn f fun x => { x with lockTest := true, sawBoth := false, sawHealthy := false }) evSiTestFail input 16 (place f.val 24 8 + input)
    else if own then
      let n := (s.si.passes[input]?.getD 0) + 1
      { s with si := { s.si with
        tests := (s.si.tests + 1) % 65536, passes := s.si.passes.setIfInBounds input (if (s.fn f).sawHealthy then min n 3 else 0)
        testFail := if 3 ≤ n ∧ (s.fn f).sawHealthy then setBit s.si.testFail input false else s.si.testFail } }
    else s

/-- A pulse of a used TP starts in its place in the period (R439); 50 µs after its end the inputs whose contact was closed at its start are
judged by what the samples have shown (R440). -/
def execTestPulse (pulse : Fin 4) (ends : Bool) (s : State) : Result :=
  if !siRuns s || !bitAt (cfgU s secSafeIn 0 0 1) pulse.val then .next s
  else if ends then
    match s.si.tpAt with
    | none => .next s
    | some at_ =>
      if s.si.tp ≠ pulse.val ∨ s.clk.now < at_ + tpWidth s + 5000 then .next s else
      let x := s.si
      let t := { s with si := { x with tpAt := none } }
      let u := (List.range 16).foldl (fun u i =>
        if bitAt x.tpClosed i then testInput u pulse.val i (!(bitAt x.tpLow i && bitAt x.tpHigh i)) (bitAt x.tpCross i) else u) t
      finish s (siEvaluate s u 0)
  else if s.si.tpAt.isSome || (s.clk.now - s.si.tpFrom) % tpPeriod s != pulse.val * tpPeriod s / 4 then .next s
  else finish s { s with si := { s.si with tp := pulse.val, tpAt := some s.clk.now, tpClosed := s.si.raw, tpLow := 0, tpHigh := 0, tpCross := 0 } }

/-- The second button is late (R447): no permission until both have been released together. -/
def execTwoHandSync (fn : Fin 8) (s : State) : Result :=
  let x := s.fn fn
  match x.firstAt with
  | none => .next s
  | some t =>
    if !siRuns s || siKind s fn != 3 || x.awaitRelease || s.clk.now ≤ t + 50000000 then .next s else
    finish s (raise (s.setFn fn fun x => { x with awaitRelease := true, permit := false }) evTwoHandSync 16 (place fn.val 24 8 + 0xFF))

/-- The 1 ms cross-check by Pair A of the functions (R441): `agree` is whether its result is the unit's. -/
def execSafeInCrossCheck (agree : Bool) (s : State) : Result :=
  if !siRuns s || !pairAWorks s then .next s else
  let n := if agree then 0 else min 3 (s.si.crossFails + 1)
  let t := { s with si := { s.si with crossFails := n } }
  finish s (if 3 ≤ n then safeInFault t 0xFF else t)

/-- SAFE.INPUTS (Table 3.18). -/
def execSafeInputs (slot : Nat) (s : State) : Result :=
  command s slot 0x0404 fun s j =>
    succeed s s j (leBytes 2 s.si.filtered ++ leBytes 2 ((allFns.map fun f => if (s.fn f).active then place 1 f.val 1 else 0).sum))

/-- SAFE.RESTART (R448). -/
def execSafeRestart (slot : Nat) (s : State) : Result :=
  command s slot 0x0405 fun s j =>
    if 8 ≤ j.u 0 1 then badParameter s j else
    let f : Fin 8 := Fin.ofNat 8 (j.u 0 1)
    if siKind s f ≠ 4 ∨ !(s.fn f).restart then badParameter s j
    else if !siHealthy s f || siLocked s f then respond s j evClearRefusedSourceActive []
    else succeed s (siEvaluate s (s.setFn f fun x => { x with restart := false }) 0) j []

/-! ## Safe outputs (R451 to R453) -/

/-- Fields of SAFE_OUT in model time: PULSE and ON_CHECK (Table 16.5). -/
def soPulseTicks (s : State) (k : Nat) : Nat := ticksOf (cfgF s secSafeOut 0 (12 * k + 4))
def soOnCheck (s : State) (k : Nat) : Nat := ticksOf (cfgF s secSafeOut 0 (12 * k + 8))

/-- The off-pulse of an output (R451): it falls due once per second of model time at n × 250 ms, while the output is on, and ends after
PULSE. -/
def execSoPulse (out : Fin 4) (ends : Bool) (s : State) : Result :=
  if !firmwareUp s || !pairAWorks s || soUse s out.val == 0 || s.so.failed[out.val] then .next s
  else if ends then
    if !s.so.pulsing[out.val] || s.clk.now < s.so.drivenAt[out.val] + soPulseTicks s out.val then .next s else
    finish s { s with so := { s.so with pulsing := s.so.pulsing.set out.val false, testing := s.so.testing.set out.val s.so.on[out.val] } }
  else if !s.so.on[out.val] || s.so.pulsing[out.val] || s.clk.now % 100000000 != out.val * 25000000 then .next s
  else finish s { s with so := { s.so with pulsing := s.so.pulsing.set out.val true, testing := s.so.testing.set out.val false } }

/-- What a look at the readback finds (R451): the unit after it, and the reason of a failure: 1 off not seen, 2 on not seen. The readback
has to follow a switching within 50 µs or ON_CHECK, and then to stray for less than 1 ms. -/
def soLook (s : State) (k : Fin 4) (on : Bool) : SafeOut × Option Nat :=
  let x := s.so
  let d := x.driven[k.val]
  let late := s.clk.now - x.drivenAt[k.val]
  let y := { x with fb := x.fb.set k.val on }
  let reason := if d then 2 else 1
  if on == d then
    ({ y with
      shown := x.shown.set k.val true, strayAt := x.strayAt.set k.val none, testing := if d then x.testing.set k.val false else x.testing
      pulses := if d && x.testing[k.val] then x.pulses.set k.val ((x.pulses[k.val] + 1) % 65536) else x.pulses
      offMax := if !d && !x.shown[k.val] then x.offMax.set k.val (max x.offMax[k.val] (min 65535 (late / 10))) else x.offMax }, none)
  else if !x.shown[k.val] then (y, if (if d then soOnCheck s k.val else 5000) ≤ late then some reason else none)
  else match x.strayAt[k.val] with
    | some t => (y, if t + 100000 ≤ s.clk.now then some reason else none)
    | none => ({ y with strayAt := x.strayAt.set k.val (some s.clk.now) }, none)

/-- An output fails (R451, R453): it stays off until the next cast-on. -/
def soFail (s : State) (out : Fin 4) (reason : Nat) : State :=
  let t := { s with so := { s.so with
    on := s.so.on.set out.val false, failed := s.so.failed.set out.val true, pulsing := s.so.pulsing.set out.val false
    reason := s.so.reason.set out.val reason } }
  let data := place out.val 24 8 + reason
  if out.val < 2 then settleStoInt (raiseSev t evSoReadbackFail sevSafe 0xFF data [] false)
  else
    let hit := allAxes.filter fun n => axPresent t n && (soUse t out.val == 3 || cfgU t secSafety 0 (32 + 64 * n.val + 2) 1 == out.val)
    let u := { t with so := { t.so with noStart := hit.foldl (fun m n => setBit m n.val true) t.so.noStart } }
    hit.foldl requestSs1 (raiseSev u evSoReadbackFail sevStop 0xFF data [] false)

/-- A look at the ball SOFBn, at a change of it or at the end of a window (R451); FB_INVERT selects the level that means on (R450). GDEN
that waits for its readback to show off comes on then (R168). -/
def execSoReadbackFail (out : Fin 4) (level : Bool) (s : State) : Result :=
  if !firmwareUp s || !pairAWorks s || soUse s out.val == 0 || s.so.failed[out.val] then .next s else
  let r := soLook s out (level != bitAt (cfgU s secSafeOut 0 (12 * out.val + 1) 1) 0)
  let t := { s with so := r.1 }
  finish s (match r.2 with
    | some reason => soFail t out reason
    | none => if t.sto.gdenWaits then askGden t else t)

end Sys2Proof.Machine
end

