-- ==== Sys2Proof/Machine/CastOn.lean ====
section
/-! DEFINITION. Cast-on: the steps of Table 2.4, their findings and halts, and its end (R38 to R45, R50, R51, R54, R513, R514, R516). -/
namespace Sys2Proof.Machine
open Sys2Proof

/-- The next step is in progress. -/
def nextPhase (s : State) : State := { s with boot := { s.boot with phase := s.boot.phase + 1 } }

/-! ## Steps 1 to 4 -/

/-- Steps 1 to 3: the window opens, XIN has qualified, the PLLs have locked and drive time counts from 0 (R17, R38). -/
def stepClocks (s : State) : State :=
  match s.boot.phase with
  | 1 => nextPhase { s with boot := { s.boot with windowOpen := true } }
  | 2 => nextPhase s
  | _ => nextPhase { s with clk := { s.clk with driveRuns := true, drive := 0, monitorsArmed := true, lost := 0 } }

/-- Step 4: the canary (R514). The first cast-on in DEVELOPMENT makes the log key (R511). -/
def stepCanary (s : State) : State :=
  if s.sec.life = .development ∧ !s.sec.keyMade then nextPhase (publishLogKey (makeLogKey s))
  else if s.sec.canary || s.sec.erased then nextPhase s
  else nextPhase (tamper s srcVbat (2 ^ 24))

/-! ## Steps 5 to 8 -/

/-- Steps 5 and 6: BIST (R393). Step 5 clears the mailbox RAM and DOORBELL_IN (R69). -/
def stepBist (s : State) (good : Bool) : State :=
  if !good then halt s evBistFail
  else if s.boot.phase = 5 then nextPhase { s with host := { s.host with ram := [], posted := [] } }
  else nextPhase s

/-- Results of the self-test report (Table 2.6): present units of a list. -/
def noteTests (s : State) (units : List Nat) (bad : Nat → Bool) : State :=
  let put (l : List Nat) (u : Nat) : List Nat := if unitPresent s u then lupd l u (fun _ => ofFlag (bad u)) else l
  { s with boot := { s.boot with selftest := units.foldl put s.boot.selftest } }

/-- Comparators of present axes: the entries of absent ones are SKIPPED (Table 2.6). -/
def comparatorsBad (s : State) (n : Nat) (partT : Nat) : Bool := unitPresent s n && bitsOf partT (6 * n) 6 != 0

/-- COMPARATOR_TEST_FAIL of cast-on, of a pair and a group of its own (R43, R398). -/
def injectionFails (s : State) (b : Bool) (group : Nat) : State :=
  defer (({ s with boot := { s.boot with testFailed := true } }).setPair b fun p => { p with testFail := true }) evComparatorTestFail 0xFF (lockData b group)

/-- Step 7: the comparator injection test (R43). A group that fails part L is the first class of its pair (R375). The event names a pair and a
group also for part T, which has none: free values. -/
def stepInjection (s : State) (found : CastOnFindings) : State :=
  let badT (n : Nat) : Bool := comparatorsBad s n found.partT
  let t := noteTests s [0, 1, 2, 3] fun n => badT n || bitAt found.badUnits n
  nextPhase (match found.partL with
    | some g => let b := decide (32 ≤ g.val); injectionFails (noteClass t b 4 g.val 0) b g.val
    | none =>
      if [0, 1, 2, 3].any badT then
        let (x, u) := drawNat t
        injectionFails u (x % 2 == 1) (x / 2 % 64)
      else t)

/-- Firmware starts to raise events: those noted before it, and one HSPI_FRAME_ERROR where the bit is set (R61). The register signatures
count from here (R382). -/
def firmwareStarts (s : State) : State :=
  let t := s.boot.deferred.foldl (fun u e => raise u e.1 e.2.1 e.2.2) { s with
    boot := { s.boot with deferred := [] }
    lock := { s.lock with pairs := s.lock.pairs.map fun p => { p with regsigAt := s.clk.now } } }
  if t.host.hspiErr then raise t evHspiFrameError 0xFF 0 else t

/-- The image that runs (R40, R513). -/
def runFirmware (s : State) (b fallback : Bool) : State :=
  let img := fwSlotBytes s b
  nextPhase { s with boot := { s.boot with
    fwSlot := b, fwFallback := fallback, fwVersion := fieldU img 4 4, fwSecVersion := fwSecOf img, fwAdvance := fwAdvanceOf img } }

/-- Step 8: the first firmware slot, or the other one; with neither, cast-on halts for the recovery loader (R40). -/
def stepFirmware (s : State) : State :=
  let b := fwFirst s
  if fwValid s b then firmwareStarts (runFirmware s b false)
  else if fwValid s (!b) then firmwareStarts (runFirmware (defer s evFwSlotFallback 0xFF 0) (!b) true)
  else serve (halt s evNoValidFirmware)

/-! ## Steps 10 and 11: the configuration (R41) -/

/-- Checks 1 and 2 of a slot, and all of them with the certificate that its own key hash admits. -/
def slotRead (s : State) (b : Bool) : Option LoadFailure :=
  let img := slotImg (s.slot b)
  (checkFormat img).orElse fun _ => checkSignature s img
def slotCheck (s : State) (b : Bool) : Option LoadFailure :=
  let img := slotImg (s.slot b)
  loadCheck s img ((chooseCert s img).map (·.1))

/-- The slot that R41 loads, given which are valid. -/
def chooseSlot (s : State) (okA okB : Bool) : Option Bool :=
  if okA && okB then some (decide (imgGeneration s.cfg.slotA.bytes < imgGeneration s.cfg.slotB.bytes))
  else if okA then some false else if okB then some true else none

/-- The slots that are invalid are marked, and their failures raised. -/
def markSlot (s : State) (b : Bool) (f : Option LoadFailure) : State :=
  match f with
  | some x => raiseLoad (s.setSlot b { s.slot b with state := .invalid }) x
  | none => s

/-- No slot is left: cast-on halts with restricted service (Table 2.5). -/
def noConfig (s : State) : State := serve (halt (raise s evNoValidConfig 0xFF 0) evNoValidConfig)

/-- Two valid slots are compared (R41, R95, R97). -/
def compareSlots (s : State) (b : Bool) : State :=
  let img := slotImg (s.slot b)
  let other := slotImg (s.slot (!b))
  if other = img then s else
  let c := classify s img other
  raiseDiff s (if imgGeneration img = imgGeneration other then (.live, c.2) else c) img other

/-- Step 10: both slots are read and verified, and compared where both are valid (R41, R95). -/
def stepRead (s : State) : State :=
  let fa := slotRead s false
  let fb := slotRead s true
  let t := markSlot (markSlot s false fa) true fb
  match chooseSlot s fa.isNone fb.isNone with
  | some b => nextPhase { (if fa.isNone && fb.isNone then compareSlots t b else t) with boot := { t.boot with cfgSlot := b } }
  | none => noConfig t

/-- The newest record of a type and unit in the log. -/
def lastRecord (s : State) (type unit : Nat) : Option LogRecord := ((s.log.region ++ s.log.staged).filter fun r => r.type == type && r.unit == unit).getLast?

/-- The newest generation that a TACK record of the log shows as new. -/
def lastTackGeneration (s : State) : Option Nat := (lastRecord s 0x0013 0xFF).map fun r => fieldU r.body 4 4

/-- The digest of that set: the DIGEST record of unit 1 that belongs to the TACK record, the first after it (Table 19.10). -/
def lastTackDigest (s : State) : List Byte :=
  match lastRecord s 0x0013 0xFF with
  | some k => (((s.log.region ++ s.log.staged).find? fun r => r.type == 0x0014 && r.unit == 1 && decide (k.index < r.index)).map fun (r : LogRecord) => r.body).getD []
  | none => []

/-- A generation change at cast-on is logged as a tack record in the same form (R104), and its motors are checked as after a tack (R232). The
old set is the other slot's where its format is good and it is of the generation that the log's last tack names, or where the log has no tack; otherwise
the log's last tack names its generation and digest, and what has changed of ODOMETRY and LIMITS is not known. Without either nothing shows a
change. DEDUCED (log entry 102). -/
def castOnTack (s : State) (img : List Byte) (other : Option (List Byte)) : State :=
  let g := imgGeneration img
  let last := lastTackGeneration s
  let changed := match last, other with
    | some k, _ => k != g
    | none, some o => imgGeneration o != g
    | none, none => false
  if !changed then s else
  let t := match other.filter fun o => last.isNone || last == some (imgGeneration o), last with
    | some o, _ => tackRecords s o img true false 0 s.clk.drive.toNat
    | none, some k => tackLine s k (lastTackDigest s) img 1 0 s.clk.drive.toNat
    | none, none => s
  t.forAxes axEnabled fun u n => u.setAxis n fun a => { a with ctl := { a.ctl with spinDue := true, spinMs := 0 } }

/-- What becomes of the other slot as a set is loaded: it is the same or differs, as step 10 found. A slot that fails a check of step 11 counts
as invalid (R41), and with it no difference between valid images is left; where a twin copy was broken, it starts again (R100). -/
def settleOther (s : State) (b : Bool) (img : List Byte) (otherOk : Bool) : State :=
  if otherOk then s.setSlot (!b) { s.slot (!b) with state := if slotImg (s.slot (!b)) = img then .current else .differing }
  else
    let t := { s with cfg := { s.cfg with diff := .same, diffAt := 0 } }
    if t.cfg.copyBroken then raise (startCopy t (!b)) evCfgSlotInvalid 0xFF 0 else t

/-- The certificate in force is chosen (R516). -/
def adoptCert (s : State) (img : List Byte) : State :=
  match chooseCert s img with
  | some (c, isB) => { s with sec := { s.sec with cert := some c, certIsB := isB, certMissing := false } }
  | none => raise { s with sec := { s.sec with cert := none, certMissing := true } } evCertMissing 0xFF 0

/-- A slot becomes the active set. -/
def adoptSet (s : State) (b otherOk : Bool) : State :=
  let img := slotImg (s.slot b)
  let t := (s.setSlot b { s.slot b with state := .current })
  let u := { t with
    cfg := { t.cfg with active := some img }
    boot := { t.boot with cfgSlot := b }
    sec := { t.sec with tamperCfg := fieldU ((imgBody img secSecurity 0).getD []) 0 1 } }
  let other := slotImg (s.slot (!b))
  castOnTack (settleOther (adoptCert u img) b img otherOk) img (if (checkFormat other).isNone && other != img then some other else none)

/-- Step 11: the load checks; a slot that fails counts as invalid, and the other is tried. -/
def stepCheck (s : State) : State :=
  let r := { s with sec := { s.sec with certFloor := rebuiltFloor s } }
  let fa := slotCheck r false
  let fb := slotCheck r true
  let t := markSlot (markSlot r false (if (slotRead r false).isSome then none else fa)) true (if (slotRead r true).isSome then none else fb)
  match chooseSlot r fa.isNone fb.isNone with
  | some b => nextPhase (adoptSet t b (if b then fa.isNone else fb.isNone))
  | none => noConfig t

/-! ## Steps 12 to 14 -/

/-- Step 12: the schedule (R303, R305). -/
def stepSchedule (s : State) : State :=
  match schedule s with
  | .ok p => nextPhase (adoptSchedule s p)
  | .error f => serve (halt (raise s evPlacementInfeasible 0xFF (infeasibleData f)) evPlacementInfeasible)

/-- The first phase-voltage measurement is recorded, and in the log where it shows rotation (R51). No record type of the log is for a
measurement without rotation: it is recorded in the state. DEDUCED (log entry 196). -/
def noteMotion (s : State) (speeds : Vector Q 4) : State :=
  ({ s with boot := { s.boot with firstSpeeds := some speeds } }).forAxes axEnabled fun t n =>
    if speeds[n.val] = 0 then t else raiseSev t evMotionAtWake sevWarn n.val (place n.val 24 8) (f32Bytes speeds[n.val]) true

/-- Step 13: carriers, converters, temperatures, position interfaces, and the safe inputs with their pulse test (R117, R195, R237, R358,
R442). -/
def stepUnits (s : State) (found : CastOnFindings) : State :=
  let t := startCarriers s
  let conv (k : Fin 8) : Converter :=
    { t.sensing.adc[k.val] with
      calibrated := !bitAt found.badConverters k.val
      regular := if k.val = 7 then none else (regularSlots t k.val).head? }
  let sens : Sensing := { t.sensing with adc := Vector.ofFn conv }
  let u := { t with
    sensing := sens
    back := { t.back with
      levelA := Vector.ofFn fun (i : Fin 4) => bitAt found.quadLevels (2 * i.val), levelB := Vector.ofFn fun (i : Fin 4) => bitAt found.quadLevels (2 * i.val + 1) }
    pos := Vector.ofFn fun (i : Fin 4) => { t.pos[i.val] with
      updated := t.clk.now, levelA := bitAt found.quadLevels (2 * i.val), levelB := bitAt found.quadLevels (2 * i.val + 1) }
    si := { t.si with
      raw := bitsOf found.siLevels 0 16, filtered := bitsOf found.siLevels 0 16, riseAt := Vector.replicate 16 t.clk.now
      sampledAt := t.clk.now, tpFrom := t.clk.now
      lowA := Vector.ofFn fun (i : Fin 16) => if bitAt found.siLevels i.val then 0 else 102
      lowB := Vector.ofFn fun (i : Fin 16) => if bitAt found.siLevels i.val then 0 else 102 } }
  let v := u.forAxes axEnabled fun x n => x.setTh n fun h => { h with tMag := if bitAt (thU x n 0 1) 1 then some (tRefOf x n) else none }
  let bad := (List.range 16).find? fun i => bitAt (found.badInputs &&& found.siLevels) i && tpMap v i != 0
  let w := if unitPresent v 16 then siEvaluate t v 0xFFFF else v
  let x := match bad with
    | some i => if unitPresent w 16 then safeInFault w i else w
    | none => w
  nextPhase (noteMotion (noteTests x [8, 9, 10, 11, 13, 14, 15, 16, 17, 18, 19] fun k => bitAt found.badUnits k || (k == 16 && bad.isSome)) found.speeds)

/-- The CAN controllers go on the bus through integration, but one that failed its loop-back test (R464, R475, R479). -/
def startCan (s : State) (found : CastOnFindings) : State :=
  allAxes.foldl (fun t n =>
    if !canPresent t n || !cfgHas t secCan n.val then t
    else
      let bad := bitAt found.badUnits (8 + n.val)
      let u := t.setCan n fun c => { c with descs := canDescs t n, link := if bad then .offline else .integrating, failed := bad }
      if bad then raise (noteTests u [8 + n.val] fun _ => true) evCanSelftestFail (8 + n.val) (place n.val 24 8) else u) s

/-- The log resumes (R50, R51, R48, R520): after a shutdown without bind-off the records that survived in the staging RAM are written out
to the region, which the store is taken to accept (DESIGN CHOICE, log entry 195); then come what waited, the record of the shutdown, the
wake with the time in SLEEP, and the detections of the tamper slot. -/
def resumeLog (s : State) : State :=
  let r := { s with log := { s.log with resumed := true, writeAt := s.clk.now, countersAt := s.clk.now } }
  let t := logDrain (if r.power.cleanShutdown then r else flushAll r)
  let u := if t.power.cleanShutdown then t else raise { t with power := { t.power with cleanShutdown := true } } evUncleanShutdown 0xFF 0
  let c := u.boot.wakeCause
  let v := if c = 1 ∨ c = 2 ∨ c = 5 then raiseLogged u evWake 0xFF c (leBytes 8 (u.clk.rtc - u.power.sleepRtc)) else u
  tamperFlush v

/-- Step 14: the Backstay with a window that names OFF for every axis, CAN, the log, the ring, which a difference outstanding between the sets keeps it from joining
(R97, R503; the attempt lasts until a SYNC or an election ends it, log entry 275), and the position of the auxiliary channel (R339, R415, R420, R475, R503). -/
def stepOnline (s : State) (found : CastOnFindings) : State :=
  let a := resumeLog s
  let b := bsCopy a
  let c := acceptFrame b (pairAFrame b)
  let d := auxCastOn (startCan c found)
  let e := if cfgRing d && unitPresent d 14 && d.cfg.diff == .same then beginJoin d else d
  { e with boot := { e.boot with step14 := true } }

/-! ## The rows -/

/-- A timed step of cast-on completes (R38). -/
def castOnStep (s : State) (found : CastOnFindings) : State :=
  match s.boot.phase with
  | 1 | 2 | 3 => stepClocks s
  | 4 => stepCanary s
  | 5 => stepBist s found.memoryBist
  | 6 => stepBist s found.logicBist
  | 7 => stepInjection s found
  | 8 => stepFirmware s
  | 9 => nextPhase s
  | 10 => stepRead s
  | 11 => stepCheck s
  | 12 => stepSchedule s
  | 13 => stepUnits s found
  | _ => stepOnline s found

/-- Cast-on runs: out of reset, in BOOT, and not halted. -/
def castOnRuns (s : State) : Bool := s.mode == .boot && !s.power.inReset && !s.boot.halt && decide (1 ≤ s.boot.phase) && decide (s.boot.phase ≤ 14)

def execCastOnStepDone (found : CastOnFindings) (s : State) : Result :=
  if castOnRuns s && !s.boot.step14 then finish s (castOnStep s found) else .next s

/-- FW_FLOOR rises to the version of an ADVANCE_FLOOR image (R513). -/
def raiseFloor (s : State) : State :=
  if s.boot.fwAdvance && decide (s.sec.fuses.fwFloor < s.boot.fwSecVersion) then
    raiseLogged { s with sec := { s.sec with fuses := { s.sec.fuses with fwFloor := s.boot.fwSecVersion } } } evFwFloorRaised 0xFF s.boot.fwSecVersion []
  else s

/-- Step 15, once EARLY_N has released (R38, R54): IDLE, CAST_ON_DONE with the duration, the gate-driver supplies, and mailbox service. -/
def execCastOnDone (s : State) : Result :=
  if !castOnRuns s || !s.boot.step14 || !s.power.seated then .next s else
  let t := { s with
    mode := .idle
    boot := { s.boot with phase := 0x0F }
    host := { s.host with outSystem := true, beatSpi := s.clk.now, beatCan := s.clk.now } }
  let u := raiseFloor (raiseLogged t evCastOnDone 0xFF ((s.clk.now - s.boot.startedAt) % 2 ^ 32) [])
  finish s (serve (askGden u))

/-- XIN has not qualified within 10 ms (R44). -/
def execXinStartFail (s : State) : Result :=
  if castOnRuns s && s.boot.phase == 2 then finish s (halt s evXinStartFail) else .next s

/-- A PLL has not locked within 1 ms of XIN qualification, or a clock monitor fails its forced test (R44, R395). -/
def execPllLockTimeout (s : State) : Result :=
  if castOnRuns s && s.boot.phase == 3 then finish s (halt s evClockLoss) else .next s

end Sys2Proof.Machine
end

