-- ==== Sys2Proof/Machine/Clock.lean ====
section
/-! DEFINITION. Row CLOCK_LOSS: the reactions of Table 1.5 to a clock that a monitor has declared lost (R18, R19, R395). -/
namespace Sys2Proof.Machine
open Sys2Proof

/-- A latched trip with source CLOCK on the axes that satisfy a condition. -/
def clockTrips (s : State) (p : State → Fin 4 → Bool) (d : Nat) : State := s.forAxes (fun t n => axPresent t n && p t n) fun t n => clockTripOne t n d

/-- A carrier runs, so that the watchdog of its axis follows the loss of the FABRIC clock. -/
def carrierRuns (s : State) : Bool := allAxes.any fun n => axEnabled s n && (s.axis n).pwm.running

/-- Without the FABRIC clock the FIFOs of the Halyard ports drain, and the ports report link down (Table 1.4). -/
def portsSilent (s : State) : State := dropPorts s [0, 1]

/-- The reaction of Table 1.5. The loss of CORE acts through the Backstay's feed timeout, that of FABRIC through the PWM watchdogs,
that of CAN through the end-to-end timeouts. -/
def clockReaction (s : State) : ClockDomain → State
  | .xin => latchSafe (clockTrips s (fun _ _ => true) 9)
  | .core => s
  | .fabric => portsSilent (if carrierRuns s then s else latchSafe s)
  | .pwm => freewheelAll (latchSafe (clockTrips { s with clk := { s.clk with driveRuns := false } } (fun _ _ => true) 2))
  | .adc => clockTrips s (fun t n => usesAnyConv t n || (List.range 16).any (usesDs t n)) 3
  | .can => s
  | .position => s.forAxes (fun t i => posMode t i != 0) fun t i => failSource t i failClock
  | .halyard => halyardClockLost s
  | .backstay => latchSafe (clockTrips (loseLiveness s) (fun _ _ => true) 7)
  | .aon => tamper s srcAon (2 ^ 25)

/-- The loss is declared: FAULTSUM.CLOCK_LOSS, the reaction and the event (R395, R398). -/
def execClockLoss (domain : ClockDomain) (s : State) : Result :=
  let d := domainNumber domain
  if s.power.inReset || s.mode == .sleep || !s.clk.monitorsArmed || bitAt s.clk.declared d then .next s else
  let t := { s with
    clk := { s.clk with
      lost := setBit s.clk.lost d true, declared := setBit s.clk.declared d true }
    host := { s.host with clockLoss := true } }
  finish s (raise (clockReaction t domain) evClockLoss 0xFF d)

end Sys2Proof.Machine
end

