-- ==== Sys2Proof/Machine/SafeCommands.lean ====
section
/-! DEFINITION. The SAFE commands that clear, report and discharge (R33, R164, R165, R425 to R428, R436): rows SAFE_CLEAR,
SAFE_CLEAR_TRIP, SAFE_STATUS, SAFE_DISCHARGE_RESISTOR and SAFE_DISCHARGE_WINDINGS. -/
namespace Sys2Proof.Machine
open Sys2Proof

/-! ## SAFE.CLEAR (R33) -/

/-- The axis freewheels or has completed its discharge (R33, R428). -/
def axSettled (a : Axis) : Bool := a.core.st != .axisSafe || a.core.sub == .freewheel || (a.core.sub == .discharge && a.core.discharged)

/-- The first condition of R33 that fails. A failure of Pair A has been answered before the body is reached. -/
def clearReason (s : State) : Option Nat :=
  if anyAxis s fun n => !axSettled (s.axis n) then some rsAxisNotSettled
  else if anyAxis s (tripped s) then some rsTripLatched
  else if s.lock.pairAFailed then some rsPowerCycle
  else none

/-- The device returns to IDLE with every axis OFF; a feed loss that is over no longer stands (Table 15.12). -/
def clearSafe (s : State) : State :=
  let t := s.forAxes axPresent axisOff
  { t with mode := .idle, back := { t.back with feedLost := t.back.feedLost && t.back.feedDown } }

def execSafeClear (slot : Nat) (s : State) : Result :=
  command s slot 0x0401 fun s j =>
    match clearReason s with
    | some r => refuse s j r
    | none => succeed s (clearSafe s) j [BitVec.ofNat 8 (modeCode .idle)]

/-! ## SAFE.CLEAR_TRIP (R164, Table 6.4) -/

/-- The cause of a FIRMWARE trip still stands, as its chapter states ("Cleared by" of Tables 7.14, 8.6, 10.6, 14.6, 14.10 and
15.12; R312). A cause without such a condition is gone. -/
def causeStands (s : State) (n : Fin 4) (cause : Nat) : Bool :=
  let a := s.axis n
  if cause = evSampleLost then !a.sense.completeSince
  else if cause = evConverterImplausible then (List.finRange 8).any fun c => usesConv s n c.val && (s.conv c).outlier
  else if cause = evCheckUnresolved then s.sensing.unresolved
  else if cause = evCurrentOffsetFault then ([0, 1, 2] : List (Fin 3)).any fun l => a.sense.offsetBad[l.val]
  else if cause = evDsModulatorFault then
    (List.finRange 16).any fun c => usesDs s n c.val && dsFaulted s c
  else if cause = evCatchOverspeed then decide (19 / 20 * udcOf s n ≤ a.mon.eLine)
  else if cause = evIdleOverspeed then a.saf.selection != .freewheel
  else if cause = evEccUncorrectable then s.ecc.pool.any fun p => bitAt p.2 n.val
  else if cause = evSupplyOutOfRange then bitsOf s.power.supplyBad 13 9 != 0
  else if cause = evTamperGlitch then s.sec.suspended
  else false

/-- The BACKSTAY source is inactive (R425). -/
def backstayQuiet (s : State) (n : Fin 4) : Bool :=
  let b := (s.axis n).bs
  s.back.armed && !s.back.feedDown && decide (4 ≤ b.goodFrames) && !b.patternLock && !s.back.livenessLost

/-- A source of Table 6.4 on an axis is active, GROUP apart. -/
def sourceActive (s : State) (n : Fin 4) (bit : Nat) : Bool :=
  let t := (s.axis n).trip
  if bit = bitStoA then s.sto.aLow || !s.sto.aQual
  else if bit = bitStoB then s.sto.bLow || !s.sto.bQual
  else if bit = bitStoInt then s.sto.intSet
  else if bit = bitBackstay then !backstayQuiet s n
  else if bit = bitHalyard then (match grpOf s n with | some g => ringTripBit s g | none => false)
  else if bit = bitWatchdog then !t.commitSince
  else if bit = bitEscalated then (t.escCmp &&& (t.cmpOut ||| t.cmpAct)) != 0 || (t.escDsf &&& t.dsfAct) != 0
  else if bit = bitClock then (t.clockDomains &&& s.clk.lost) != 0
  else if bit = bitFirmware then t.fwCauses.any (causeStands s n)
  else if bit = bitCmp ∨ bit = bitDsf then ((t.cmpLatch ||| t.cmpHanded ||| t.cmpTrips) &&& (t.cmpOut ||| t.cmpAct)) != 0 || ((t.dsfLatch ||| t.dsfHanded ||| t.dsfTrips) &&& t.dsfAct) != 0
  else if 16 ≤ bit ∧ bit ≤ 18 then bitAt (fltLowNow s n) (bit - 16)
  else false

/-- The latched sources of an axis that are active, in TRIPSRC layout, GROUP apart. -/
def activeOwn (s : State) (n : Fin 4) : Nat :=
  ((List.range 32).map fun b => if b ≠ bitGroup ∧ bitAt (s.axis n).trip.src b ∧ sourceActive s n b then place 1 b 1 else 0).sum

/-- The axes that a clear applies to: the named one, or every member of its group. -/
def clearSet (s : State) (n : Fin 4) : List (Fin 4) := (n :: axMembers s n).eraseDups

/-- The active sources of the set; GROUP is active while a member's own source is. -/
def activeSources (s : State) (ns : List (Fin 4)) : Nat :=
  let own := ns.foldl (fun m n => m ||| activeOwn s n) 0
  own ||| (if own ≠ 0 ∧ (ns.any fun n => bitAt (s.axis n).trip.src bitGroup) then place 1 bitGroup 1 else 0)

/-- What the monitors report good at the clear: clock domains, and supplies that have been in range for 10 ms. -/
def reportGood (s : State) (clocks supplies : Nat) : State :=
  let lost := without s.clk.lost clocks
  let out (mask : Nat) : Nat := (List.range 9).foldl (fun m k => if bitAt supplies k then setBit m (21 - k) false else m) mask
  { s with
    clk := { s.clk with lost := lost, declared := without s.clk.declared clocks, driveRuns := s.clk.driveRuns || (bitAt s.clk.lost 2 && !bitAt lost 2) }
    power := { s.power with supplyBad := out s.power.supplyBad, supplyNow := out s.power.supplyNow } }

/-- The latched trip of an axis is cleared: TRIPSRC, the level-2 latches of its sources, the holds of R156, the marks of R139; the
capture ring re-arms (R171). Latches of CBC sources stay (R163). A capture whose post-trigger share is still being recorded at the clear is
discarded, neither frozen nor written: DESIGN CHOICE (log entry 250), unsafe. -/
def clearTripOne (s : State) (n : Fin 4) : State :=
  let src := (s.axis n).trip.src
  if src = 0 then s else
  let t := s.setAxis n fun a => { a with
    trip := { a.trip with
      src := 0, cmpLatch := 0, dsfLatch := 0, fltLatch := 0, side := Vector.replicate 3 0, cmpTrips := 0, dsfTrips := 0, cmpHanded := 0, dsfHanded := 0
      fltHanded := 0, escCmp := 0, escDsf := 0
      clockDomains := 0, fwCauses := [] }
    pwm := { a.pwm with legs := a.pwm.legs.map fun (l : PwmLeg) => { l with missH := 0, missL := 0, markH := false, markL := false } }
    bs := { a.bs with cleared := true }
    cap := { a.cap with state := if cfgU s secTrip n.val 12 1 = 0xFF then 0 else 1, ring := [], remaining := none, later := 0 } }
  raiseLogged t evTripCleared n.val (place n.val 24 8) (leBytes 4 src)

def execSafeClearTrip (slot clocksGood suppliesGood : Nat) (s : State) : Result :=
  command s slot 0x0402 fun s j =>
    if h : j.u 0 1 < 4 then
      let t := reportGood s clocksGood suppliesGood
      let ns := clearSet t ⟨j.u 0 1, h⟩
      let act := activeSources t ns
      if act ≠ 0 then respond t j evClearRefusedSourceActive (leBytes 4 act)
      else succeed t (ns.foldl clearTripOne t) j (leBytes 4 0)
    else badParameter s j

/-! ## SAFE.STATUS (R436, Table 15.9) -/

/-- A bit per present axis, from bit `base` on. -/
def axisBits (s : State) (base : Nat) (p : Fin 4 → Bool) : Nat :=
  (allAxes.map fun n => if axPresent s n && p n then place 1 (base + n.val) 1 else 0).sum

/-- A safe output that BRAKE_SO names. -/
def hasBrake (s : State) (n : Fin 4) : Bool := axEnabled s n && (safetyU s n 2 1 == 2 || safetyU s n 2 1 == 3)

def safeWord (s : State) : Nat :=
  axisBits s 28 (fun n => (s.axis n).discharging) + place (ofFlag s.disch.ball) 27 1 +
  axisBits s 20 (fun n => hasBrake s n && !(s.axis n).saf.brakeOut) + axisBits s 16 (fun n => sdiFwd s n || sdiRev s n) +
  axisBits s 12 (slsActive s) + axisBits s 8 (fun n => (s.axis n).core.st == .stopping && (s.axis n).saf.stopSs1) +
  place (ofFlag s.sto.intSet) 1 1 + place (ofFlag (s.sto.aLow || s.sto.bLow)) 0 1

def backWord (s : State) : Nat :=
  axisBits s 28 (fun n => (s.axis n).bs.geRemoved) + axisBits s 24 (fun n => (s.axis n).bs.held) +
  place (ofFlag s.back.armed) 23 1 + place (ofFlag s.back.feedLost) 22 1 + place (ofFlag s.back.bench) 21 1 +
  place (ofFlag (anyAxis s fun n => (s.axis n).bs.patternLock)) 20 1 + place s.back.seq 0 16

/-- Four flags as the low bits of a byte. -/
def flags4 (v : Vector Bool 4) : Byte := BitVec.ofNat 8 (allAxes.map fun k => place (ofFlag v[k.val]) k.val 1).sum

def execSafeStatus (slot : Nat) (s : State) : Result :=
  command s slot 0x0403 fun s j => succeed s s j (leBytes 4 (safeWord s) ++ [flags4 s.so.on, flags4 s.so.failed, 0, 0] ++ leBytes 4 (backWord s))

/-! ## SAFE.DISCHARGE (R426 to R428) -/

/-- The checks of R426 in order, for a method whose conditions are given. -/
def dischargeBody (s : State) (j : Job) (windings ok : Bool) (start : State → State) : State :=
  if rotating s then refuse s j rsRotating
  else if windings && (stoActive s || !stoQualified s) then refuse s j rsStoActive
  else if !ok || dischRuns s then badParameter s j
  else succeed s (start s) j []

/-- Method 0, and the methods that do not exist. -/
def execSafeDischargeResistor (slot : Nat) (s : State) : Result :=
  command s slot 0x0406 fun s j =>
    if h : j.u 0 1 < 4 then
      if j.u 1 1 = 1 then s
      else if j.u 1 1 ≠ 0 then badParameter s j
      else dischargeBody s j false (resistorOk s) fun t => startResistor t ⟨j.u 0 1, h⟩
    else badParameter s j

/-- Method 1. -/
def execSafeDischargeWindings (slot : Nat) (s : State) : Result :=
  command s slot 0x0406 fun s j =>
    if h : j.u 0 1 < 4 then
      if j.u 1 1 ≠ 1 then s
      else dischargeBody s j true (windingsOk s ⟨j.u 0 1, h⟩) fun t => startWindings t ⟨j.u 0 1, h⟩
    else badParameter s j

end Sys2Proof.Machine
end

