-- ==== Sys2Proof/Machine/DiagMaps.lean ====
section
/-! DEFINITION. The words of the DIAG maps (Tables 4.8, 5.9 to 5.18, 6.10 to 6.14, 7.11 to 7.13, 8.5, 9.7, 10.5, 11.9 to 11.11,
12.5, 12.6, 13.7, 14.8, 14.9, 15.10, 15.11, 16.6, 16.7, 17.12, 18.6, 19.15, 19.16). A field that reports a measurement which no rule of the
spec derives from the commands (a load, a shorter wait, an alignment) is a free value, `fr k` (log entry 5). -/
namespace Sys2Proof.Machine
open Sys2Proof

/-- A flag placed at a bit. -/
def fl (b : Bool) (n : Nat) : Nat := place (ofFlag b) n 1
/-- Flags of a list, the first at bit `lo`. -/
def flags (lo : Nat) (bs : List Bool) : Nat := (bs.zipIdx.map fun x => fl x.1 (lo + x.2)).sum
/-- A signed 32-bit word, and a count that saturates in a field. -/
def sWord (i : Int) : Nat := unsignedOf 32 i
def satField (x lo width : Nat) : Nat := place (min x (2 ^ width - 1)) lo width

/-! ## Configuration (Table 4.8) -/

/-- The slot that is compared with the active set, where it is neither PENDING, COPYING nor INVALID. -/
def otherImage (s : State) : Option (List Byte) :=
  let other := if s.cfg.slotA.state == .current then s.cfg.slotB else s.cfg.slotA
  match other.state with
  | .current | .differing => some (slotImg other)
  | _ => none

/-- Eight words of a digest, first byte in bits 7:0. -/
def digestWords (d : List Byte) : List Nat := (List.range 8).map fun k => fieldU d (4 * k) 4

def diffEntry (s : State) (other : Option (List Byte)) (x : Section) : List Nat :=
  let o := other.map fun img => (imgSections img).find? fun y => sectionKey y == sectionKey x
  let cls := match o with
    | none => 0
    | some none => 3
    | some (some y) =>
      if x.body = y.body then 0
      else match other with
        | some img => if (⟨x.id, x.inst, some x.body, some y.body⟩ : SecDiff).live s (probeOf s img) then 2 else 1
        | none => 0
  let od := match o with | some (some y) => digestWords (sectionDigest y) | _ => List.replicate 8 0
  [place x.id 24 8 + place x.inst 16 8 + cls] ++ digestWords (sectionDigest x) ++ od

def mapDiff (s : State) : List Nat :=
  (match s.cfg.active with | some img => (imgSections img).flatMap (diffEntry s (otherImage s)) | none => []) ++ List.replicate 17 0

/-! ## PWM unit and trips -/

def mapPwm (s : State) (n : Fin 4) : List Nat :=
  let p := (s.axis n).pwm
  let l (k : Fin 3) := p.legs[k.val]
  [fl p.running 31 + fl p.pending.isSome 30 + fl p.deferred 29 + fl p.periodClamp 28 + fl p.memberCommit 27 +
     fl (tripped s n && (s.axis n).core.st == .axisSafe) 26 + fl (legs3.any fun k => p.block[k.val]) 25 + place p.wdCount 20 4 +
     satField p.stretchCount 8 8 + fl p.down 0,
   satField p.commitOverrun 16 16 + satField p.lateCommit 0 16, satField p.dropped 16 16 + satField p.stretched 0 16,
   satField (l 2).missH 24 8 + satField (l 2).missL 20 4 + satField (l 1).missH 16 4 + satField (l 1).missL 12 4 +
     satField (l 0).missH 8 4 + satField (l 0).missL 4 4 + fl (l 2).noisy 2 + fl (l 1).noisy 1 + fl (l 0).noisy 0] ++
  (legs3.flatMap fun k => [place p.active.cmpA[k.val] 0 23, place p.active.cmpB[k.val] 0 23]) ++
  [place p.active.period 0 18, fl p.safeHeld 31 + place p.safeSeq 8 8 + place p.safepat 0 2, place p.carrier 0 32, 0]

/-- TRIPACT: sources that are levels are shown as they stand, the others while they are latched and active by Table 6.4. -/
def tripAct (s : State) (n : Fin 4) : Nat :=
  let t := (s.axis n).trip
  let level (b : Nat) : Bool := sourceActive s n b
  fl (level bitStoA) bitStoA + fl (level bitStoB) bitStoB + fl (level bitStoInt) bitStoInt + fl (level bitHalyard) bitHalyard +
  fl (t.cmpAct != 0) bitCmp + fl (t.dsfAct != 0) bitDsf + place (fltLowNow s n) 16 3 +
  (([bitBackstay, bitWatchdog, bitEscalated, bitClock, bitFirmware].map fun b => fl (bitAt t.src b && sourceActive s n b) b).sum) +
  fl (bitAt t.src bitGroup && ((clearSet s n).any fun m => activeOwn s m != 0)) bitGroup

def mapTrip (s : State) (n : Fin 4) : List Nat :=
  let t := (s.axis n).trip
  [t.src, tripAct s n, satField t.cbcConsec 24 8 + satField t.cbcTrips 0 24, place (t.cmpLatch ||| t.cmpCbc) 0 24, place t.cmpAct 0 24,
   place (t.dsfLatch ||| t.dsfCbc) 16 16 + place t.dsfAct 0 16,
   (legs3.map fun k => place t.side[k.val] (16 + 2 * k.val) 2).sum + fl (t.cmpHanded != 0 || t.dsfHanded != 0 || t.fltHanded != 0) 12 +
     place t.fltLatch 8 3 + place (fltLowNow s n) 4 3, 0]

def mapSto (s : State) : List Nat :=
  [fl s.sto.aLow 31 + fl s.sto.bLow 30 + fl s.sto.intSet 29 + fl s.sto.discrepancy 28 + fl s.so.on[0] 27 + fl s.so.on[1] 26 +
   fl s.sto.qualifying 25 + place s.sto.aGlitch 16 8 + place s.sto.bGlitch 8 8]

/-! ## Converters -/

def slotWord (x : SarSlot) : Nat := place x.code 16 16 + place x.ain 10 6 + fl x.valid 9 + fl x.ovr 8 + fl x.requeued 7

def mapAdc (s : State) (c : Fin 8) : List Nat :=
  let a := s.conv c
  let bs := decide (c.val = 7)
  let present := decide (3 ≤ s.boot.phase) && (if bs then !bitAt s.clk.lost 7 else !adcLost s)
  let claimed (k : Nat) : Bool := !bs && (ownerOf s (resSarSlot c.val k)).isSome
  [fl present 31 + fl a.calibrated 30 + fl (!a.injected.isEmpty) 29 + fl a.heldCode.isSome 28 + fl a.outlier 27 + fl (decide (0x0E ≤ s.boot.phase) && convStale s c) 26 +
     flags 16 ([16, 17, 18, 19].map claimed) + flags 0 ((List.range 15).map claimed) + fl (!bs) 15,
   satField a.aborts 16 16 + satField a.injOverrun 8 8 + satField a.ovrCount 0 8, place a.chkLo 16 16 + place a.chkHi 0 16] ++
  ((List.finRange 20).map fun k => if bs && decide (10 ≤ k.val) then 0 else slotWord a.slots[k.val]) ++ [0]

def mapDs (s : State) (fr : Nat → Nat) : List Nat :=
  ((List.finRange 16).map fun k =>
    let d := s.ds k
    fl (dsClaimed s k.val) 31 + fl d.clockOk 30 + fl (dsFaulted s k) 29 + fl (qabs d.last == 1) 28 + place (dsClock s k.val) 24 2 +
    place (unsignedOf 24 (min (2 ^ 23 - 1) (d.last * 8388608).floor)) 0 24) ++
  [((List.range 4).map fun m =>
    let on := (List.finRange 16).filter fun k => dsClaimed s k.val && dsClock s k.val == m
    fl (if on.isEmpty then bitAt (fr m) 0
        else if on.any fun k => (s.ds k).clockOk then true
        else cfgU s secConverters 0 (16 + 8 * m) 1 == 1 && (on.any fun k => (s.ds k).fault) && bitAt (fr m) 0) m).sum]

def mapPlaus (s : State) : List Nat :=
  [fl s.sensing.unresolved 31 + fl s.sensing.reference 30 + flags 16 (conv8.map fun c => (s.conv c).outlier) +
   flags 8 (conv8.map fun c => (s.conv c).stale) + flags 0 (conv8.map fun c => (s.conv c).majority), place s.sensing.evaluations 0 32]

/-! ## Control, position, sensorless -/

def mapControl (s : State) (n : Fin 4) : List Nat :=
  let c := (s.axis n).ctl
  [fl c.voltSat 31 + fl (decide (c.dl < 0)) 30 + fl c.fwExhausted 29 + fl c.fwHold 28 + fl c.tqZero 27 + fl c.rsValid 26 + fl c.keValid 25 +
     fl c.abnormalKe 24 + fl c.wrongMotor 23 + place c.limiter 16 3 + place c.strategy 2 2 + place (ofFlag (ctlU s n 0 1 == 1)) 0 2] ++
  [c.tRef, c.tEst, c.idRef, c.iqRef, c.id, c.iq, c.ud, c.uq, c.modIndex, c.dl, c.rsEst, c.psiEst, c.keDev, c.tCeil].map f32Bits ++
  [satField c.satCount 16 16 + satField c.exhCount 0 16, 0]

/-- The current loop of the interface's axis uses it. -/
def ifcInUse (s : State) (i : Fin 4) : Bool :=
  let n := posAxis s i
  ((s.axis n).ctl.src == 1 && ifcOf s n 0 == some i) || ((s.axis n).ctl.src == 2 && ifcOf s n 1 == some i)

/-- STATE of an interface that is not off: 0 from reset until it is STALE or FAILED, REFERENCED or not (Table 9.7, log entry 51). -/
def posState (s : State) (i : Fin 4) : Nat :=
  match (s.ifc i).st with
  | .stale => 1
  | .failed => 2
  | .valid => 0

/-- The map of an interface; of one that is off it reads 0 (R237), so that code 3 of STATE never shows. DEDUCED (log entry 222), safe.
VIOL_CONSEC of a MODE 2 interface, which has both counts, is the larger. DESIGN CHOICE (log entry 222), unsafe. -/
def mapPos (s : State) (i : Fin 4) : List Nat :=
  if posMode s i = 0 then List.replicate 12 0 else
  let p := s.ifc i
  [place (posState s i) 30 2 + fl p.referenced 29 + fl p.compareDisarmed 28 + fl p.indexMissing 27 + fl (ifcInUse s i) 26 +
     place p.reason 19 3 + place (posMode s i) 16 3 + satField p.oow 8 8 + satField (max p.viol p.frameErrs) 0 8,
   place p.count 0 31, sWord p.turns, place (elecOf s i p.count) 16 16 + place (mechOf s i p.count) 0 16, f32Bits p.speed, place p.indexObs 0 32,
   sWord p.drift, satField p.quadErr 16 16 + satField p.serErr 8 8 + satField p.serOverrun 0 8, f32Bits p.ampSq, place p.diagCh 30 2,
   place p.diagSpacing 0 32, place p.diagOffset 0 32]

def obsCode : ObsState → Nat
  | .valid => 0 | .unlocked => 1 | .recapturing => 2 | .failed => 3

def mapSl (s : State) (n : Fin 4) : List Nat :=
  let m := (s.axis n).mon
  let o := (s.axis n).obs
  let c := (s.axis n).catch_
  [place c.step 29 3 + place (obsCode o.st) 27 2 + fl o.inUse 26 + fl o.hfActive 25 + fl m.rotating 24 + fl m.clipped 23 + fl c.waiting 22 +
     place m.odoSrc 19 3 + fl (hasMonitor s n) 18,
   f32Bits m.speed, f32Bits m.eLine, place (angle16 m.angle) 16 16 + place (angle16 o.th) 0 16, f32Bits o.w, f32Bits o.err, f32Bits o.blend,
   f32Bits o.wH, satField o.losses 16 16 + satField o.recaptures 0 16, satField c.catches 16 16 + satField c.refusals 0 16, sWord (max (-(2 ^ 31)) (min (2 ^ 31 - 1) m.turns.floor)), 0]

/-! ## Rigger and fabric -/

def mapEngine (s : State) (e : Fin 4) : List Nat :=
  let g := s.rig.engines[e.val]
  [fl g.failed 31 + fl g.stopped 30 + place g.load 0 16, satField g.peak 16 16 + place g.localUsed 0 16] ++
  ((List.range 4).map fun j => ((List.range 32).map fun k => fl (g.ctx.contains (32 * j + k)) k).sum) ++
  [satField g.overruns 16 16 + satField g.late 0 16, place g.dispatches 0 32, 0]

/-- Table 11.6: the default class and burst of a requester. -/
def arbDefault : List (Nat × Nat) :=
  [(0, 8), (1, 8), (0, 16), (0, 16), (0, 16), (0, 16), (1, 16), (1, 32), (2, 32), (3, 64), (3, 64), (3, 16)]
def arbOf (s : State) (k : Nat) : Nat × Nat :=
  if cfgHas s secContexts 0 then (cfgU s secContexts 0 (8 + 2 * k) 1, cfgU s secContexts 0 (9 + 2 * k) 1) else arbDefault.getD k (0, 1)

def mapFabric (s : State) : List Nat :=
  ((List.range 12).map fun k => place (arbOf s k).1 30 2 + place ((arbOf s k).2 - 1) 24 6 + satField (s.rig.maxWait[k]?.getD 0) 0 16) ++
  [satField s.rig.preemptions 16 16 + satField s.rig.starved 0 16, satField s.rig.accessFaults 16 16 + place s.rig.lastReq 12 4, 0]

def mapRigger (s : State) : List Nat :=
  [place s.rig.shed 28 4 + flags 24 ((List.finRange 4).map fun e => s.rig.engines[e.val].failed)] ++
  (List.finRange 4).map fun e =>
    let p := s.rig.plans[e.val]
    place p.shed 28 4 + place p.trip 24 4 + place p.load 0 16

/-! ## Profile and auxiliary channel -/

/-- PHASE: 1 holding, 2 moving, 3 stopping, 4 settling. -/
def profPhase (s : State) (n : Fin 4) : Nat :=
  let p := (s.axis n).prof
  if (s.axis n).core.st == .stopping then 3
  else if (s.axis n).core.st != .runPosition then 0
  else if !p.moving then 1
  else if p.segs.isEmpty && !p.replan then 4 else 2

/-- The target that is moved to, held, or kept. -/
def shownTarget (p : Profile) : Int := (p.target.orElse fun _ => p.held).getD 0

def mapProfile (s : State) (n : Fin 4) : List Nat :=
  let p := (s.axis n).prof
  let c := match ifcOf s n 0 with | some i => cpr s i | none => 1
  let r := p.latched.getD 0
  [place (profPhase s n) 29 3 + fl p.held.isSome 28 + fl (tqShape s n && isRun (s.axis n).core.st && !(s.axis n).ctl.tqZero) 27 + fl p.inPosition 26,
   f32Bits p.wRef, f32Bits p.aRef, f32Bits p.pErr, sWord (remainTurns c (shownTarget p)), place (remainAngle c (shownTarget p)) 16 16,
   sWord (remainTurns c r), place (remainAngle c r) 16 16, satField p.moves 16 16 + satField p.followErrors 0 16, 0]

def mapAux (s : State) : List Nat :=
  let a := s.aux
  [fl a.energised 31 + fl a.moving 30 + fl a.referenced 29 + fl a.held.isSome 28 + place a.fault 26 2 + fl (holdInForce s) 25 + place (auxMode s) 0 2,
   sWord (auxPosition s), sWord a.target, sWord (auxRemaining s), sWord a.latch, satField a.overcurrents 16 16 + satField a.openLoads 0 16, 0]

/-! ## Thermal, lockstep, memories -/

def mapThermal (s : State) (n : Fin 4) : List Nat :=
  let h := (s.axis n).th
  let on := cfgHas s secThermal n.val
  let f (q : Q) : Nat := if on then f32Bits q else 0
  [place h.reef 30 2 + place h.cause 26 4 + place (h.ignored ||| h.ignoredConv) 23 3 +
     place (match refEntry s n with | some c => if on then c.val else 3 | none => 3) 21 2 + fl h.lowTemp 20 + fl h.coldOut 19 + fl h.boost 18 +
     fl ((s.axis n).core.warmup && isRun (s.axis n).core.st) 17 + fl (s.axis n).core.overtemp 16] ++
  (elems6.map fun k => f (tjSw s n k)) ++ (elems6.map fun k => f (tjD s n k)) ++
  [f (tRefOf s n), f (tWind s n), f (h.tMag.getD 0), satField h.reefChanges 16 16 + satField h.ignores 0 16, 0]

def mapPair (s : State) (b : Bool) (fr : Nat → Nat) : List Nat :=
  let p := s.lock.pairs[(pairIx b).val]
  [fl (pairFailed s b) 31 + fl (b && s.lock.pairBSplit) 30 + fl (pairDebugSplit s b) 29 +
     fl (p.halted || (b && s.lock.pairBSplit && decide (s.lock.rejoin < 4))) 28 + fl (b && s.lock.rejoin != 0) 27 +
     fl p.testFail 26 + fl p.disagree 25 + place p.firstClass 21 3 + place p.firstGroup 16 5 + place p.firstStage 12 4 + place s.lock.nextGroup 0 6,
   bitsOf p.firstTime.toNat 0 32, bitsOf p.firstTime.toNat 32 32, satField p.later 16 16 + place p.runTests 0 16,
   place p.regsigRuns 16 16 + satField p.regsigGap 0 16, satField p.splits 16 16 + satField p.rejoins 0 16,
   (if b then 0 else place (fr 0) 16 16 + place (fr 1) 0 16), 0]

def mapMemory (s : State) : List Nat :=
  let e := s.ecc
  ((List.finRange 8).map fun b => satField e.corrected[b.val] 16 16 + satField e.bad[b.val] 0 16) ++
  [satField e.otherCorrected[0] 24 8 + satField e.otherCorrected[1] 16 8 + satField e.otherCorrected[2] 8 8 + satField e.otherCorrected[3] 0 8,
   satField e.otherBad[0] 24 8 + satField e.otherBad[1] 16 8 + satField e.otherBad[2] 8 8 + satField e.otherBad[3] 0 8,
   place e.scrubs 0 32, place (bitsOf s.power.supplyNow 11 11) 11 11, 0]

/-! ## Drive safety, safe inputs and outputs -/

def mapBackstay (s : State) (n : Fin 4) : List Nat :=
  let a := s.axis n
  [place (bsMode a.bs) 30 2 + fl a.bs.referenced 29 + fl a.bs.blind 28 + place a.bs.violating 23 5 + satField a.bs.debounce 17 6 +
     fl a.saf.speedUnknown 16 + place (subCode a.saf.selection) 14 2 + place (marksLow a) 11 3 + place (marksHigh a) 8 3] ++
  [a.bs.tA, a.bs.tP, a.bs.iBs, a.bs.wBs, a.saf.eEst, a.saf.uTh].map f32Bits ++ [satField a.bs.violations 16 16 + satField a.bs.noPair 0 16, 0]

def mapFeed (s : State) : List Nat :=
  [satField s.back.rejected 16 16 + place s.back.accepted 0 16, f32Bits s.back.udc,
   place s.disch.state 30 2 + place s.disch.method 28 2 + place s.disch.ms 0 28, 0]

def mapSafeIn (s : State) : List Nat :=
  [place s.si.raw 16 16 + place s.si.filtered 0 16,
   flags 24 (allFns.map fun f => (s.fn f).active) + flags 16 (allFns.map (siLocked s)) + flags 8 (allFns.map fun f => (s.fn f).restart) +
     flags 0 (allFns.map fun f => (s.fn f).permit),
   fl s.si.fault 31 + fl (s.si.stoBy != 0 || s.si.fault) 30 + place s.si.testFail 0 16, satField s.si.demands 16 16 + place s.si.tests 0 16, 0]

def mapSafeOut (s : State) : List Nat :=
  [flags 28 (allAxes.map fun k => s.so.on[k.val]) + flags 24 (allAxes.map fun k => s.so.fb[k.val]) + flags 20 (allAxes.map fun k => s.so.failed[k.val]) +
     flags 16 (allAxes.map fun k => s.so.pulsing[k.val]) + (allAxes.map fun k => place s.so.reason[k.val] (2 * k.val) 2).sum] ++
  (allAxes.map fun k => place s.so.pulses[k.val] 16 16 + satField s.so.offMax[k.val] 0 16) ++ [0]

/-! ## CAN, Halyard, security, log -/

def mapCan (s : State) (n : Fin 4) (fr : Nat → Nat) : List Nat :=
  let c := s.canCtl n
  let pend := (List.range 256).countP (canPending s n)
  [place (if busOffNow s n then 2 else if c.link == .offline then 3 else if canPassive c then 1 else 0) 30 2 + fl c.recovering 29 + fl c.waitHost 28 +
     fl (c.test != 0) 27 + fl c.pexc 26 + satField pend 0 8,
   satField c.tec 16 16 + satField c.rec_ 0 16, place (if c.recovering then fr 0 % 129 else 0) 24 8 + place c.lastError 16 8 + satField c.busOffs 0 16,
   satField c.txExpired 16 16 + satField c.txCancelled 0 16, satField c.rxOverwrite 16 16 + satField c.rxLost 0 16,
   satField c.fifos[0].overflows 24 8 + satField c.fifos[1].overflows 16 8 + satField c.pexcs 8 8 + satField c.e2eFails 0 8,
   place (if canFlag s n 6 then fr 1 else s.clk.drive.toNat / 100) 0 32, place (fr 2 % 128) 24 8 + satField c.e2eTimeouts 16 8, 0]

def roleCode : RingRole → Nat
  | .none => 0 | .master => 1 | .follower => 2 | .isolated => 3 | .joining => 4
def portCode : PortState → Nat
  | .down => 0 | .training => 1 | .up => 2

def mapRing (s : State) (fr : Nat → Nat) : List Nat :=
  let r := s.ring
  let p (k : Fin 2) := s.port k
  [place (roleCode r.role) 29 3 + fl r.divergent 28 + fl r.closed 27 + place r.pos 24 3 + place r.masterPos 21 3 + place (ringSeen s) 17 4 +
     flags 0 ((List.range 8).map fun k => positionState s k != 0),
   bitsOf r.epoch 0 32, bitsOf r.epoch 32 32, place (portCode (p 0).st) 30 2 + place (p 0).delay 0 16, place (portCode (p 1).st) 30 2 + place (p 1).delay 0 16,
   satField (p 0).crcErrors 16 16 + satField (p 1).crcErrors 0 16, satField (p 0).downs 16 16 + satField (p 1).downs 0 16, place (fr 0) 0 32,
   flags 24 ((List.range 8).map fun k => positionState s k == 2) + flags 20 (allAxes.map fun g => (grpAxis s g).isSome && ringTripBit s g) +
     place (originTrips s) 16 4, 0]

def mapSecurity (s : State) : List Nat :=
  [tamperWord s, place ((s.sec.cert.map certSerial).getD 0) 0 32, place s.sec.certFloor 0 32,
   fl s.sec.logKey.isSome 31 + place s.boot.fwSecVersion 16 8 + satField s.sec.authFails 8 8 + satField s.sec.glitchTotal 0 8, 0]

def mapLog (s : State) (fr : Nat → Nat) : List Nat :=
  let l := s.log
  [fl l.storeOk 31 + fl l.exporting 30 + fl (l.blockFirst.isSome && (s.sec.logKey.isNone || s.sec.erased || s.sec.suspended)) 29 + place l.staged.length 0 6,
   place (if l.next = 0 then fr 0 else l.next - 1) 0 32, place (oldestIndex s) 0 32, place l.exported 0 32, place (l.blockFirst.getD 0) 0 32,
   satField l.gaps 16 16 + satField l.droppedTotal 0 16, 0]

/-! ## The maps by number -/

/-- What the counters of the fabric have come to since they were last looked at: waits and cut grants depend on timing that the model leaves out, so
that free values raise them, but not at the instant at which COUNTS or a cast-on clears them (Table 11.10, log entry 266). -/
def fabricLook (s : State) (map : Nat) : State :=
  if map ≠ 0x94 ∨ s.clk.now ≤ s.rig.countsAt then s else
  { s with rig := { s.rig with maxWait := Vector.ofFn fun k => max s.rig.maxWait[k.val] (Config.freeNat (s.free + k.val) % 65536) } }

/-- The words of a map; none where the number names no map. -/
def diagMap (s : State) (map : Nat) (fr : Nat → Nat) : Option (List Nat) :=
  let n := Fin.ofNat 4 map
  let base := map / 4 * 4
  if map = 0x20 then some (mapDiff s)
  else if base = 0x30 then some (mapPwm s n)
  else if base = 0x40 then some (mapTrip s n)
  else if map = 0x48 then some (mapSto s)
  else if map / 8 * 8 = 0x50 then some (mapAdc s (Fin.ofNat 8 map))
  else if map = 0x58 then some (mapDs s fr)
  else if map = 0x59 then some (mapPlaus s)
  else if base = 0x60 then some (mapControl s n)
  else if base = 0x70 then some (mapPos s n)
  else if base = 0x80 then some (mapSl s n)
  else if base = 0x90 then some (mapEngine s n)
  else if map = 0x94 then some (mapFabric s)
  else if map = 0x95 then some (mapRigger s)
  else if base = 0xA0 then some (mapProfile s n)
  else if map = 0xA4 then some (mapAux s)
  else if base = 0xB0 then some (mapThermal s n)
  else if map = 0xC0 then some (mapPair s false fr)
  else if map = 0xC1 then some (mapPair s true fr)
  else if map = 0xC2 then some (mapMemory s)
  else if base = 0xD0 then some (mapBackstay s n)
  else if map = 0xD4 then some (mapFeed s)
  else if map = 0xE0 then some (mapSafeIn s)
  else if map = 0xE1 then some (mapSafeOut s)
  else if base = 0xF0 then some (mapCan s n fr)
  else if map = 0x100 then some (mapRing s fr)
  else if map = 0x110 then some (mapSecurity s)
  else if map = 0x111 then some (mapLog s fr)
  else none

end Sys2Proof.Machine
end

