-- ==== Sys2Proof/Machine/Rigger.lean ====
section
/-! DEFINITION. Engine failure, migration and the fabric: rows ENGINE_SELFTEST_CHECK, CONTEXT_OVERRUN, RESERVATION_NOT_STARTED,
CONTEXT_MIGRATED, FABRIC_STARVED and FABRIC_ACCESS_FAULT (R302, R309 to R317). -/
namespace Sys2Proof.Machine
open Sys2Proof

def State.setEngine (s : State) (e : Fin 4) (f : Engine → Engine) : State := { s with rig := { s.rig with engines := vupd s.rig.engines e f } }

/-- The state as the staged schedule sees it: the shadow set in place of the active one. -/
def staged (s : State) : State := { s with cfg := { s.cfg with active := s.cfg.shadow, lag := 0 } }

/-- The staged schedule is rebuilt without the failed engine; where no placement is feasible, the shadow set is deleted
(R303). -/
def restage (s : State) : State :=
  if s.cfg.shadow.isNone then s else
  match schedule (staged s) with
  | .ok p => { s with rig := { s.rig with staged := p.map fun x => (x.1.num, x.2) } }
  | .error f => raise { (tackAbort s) with cfg := { (tackAbort s).cfg with shadow := none } } evPlacementInfeasible 0xFF (infeasibleData f)

/-- An engine is declared failed (R309): its plan loads until Tm (R311). It stays failed until the next cast-on. -/
def failEngine (s : State) (e : Fin 4) : State :=
  if s.rig.engines[e.val].failed then s else
  let t := s.setEngine e fun x => { x with failed := true }
  let r := { t.rig with migrating := t.rig.migrating ++ [e], declaredAt := t.rig.declaredAt ++ [t.clk.now] }
  restage (raise { t with rig := r } evEngineFailed 0xFF (place e.val 24 8))

/-- One signature is checked; SELFTEST was dispatched on an engine that runs, and an engine that does not has left its signature out. -/
def checkEngine (bad : Nat) (s : State) (e : Fin 4) : State :=
  let runs := engineRuns s s.rig.engines[e.val]
  let t := if runs then noteCtx s (124 + e.val) else s
  if bitAt bad e.val || !runs then failEngine t e else t

/-- The signatures are checked (R309): bit e of `bad` names an engine whose signature is wrong or missing. -/
def execEngineSelftestCheck (bad : Nat) (s : State) : Result :=
  if !firmwareUp s || !pairAWorks s then .next s else finish s (allAxes.foldl (checkEngine bad) s)

/-- A dispatch reaches its worst-case cycle count (R302): it is aborted; the update interval of a current loop is charged with what the last
dispatch left in the mirror (R349). A second overrun in a row of one context fails the
engine (R309). -/
def execContextOverrun (eng : Fin 4) (ctx : Nat) (s : State) : Result :=
  let x := s.rig.engines[eng.val]
  if !engineRuns s x || !(x.ctx.contains ctx) then .next s else
  let t := s.setEngine eng fun y => { y with
    dispatches := (y.dispatches + 1) % 2 ^ 32, overruns := satInc 16 y.overruns, overran := ctx :: y.overran.filter (· != ctx) }
  let t := if ctxU s ctx 0 1 = 1 then conduct t (ctxAxis s ctx) else t
  let u := raise t evContextOverrun 0xFF (place eng.val 24 8 + place ctx 16 8)
  finish s (if x.overran.contains ctx then failEngine u eng else u)

/-- A current-loop reservation does not start within 1 µs of the sample deadline (R309): the engine that holds it has stopped dispatching, and
its contexts commit nothing until Tm (R311). -/
def execReservationNotStarted (eng : Fin 4) (s : State) : Result :=
  let x := s.rig.engines[eng.val]
  if !firmwareUp s || !pairAWorks s || !engineRuns s x || !(x.ctx.any fun k => ctxU s k 0 1 == 1) then .next s
  else finish s (failEngine (s.setEngine eng fun y => { y with hung := true }) eng)

/-- Starts of an axis are refused until a schedule places all of its contexts (R312). An axis marked TRIP has no current loop placed, so its
starts are refused as well (log entry 34). -/
def denyStarts (s : State) (n : Fin 4) : State := s.setAxis n fun a => { a with core := { a.core with shed := true } }

/-- An axis is shed at Tm (R312): SS1 runs where it is not OFF. -/
def shedAxis (s : State) (n : Fin 4) : State :=
  let t := denyStarts s n
  let u := { t with rig := { t.rig with shed := setBit t.rig.shed n.val true } }
  if (s.axis n).core.st == .off then u else raiseStop u evAxisShed n 0

/-- Tm can have come for an engine declared failed at `at_` (R311): 20 µs have passed at the least, and the tack reference carrier is at a
valley where an axis is enabled. How long the loading takes, up to 100 µs, is left to the command. -/
def migrationDue (s : State) (at_ : Nat) : Bool :=
  decide (at_ + 2000 ≤ s.clk.now) && match referenceAxis s with
    | none => true
    | some n =>
      let p := (s.axis (axLeader s n)).pwm
      p.eventAt == s.clk.drive.toNat && !p.eventPeak

/-- At Tm (R311, R312) the plan of the engine that failed first is applied. `badMirrors` names, bit by context number, mirrors that
fail their CRC. -/
def execContextMigrated (badMirrors : Nat) (s : State) : Result :=
  match s.rig.migrating with
  | [] => .next s
  | e :: rest =>
    if !pairAWorks s || !migrationDue s (s.rig.declaredAt.headD 0) then .next s else
    let p := s.rig.plans[e.val]
    let moved := s.rig.engines[e.val].ctx.filter (· < 124)
    let t := { s with rig := { s.rig with migrating := rest, declaredAt := s.rig.declaredAt.drop 1 } }
    let t := t.setEngine e fun x => { x with stopped := true }
    let t := unlagged (fun u => loadPlacement u (placementOf u p.place)) t
    let t := t.forAxes (fun _ n => bitAt p.shed n.val) shedAxis
    let t := t.forAxes (fun _ n => bitAt p.trip n.val) denyStarts
    let t := t.forAxes (fun _ n => bitAt p.trip n.val) fun u n => firmwareTrip u n evEngineFailed
    let t := t.forAxes (fun u n => moved.any fun k => bitAt badMirrors k && ctxAxis u k == n) fun u n => firmwareTrip u n evContextMigrated
    finish s (raiseLogged t evContextMigrated 0xFF (place e.val 24 8 + place p.shed 4 4 + place p.trip 0 4) [])

/-- STARVE_LIMIT in FABRIC cycles of 2.5 ns, with its default where no set is active (Table 11.7). -/
def starveLimit (s : State) : Q := (if cfgHas s secContexts 0 then cfgF s secContexts 0 4 else 1 / 10000) * 400000000

/-- A requester has waited for so many FABRIC cycles; longer than STARVE_LIMIT raises the event alone (R316). A requester of an absent unit
never requests, and the fault-capture engine is never kept waiting (R313, R315). -/
def execFabricStarved (requester cycles : Nat) (s : State) : Result :=
  if 12 ≤ requester || !arbPresent s requester || decide ((cycles : Q) ≤ starveLimit s) then .next s else
  let r := { s.rig with starved := satInc 16 s.rig.starved, maxWait := vupd s.rig.maxWait (Fin.ofNat 12 requester) (max cycles) }
  finish s (raiseLimited { s with rig := r } evFabricStarved requester 0xFF (place requester 24 8))

/-- A write to an absent unit or a read-only region, or any access to an unmapped address (R317, R4), by a present requester of Table 11.6: the write
is discarded and the read returns 0, so nothing but the record changes. -/
def execFabricAccessFault (requester : Nat) (address : Nat) (s : State) : Result :=
  if 13 ≤ requester || !arbPresent s requester then .next s else finish s (fabricFault s requester address)

end Sys2Proof.Machine
end

