-- ==== Sys2Proof/Machine/MemoryErrors.lean ====
section
/-! DEFINITION. Memory errors and the capture store: rows CAPTURE_FROZEN, ECC_UNCORRECTABLE and SCRUB_PASS (R171, R394, R535). -/
namespace Sys2Proof.Machine
open Sys2Proof

/-! ## The capture store (Tables 6.6, 6.7) -/

def capRecordBytes (r : CapRecord) : List Byte :=
  leBytes 4 r.time ++ f32Bytes r.iU ++ f32Bytes r.iV ++ f32Bytes r.iW ++ f32Bytes r.udc ++ leBytes 2 r.angle ++
  [BitVec.ofNat 8 r.flags, 0] ++ f32Bytes r.ud ++ f32Bytes r.uq

def capHeader (c : Capture) (n : Fin 4) (state : Nat) : List Byte :=
  leBytes 8 c.tripTime.toNat ++ leBytes 4 c.tripSrc ++ leBytes 4 c.tripCarrier ++ leBytes 2 c.tripAt ++ leBytes 2 c.ring.length ++
  leBytes 2 c.later ++ [BitVec.ofNat 8 n.val, BitVec.ofNat 8 state] ++ leBytes 4 c.tripCmp ++ leBytes 2 c.tripDsf ++ List.replicate 34 0

/-- The frozen ring is written to the store, oldest record first (R171). The write-out cuts the grant that it finds, if it finds one (R315): a free
value says so (log entry 266). -/
def execCaptureFrozen (axis : Fin 4) (s : State) : Result :=
  let c := (s.axis axis).cap
  if c.state ≠ 2 then .next s else
  let t := s.setAxis axis fun a => { a with cap := { a.cap with
    state := 3, store := capHeader c axis 3 ++ c.ring.reverse.flatMap capRecordBytes } }
  let (f, t) := drawNat t
  let t := { t with rig := { t.rig with preemptions := min 65535 (t.rig.preemptions + f % 2) } }
  finish s (raiseLogged t evCaptureFrozen axis.val (place axis.val 24 8) [])

/-- The capture of an axis is invalid: it holds no valid record. -/
def capInvalid (s : State) (n : Fin 4) : State :=
  s.setAxis n fun a => { a with cap := { a.cap with
    ring := [], store := if a.cap.store.isEmpty then [] else overlay a.cap.store 18 [0, 0] } }

/-! ## Memory errors (R394, Table 14.6, log entry 37) -/

def memNumber : Memory → Nat
  | .sramBank b => b.val
  | .engine e => 8 + e.val
  | .canRam => 12
  | .capture _ => 13
  | .staging => 14

/-- The place of a memory in words 8 and 9 of Table 14.9. -/
def memOther : Memory → Option (Fin 4)
  | .sramBank _ => none
  | .engine _ => some 0
  | .canRam => some 1
  | .capture _ => some 2
  | .staging => some 3

/-- `k` corrected errors of a memory: counted, and raised at most once per second (R398). -/
def eccCorrected (s : State) (mem : Memory) (k : Nat) : State :=
  if k = 0 then s else
  let count (t : State) : State := match mem, memOther mem with
    | .sramBank b, _ => { t with ecc := { t.ecc with corrected := vupd t.ecc.corrected b (satInc 16) } }
    | _, some o => { t with ecc := { t.ecc with otherCorrected := vupd t.ecc.otherCorrected o (satInc 8) } }
    | _, none => t
  (List.range (min k 65535)).foldl (fun t _ => raiseLimited (count t) evEccCorrected (memNumber mem) 0xFF (place (memNumber mem) 24 8)) s

/-- An uncorrectable error of a memory is counted. -/
def eccBad (s : State) (mem : Memory) : State :=
  match mem, memOther mem with
  | .sramBank b, _ => { s with ecc := { s.ecc with bad := vupd s.ecc.bad b (satInc 16) } }
  | _, some o => { s with ecc := { s.ecc with otherBad := vupd s.ecc.otherBad o (satInc 8) } }
  | _, none => s

/-- Some enabled axis keeps its capture in a bank (CAP_BANK, Table 6.8). -/
def captureBank (s : State) (b : Fin 8) : Bool := allAxes.any fun n => axEnabled s n && cfgU s secTrip n.val 12 1 == b.val

/-- A word of a Rigger pool bank: a FIRMWARE trip on every axis that has a mirror or table in it. R308 gives each item its bank and not its
place in it, so that `ctxs` names, of the items in the bank, those the word lies in: contexts, and 128 + v for the table of converter v. -/
def poolBad (s : State) (word : Nat) (ctxs : List Nat) : State :=
  let hit (n : Fin 4) : Bool := ctxs.any fun k => bankHolds s (word / 2 ^ 24) k &&
    (if k < 128 then ctxUsed s k && ctxAxis s k == n else usesConv s n (k - 128))
  let mask := (allAxes.map fun n => if axPresent s n && hit n then place 1 n.val 1 else 0).sum
  let t := s.forAxes (fun u n => axPresent u n && hit n) fun u n => firmwareTrip u n evEccUncorrectable
  { t with ecc := { t.ecc with pool := (word, mask) :: t.ecc.pool.filter fun p => p.1 != word } }

/-- The staging RAM (R530, R535): slots of eight words; slots 4 to 63 hold records, 1 and 2 the live counters. A record that waits in
slot k is the one of the staged records whose INDEX falls there. -/
def stagingBad (s : State) (word : Nat) : State :=
  let k := word / 8 % 64
  if 4 ≤ k then
    match s.log.staged.find? fun (r : LogRecord) => 4 + r.index % 60 == k with
    | some r => raise (gapRecord s r.index r.index) evStagingFault 0xFF 0
    | none => raise s evStagingFault 0xFF 0
  else if k = 1 ∨ k = 2 then
    let newest := ((s.log.region ++ s.log.staged).filter fun r => r.type == 0x0011).getLast?.map (·.index)
    raise (gapRecord (reloadCounters s) ((newest.map (· + 1)).getD 0) (s.log.next - 1)) evStagingFault 0xFF 0
  else s

/-- The reaction of Table 14.6. -/
def eccReaction (s : State) (mem : Memory) (address : Nat) (ctxs : List Nat) : State :=
  match mem with
  | .sramBank b =>
    if b = 0 then failPairA s
    else if b = 1 then failPairB s
    else if captureBank s b then capInvalid s (Fin.ofNat 4 (address * 8 / 0x40000))
    else if (poolBanks s).contains b.val then poolBad s (b.val * 2 ^ 24 + address) ctxs
    else s
  | .engine e => failEngine s e
  | .canRam => canRamFault s address
  | .capture n => capInvalid s n
  | .staging => stagingBad s address

/-- A memory error at a 64-bit word: corrected where it is a single bit. `ctxs` names the contexts with a mirror or table in the word. -/
def execEccUncorrectable (mem : Memory) (address : Nat) (ctxs : List Nat) (single : Bool) (s : State) : Result :=
  if s.power.inReset || s.mode == .sleep then .next s
  else if single then finish s (eccCorrected s mem 1)
  else
    let t := raise (eccBad s mem) evEccUncorrectable 0xFF (place (memNumber mem) 24 8 + place address 0 24)
    finish s (eccReaction t mem address ctxs)

/-- A completed scrub of system SRAM: the errors it corrected per bank, and the words it found still uncorrectable. A pool word that it
found correctable or clean no longer holds its trip source active. -/
def execScrubPass (corrected stillBad : List Nat) (s : State) : Result :=
  if s.power.inReset || s.mode == .sleep then .next s else
  let t := ([0, 1, 2, 3, 4, 5, 6, 7] : List (Fin 8)).foldl (fun u b => eccCorrected u (.sramBank b) (corrected.getD b.val 0)) s
  finish s { t with ecc := { t.ecc with
    scrubs := (t.ecc.scrubs + 1) % 2 ^ 32, pool := t.ecc.pool.filter fun p => stillBad.contains p.1 } }

end Sys2Proof.Machine
end

