-- ==== Sys2Proof/Machine/Diag.lean ====
section
/-! DEFINITION. The DIAG commands: rows DIAG_SELFTEST, DIAG_MAP_READ, DIAG_MAP_WRITE and DIAG_CAPTURE (R45, R82, R171, and the rule of
each chapter that names its writable DIAG words). -/
namespace Sys2Proof.Machine
open Sys2Proof

/-! ## DIAG.SELFTEST (R45) -/

/-- The result of a unit: SKIPPED where it is absent, since UNITS alone decides that; that of a present unit which has not been tested
is PASSED or FAILED, and free between the two (R45). -/
def selftestByte (s : State) (free : List Byte) (u : Nat) : Byte :=
  let r := s.boot.selftest.getD u 2
  if !unitPresent s u then 2 else if r = 2 then free.getD u 0 % 2 else BitVec.ofNat 8 r

def execDiagSelftest (slot : Nat) (s : State) : Result :=
  command s slot 0x0801 fun s j =>
    let (free, t) := drawBytes s 20
    succeed s t j ([20, 0, 0, 0] ++ (List.range 20).map (selftestByte s free))

/-! ## DIAG.MAP_READ -/

/-- Words that one response holds. -/
def mapLimit (proto : Nat) : Nat := if proto = 1 then 12 else 123

def execDiagMapRead (slot : Nat) (s : State) : Result :=
  command s slot 0x0802 fun s j =>
    if mapLimit j.proto < j.u 8 1 then badParameter s j
    else match diagMap (fabricLook s (j.u 0 2)) (j.u 0 2) fun k => Config.freeNat (s.free + k) with
    | none => badParameter s j
    | some ws =>
      let got := (ws.drop (j.u 4 4)).take (j.u 8 1)
      succeed s { fabricLook s (j.u 0 2) with free := s.free + 16 } j (leBytes 4 got.length ++ got.flatMap (leBytes 4))

/-! ## DIAG.MAP_WRITE -/

def setPwmOf (s : State) (n : Fin 4) (f : Pwm → Pwm) : State := s.setAxis n fun a => { a with pwm := f a.pwm }

/-- COUNTER_CLEAR of the PWM unit (Table 5.18). -/
def clearPwm (s : State) (n : Fin 4) (v : Nat) : State :=
  let t := if bitAt v 0 then setPwmOf s n fun (p : Pwm) => { p with lateCommit := 0, commitOverrun := 0, memberCommit := false } else s
  let u := if bitAt v 1 then setPwmOf t n fun (p : Pwm) => { p with dropped := 0, stretched := 0, stretchCount := 0 } else t
  if bitAt v 2 then setPwmOf u n fun (p : Pwm) => { p with
    legs := p.legs.map fun (l : PwmLeg) => { l with missH := 0, missL := 0, noisyEdges := 0, noisyCount := 0 } } else u

/-- Word 10 of the position map arms channel CH with V = P + OFFSET (Table 9.7, R263). A position that P has reached or passed in the
direction of SPACING is a hit at once. -/
def armCompare (s : State) (i : Fin 4) (v : Nat) : State :=
  let t := s.setIfc i fun p => { p with diagSpacing := v }
  let ch := (t.ifc i).diagCh
  if h : 0 < ch ∧ ch ≤ 3 then
    let k : Fin 3 := ⟨ch - 1, by omega⟩
    let sp := signedOf 32 v
    let at_ := extP t i + signedOf 32 (t.ifc i).diagOffset
    let c : CompareCh := { armed := true, v := at_, spacing := sp }
    let u := t.setIfc i fun p => { p with compare := p.compare.set k.val c, compareDisarmed := false }
    let a := if 0 ≤ sp then at_ - 1 else at_ + 1
    let now_ : Q := (t.clk.drive.toNat : Q)
    if posMode t i = 0 then u else compareHits u i k a (extP t i) now_ now_ false false ((extP t i - a).natAbs + 1)
  else t

/-- Words 9 to 11 of the position map. -/
def writePos (s : State) (i : Fin 4) (off v : Nat) : State :=
  if off = 9 then s.setIfc i fun p => { p with diagCh := bitsOf v 30 2 }
  else if off = 11 then s.setIfc i fun p => { p with diagOffset := v }
  else armCompare s i v

def clearCan (s : State) (n : Fin 4) : State :=
  s.setCan n fun (c : CanCtl) => { c with
    lastError := 0, busOffs := 0, txExpired := 0, txCancelled := 0, rxOverwrite := 0, rxLost := 0, pexcs := 0, e2eFails := 0, e2eTimeouts := 0
    fifos := c.fifos.map fun (f : CanFifo) => { f with overflows := 0 } }

def clearPair (s : State) (b : Bool) : State := s.setPair b fun (p : LockPair) => { p with later := 0, splits := 0, rejoins := 0 }

/-- The word that clears the counters of a map, and what it clears; none where the map has no such word. -/
def countsWord (s : State) (map : Nat) : Option (Nat × State) :=
  let n := Fin.ofNat 4 map
  let base := map / 4 * 4
  if base = 0x40 then some (7, s.setAxis n fun a => { a with trip := { a.trip with cbcTrips := 0 } })
  else if map / 8 * 8 = 0x50 then some (23, s.setConv (Fin.ofNat 8 map) fun (c : Converter) => { c with aborts := 0, injOverrun := 0, ovrCount := 0 })
  else if base = 0x60 then some (16, s.setAxis n fun a => { a with ctl := { a.ctl with satCount := 0, exhCount := 0 } })
  else if base = 0x80 then some (11, s.setAxis n fun a => { a with obs := { a.obs with losses := 0, recaptures := 0 }, catch_ := { a.catch_ with catches := 0, refusals := 0 } })
  else if base = 0x90 then some (8, s.setEngine n fun (e : Engine) => { e with overruns := 0, late := 0, dispatches := 0 })
  else if map = 0x94 then some (14, { s with rig := { s.rig with maxWait := Vector.replicate 12 0, starved := 0, accessFaults := 0, lastReq := 0, preemptions := 0, countsAt := s.clk.now } })
  else if base = 0xA0 then some (9, s.setProf n fun (p : Profile) => { p with moves := 0, followErrors := 0 })
  else if map = 0xA4 then some (6, s.setAux fun (a : Aux) => { a with overcurrents := 0, openLoads := 0 })
  else if base = 0xB0 then some (17, s.setTh n fun (h : ThermalAxis) => { h with reefChanges := 0, ignores := 0 })
  else if map = 0xC0 then some (7, clearPair s false)
  else if map = 0xC1 then some (7, clearPair s true)
  else if map = 0xC2 then some (12, { s with ecc := { s.ecc with
    corrected := Vector.replicate 8 0, bad := Vector.replicate 8 0, otherCorrected := Vector.replicate 4 0, otherBad := Vector.replicate 4 0 } })
  else if base = 0xD0 then some (8, s.setBs n fun (b : BackstayAxis) => { b with violations := 0, noPair := 0 })
  else if map = 0xD4 then some (3, { s with back := { s.back with rejected := 0, accepted := 0 } })
  else if map = 0xE0 then some (4, { s with si := { s.si with demands := 0, tests := 0 } })
  else if map = 0xE1 then some (5, { s with so := { s.so with offMax := Vector.replicate 4 0 } })
  else if base = 0xF0 then some (8, clearCan s n)
  else if map = 0x100 then some (9, { s with ring := { s.ring with ports := s.ring.ports.map fun (p : HalyardPort) => { p with crcErrors := 0, downs := 0 } } })
  else if map = 0x110 then some (4, { s with sec := { s.sec with authFails := 0, glitchTotal := 0 } })
  else if map = 0x111 then some (6, { s with log := { s.log with droppedTotal := 0 } })
  else none

/-- The effect of a write, where the map accepts one at that word. -/
def mapWrite (s : State) (map off v : Nat) : Option State :=
  let n := Fin.ofNat 4 map
  if map / 4 * 4 = 0x30 then (if off = 13 then some (clearPwm s n v) else none)
  else if map / 4 * 4 = 0x70 then (if 9 ≤ off ∧ off ≤ 11 then some (writePos s n off v) else none)
  else match countsWord s map with
  | some (w, t) => if off = w then some (if bitAt v 0 then t else s) else none
  | none => none

/-- A write that no map accepts is BAD_PARAMETER. -/
def execDiagMapWrite (slot : Nat) (s : State) : Result :=
  command s slot 0x0803 fun s j =>
    match mapWrite s (j.u 0 2) (j.u 4 4) (j.u 8 4) with
    | some t => succeed s t j []
    | none => badParameter s j

/-! ## DIAG.CAPTURE (R171) -/

/-- A byte of the capture store at an offset: the written header and records, with STATE and LATER as they stand; a byte that nothing
has written is free. -/
def captureByte (s : State) (addr : Nat) (free : Byte) : Byte :=
  let c := (s.axis (Fin.ofNat 4 (addr / 0x40000))).cap
  let k := addr % 0x40000
  if k = 20 ∨ k = 21 then BitVec.ofNat 8 (c.later / 256 ^ (k - 20))
  else if k = 23 then BitVec.ofNat 8 c.state
  else c.store.getD k free

def execDiagCapture (slot : Nat) (s : State) : Result :=
  command s slot 0x0804 fun s j =>
    let off := j.u 0 4
    let len := j.u 4 2
    if 492 < len ∨ 0x100000 < off + len then badParameter s j
    else
      let (free, t) := drawBytes s len
      succeed s t j ((List.range len).map fun k => captureByte s (off + k) (free.getD k 0))

end Sys2Proof.Machine
end

