-- ==== Sys2Proof/Machine/HostSpi.lean ====
section
/-! DEFINITION. Host SPI, the doorbells, the rate-limit windows and the heartbeat (R59 to R69, R80, R586): rows REGISTER_WRITE to
RATE_LIMIT_WINDOW_END, HOST_HEARTBEAT_LOST, and the commands SYS.STATUS to SYS.HEARTBEAT that only report. -/
namespace Sys2Proof.Machine
open Sys2Proof

/-! ## Accesses (R59, R61, R67, R69) -/

/-- The device acts on Host SPI: out of reset, the window readable, and the FABRIC clock there, which samples the balls (R57, R59). -/
def hspiActs (s : State) : Bool := !s.power.inReset && s.boot.windowOpen && !bitAt s.clk.lost 1

/-- Bits of a W1C word: a bit set in the same cycle stays set (R65). -/
def w1c (old : Bool) (mask setNow bit : Nat) : Bool := bitAt setNow bit || (old && !bitAt mask bit)

/-- FAULTSUM (Table 3.10). -/
def storeFaultsum (s : State) (mask setNow : Nat) : State :=
  { s with host := { s.host with
      logGap := w1c s.host.logGap mask setNow 24, clockLoss := w1c s.host.clockLoss mask setNow 23, hspiErr := w1c s.host.hspiErr mask setNow 22 } }

/-- DOORBELL_OUT.DONE: a cleared bit returns its slot to FREE (R67). -/
def storeDone (s : State) (mask setNow : Nat) : State :=
  { s with host := { s.host with done := ((List.range 16).map fun n => if w1c (bitAt s.host.done n) mask setNow n then place 1 n 1 else 0).sum } }

/-- DOORBELL_OUT (Table 3.12). -/
def storeDoorbellOut (s : State) (mask setNow : Nat) : State :=
  let t := storeDone s mask setNow
  { t with host := { t.host with
      outSystem := w1c s.host.outSystem mask setNow 31, outEvent := w1c s.host.outEvent mask setNow 30
      outFault := w1c s.host.outFault mask setNow 29 } }

/-- One ring (R67, R68): a slot that is not FREE is not rung. -/
def ringSlot (s : State) (n : Nat) : State :=
  if slotFree s n then { s with host := { s.host with posted := s.host.posted ++ [n] } } else hspiError s 4

/-- DOORBELL_IN (Table 3.11): the slots are ordered by ascending number; before PHASE 0x06 the write is discarded (R69). -/
def storeDoorbellIn (s : State) (mask : Nat) : State :=
  if s.boot.phase < 6 then hspiError s 5
  else serve (((List.range 16).filter (bitAt mask)).foldl ringSlot s)

/-- ATTN_MASK (Table 3.13). -/
def storeAttnMask (s : State) (value : Nat) : State :=
  { s with host := { s.host with maskSrc := bitsOf value 29 3, maskDone := bitsOf value 0 16 } }

/-- A whole word of the window is written (Table 3.4). A register that the host does not write keeps its value. -/
def storeWord (s : State) (word value : Nat) : State :=
  match word with
  | 5 => storeFaultsum s value 0
  | 6 => storeDoorbellIn s value
  | 7 => storeDoorbellOut s value 0
  | 8 => storeAttnMask s value
  | _ => s

/-- Bytes of a frame that fall on one slot (R67). -/
def storeSlot (s : State) (address : Nat) (data : List Byte) (n : Nat) : State :=
  let lo := max address (slotAddr n)
  let hi := min (address + data.length) (slotAddr n + 512)
  if hi ≤ lo then s
  else if slotFree s n then { s with host := { s.host with ram := cellsWrite s.host.ram lo (slice data (lo - address) (hi - lo)) } }
  else hspiError s 4

/-- Bytes of a frame that fall on the mailbox RAM (R67, R69). -/
def storeMailbox (s : State) (address : Nat) (data : List Byte) : State :=
  if 0x3000 ≤ address || address + data.length ≤ 0x1000 then s
  else if s.boot.phase < 6 then hspiError s 5
  else (List.range 16).foldl (fun t n => storeSlot t address data n) s

/-- Bytes of a frame that fall on the window: whole words are written, and a word in part is discarded (R61). -/
def storeWindow (s : State) (address : Nat) (data : List Byte) : State :=
  (List.range 16).foldl (fun t w =>
    let lo := max address (4 * w)
    let hi := min (address + data.length) (4 * w + 4)
    if hi ≤ lo then t
    else if hi = lo + 4 then storeWord t w (fieldU data (lo - address) 4)
    else hspiError t 3) s

/-- A byte address inside the window or the mailbox RAM. The address of a frame counts on past 0xFFFF and does not wrap to 0: such a byte is
outside the map. No rule says what it does. DESIGN CHOICE (log entry 209), unsafe. -/
def inMap (a : Nat) : Bool := decide (a < 0x40) || (decide (0x1000 ≤ a) && decide (a < 0x3000))

/-- Some byte of a frame lies outside the window and the mailbox RAM. -/
def outsideMap (address len : Nat) : Bool := (List.range len).any fun k => !inMap (address + k)

/-- The byte that a read returns (R60, R61): of the window, of the mailbox RAM, which reads 0x00 before PHASE 0x06 (R69), and 0x00 outside
both. In a slot that firmware has taken and not answered, `busy` stands for what is there: the response is defined only in READY (R67). -/
def readByte (s : State) (busy : Byte) (a : Nat) : Byte :=
  if a < 0x40 then (leBytes 4 (windowWord s (a / 4))).getD (a % 4) 0
  else if !inMap a || s.boot.phase < 6 then 0
  else if slotBusy s ((a - 0x1000) / 0x200) then busy
  else (cellsRead s.host.ram a 1).headD 0

/-- What HSPI_SDO returns in a frame: HSTAT with the opcode, then the data bytes of a read (R60). -/
def shiftOut (s : State) (reads : Bool) (address len : Nat) : State :=
  let (free, t) := if reads then drawBytes s len else ([], s)
  let body := if reads then (List.range len).map fun k => readByte s (free.getD k 0) (address + k) else []
  { t with host := { t.host with sdo := BitVec.ofNat 8 (hstat s) :: body } }

/-- A frame (R60, R61). Of a read `data` gives the length: it changes nothing but what is shifted out and the error bit. -/
def execRegisterWrite (opcode address : Nat) (data : List Byte) (s : State) : Result :=
  if !hspiActs s then .next s
  else
    let o := shiftOut s (opcode == 0x0B) address data.length
    if opcode ≠ 0x02 ∧ opcode ≠ 0x0B then finish s (hspiError o 1)
    else
      let t := if opcode = 0x02 then storeMailbox (storeWindow o address data) address data else o
      finish s (if outsideMap address data.length then hspiError t 2 else t)

/-- A write into the mailbox RAM. -/
def execMailboxWrite (address : Nat) (data : List Byte) (s : State) : Result :=
  if !hspiActs s then .next s else
  let t := storeMailbox (shiftOut s false address 0) address data
  finish s (if outsideMap address data.length then hspiError t 2 else t)

def execDoorbellRing (mask : Nat) (s : State) : Result := if hspiActs s then finish s (storeDoorbellIn s mask) else .next s
def execDoneClear (mask : Nat) (s : State) : Result := if hspiActs s then finish s (storeDone s mask 0) else .next s
def execFaultsumClear (mask setNow : Nat) (s : State) : Result := if hspiActs s then finish s (storeFaultsum s mask setNow) else .next s
def execDoorbellOutClear (mask setNow : Nat) (s : State) : Result := if hspiActs s then finish s (storeDoorbellOut s mask setNow) else .next s

/-! ## Rate-limit windows and the heartbeat (R80, R586) -/

/-- A window ends 1 s after it opened: with occurrences counted the event is raised and a new window opens. -/
def execRateLimitWindowEnd (code inst : Nat) (s : State) : Result :=
  match s.host.windows.find? fun w => w.code == code && w.instance_ == inst with
  | none => .next s
  | some w =>
    if s.clk.now < w.opened + 100000000 then .next s else
    let rest := s.host.windows.filter fun x => !(x.code == code && x.instance_ == inst)
    if w.count = 0 then finish s { s with host := { s.host with windows := rest } }
    else
      let t := raiseLogged s code w.unit (limitedData code w.rest w.count) (limitedExtra code w.count)
      finish s { t with host := { t.host with windows := rest ++ [{ w with count := 0, opened := s.clk.now }] } }

/-- The heartbeat timeout: 1 s with BENCH; none where the configuration gives none. -/
def beatTimeout (s : State) : Option Nat :=
  let ms := hostU s 0 2
  if ms = 0 || !cfgHas s secHost 0 then none else some (if cfgBench s then 100000000 else ms * 100000)

/-- A transport assigned to the host has not delivered in time. -/
def beatLate (s : State) (limit : Nat) : Bool :=
  decide (s.host.beatSpi + limit ≤ s.clk.now) || ((hostCan s).isSome && decide (s.host.beatCan + limit ≤ s.clk.now))

/-- No heartbeat in time: SS1 on every axis that is not OFF (R80). -/
def execHostHeartbeatLost (s : State) : Result :=
  match beatTimeout s with
  | none => .next s
  | some limit =>
    if s.boot.phase ≠ 0x0F || !firmwareUp s || !pairAWorks s || s.host.beatLost || !beatLate s limit then .next s else
    let t := { s with host := { s.host with beatLost := true, owedSpi := true, owedCan := (hostCan s).isSome } }
    finish s (requestSs1All (raise t evHostHeartbeatLost 0xFF 0))

/-- A heartbeat over a transport; the loss ends with the last one owed. -/
def beat (s : State) (spi : Bool) : State :=
  let t := if spi then { s with host := { s.host with beatSpi := s.clk.now, owedSpi := false } }
    else { s with host := { s.host with beatCan := s.clk.now, owedCan := false } }
  { t with host := { t.host with beatLost := t.host.beatLost && (t.host.owedSpi || t.host.owedCan) } }

/-! ## SYS commands that report (Table 3.18) -/

/-- SYS.STATUS. Without an active set there is no generation to report: a free value. -/
def execSysStatus (slot : Nat) (s : State) : Result :=
  command s slot 0x0101 fun s j =>
    let (g, t) := match s.cfg.active with
      | some img => (imgGeneration img, s)
      | none => drawNat s
    succeed s t j (leBytes 4 (regMode s) ++ leBytes 4 (regFaultsum s) ++ leBytes 8 s.clk.drive.toNat ++
      [BitVec.ofNat 8 (reefHighest s), 0, 0, 0] ++ leBytes 4 g)

/-- SYS.VERSION. The version of firmware where the boot ROM answers is a free value. -/
def execSysVersion (slot : Nat) (s : State) : Result :=
  command s slot 0x0102 fun s j =>
    let (v, t) := if romServes s then drawNat s else (0x00030002, s)
    succeed s t j (leBytes 4 v ++ leBytes 4 Config.romVersion ++ leBytes 4 (regUnits s) ++ leBytes 4 regId)

def execSysTime (slot : Nat) (s : State) : Result :=
  command s slot 0x0106 fun s j => succeed s s j (leBytes 8 s.clk.drive.toNat ++ leBytes 8 s.clk.rtc)

/-- An entry of the event queue as 16 bytes (R81). -/
def entryBytes (e : EventEntry) : List Byte :=
  leBytes 2 e.code ++ [BitVec.ofNat 8 e.severity, BitVec.ofNat 8 e.unit] ++ leBytes 8 e.time.toNat ++ leBytes 4 e.data

/-- SYS.EVENTS removes the entries it returns (R81). -/
def execSysEvents (slot : Nat) (s : State) : Result :=
  command s slot 0x0107 fun s j =>
    let n := min (j.u 0 1) (if j.proto = 1 then 3 else 30)
    let got := s.host.events.take n
    let left := s.host.events.drop n
    succeed s { s with host := { s.host with events := left } } j
      ([BitVec.ofNat 8 got.length, BitVec.ofNat 8 (min 255 left.length), 0, 0] ++ got.flatMap entryBytes)

def execSysHeartbeat (slot : Nat) (s : State) : Result :=
  command s slot 0x0108 fun s j => succeed s (beat s (spiSlot j.slot)) j (leBytes 4 (j.u 0 4))

end Sys2Proof.Machine
end

