-- ==== Sys2Proof/Machine/Power.lean ====
section
/-! DEFINITION. Reset, live insertion, service, bind-off and wake (R30, R34, R46 to R55, R83, R540): rows PORST_N_RELEASE to
EARLY_REMOVAL, SYS_RESET to WAKE_LATCHED_REASSERT, and the ROM recovery loader. -/
namespace Sys2Proof.Machine
open Sys2Proof

/-! ## PORST_N and the supply monitors (R30, R53) -/

/-- PORST_N is released with every supply in its operating range: cast-on starts. In SLEEP the supplies come back with PMIC_EN. -/
def execPorstNRelease (s : State) : Result :=
  if !s.power.inReset || (s.mode == .sleep && !s.power.pmicEn) then .next s
  else finish s (startCastOn { s with power := { s.power with porstHigh := true, supplyHold := false, absent := 0 } })

/-- PORST_N goes low (Table 2.1). -/
def execPorstNLow (s : State) : Result :=
  if !s.power.porstHigh || s.mode == .sleep then .next s
  else finish s (enterReset { s with power := { s.power with porstHigh := false } } (if s.power.supplyHold then 0 else 4))

/-- A monitored supply, VCORE, VDDA, VDD18 or a VDDIO bank, falls below its reset threshold (R53): main power is lost without
bind-off (R50), and the balls of the bank are without their supply (R551). -/
def execSupplyBelowReset (supply : Nat) (volts : Q) (s : State) : Result :=
  if 8 < supply || s.mode == .sleep || decide ((supplyLimits supply).2.2 ≤ volts) then .next s
  else finish s (enterReset { s with power := { s.power with
    supplyHold := true, cleanShutdown := false, absent := setBit s.power.absent supply true } } 0)

/-! ## EARLY_N (R54, R55) -/

/-- EARLY_N has been low for 10 ms: the output drivers are released, and the meshes are compared again from their second sample (R552). -/
def execEarlyNQualified (s : State) : Result :=
  finish s { s with
    power := { s.power with earlyHigh := false, seated := true }
    sec := if s.power.seated then s.sec else { s.sec with meshFirst := Vector.replicate 2 true } }

/-- EARLY_N goes high: every output is tri-stated, and SAFE latches with every axis in FREEWHEEL. -/
def execEarlyRemoval (s : State) : Result :=
  if s.power.earlyHigh then .next s else
  let t := { s with power := { s.power with earlyHigh := true, seated := false } }
  match s.mode with
  | .idle | .run | .service => finish s (raise (freewheelAll (latchSafe t)) evEarlyRemoval 0xFF 0)
  | _ => finish s t

/-! ## SYS.RESET and SYS.SERVICE (Table 3.18, R34, R540) -/

def execSysReset (slot : Nat) (s : State) : Result :=
  command s slot 0x0103 fun s j =>
    if j.u 0 4 ≠ 0xC0DE then badParameter s j
    else succeed s { s with power := { s.power with resetDue := some 3 } } j []

/-- The reset that follows a response by 1 ms. An ASC that R406 applies meanwhile takes the device to RUN, from which Table 2.1 has no way to
BOOT by a command: the reset then does not take place. DEDUCED (log entry 193). -/
def execResetFollows (s : State) : Result :=
  match s.power.resetDue with
  | some cause =>
    if s.mode == .run then finish s { s with power := { s.power with resetDue := none } }
    else finish s (internalReset s cause)
  | none => .next s

/-- A permission of SEC.UNLOCK stands. -/
def servicePermitted (s : State) : Bool := match s.sec.permitUntil with | some t => decide (s.clk.now ≤ t) | none => false

/-- SYS.SERVICE with action 1. An action that is neither enter nor exit is a bad parameter. In a life-cycle state that R34 does not
list the answer is NOT_IN_MODE: DESIGN CHOICE (log entry 194). -/
def execSysServiceEnter (slot : Nat) (s : State) : Result :=
  command s slot 0x0104 fun s j =>
    match j.u 0 1 with
    | 0 => s
    | 1 =>
      if s.mode != .idle || !serviceLife s.sec.life then refuse s j rsNotInMode
      else if !servicePermitted s then authRequired s j
      else if !(s.sto.aLow && s.sto.bLow) then refuse s j rsStoNotActive
      else if s.cfg.tack.isSome then refuse s j rsTackPending
      else succeed s { s with mode := .service, sec := { s.sec with permitUntil := none } } j [4]
    | _ => badParameter s j

/-- SYS.SERVICE with action 0: to IDLE, or with a split pair through a reset, which sends no response (Table 2.1). -/
def execSysServiceExit (slot : Nat) (s : State) : Result :=
  command s slot 0x0104 fun s j =>
    if j.u 0 1 ≠ 0 then s
    else if s.mode != .service then refuse s j rsNotInMode
    else if s.lock.pairBSplit || dbgSplit s then internalReset s 8
    else succeed s { s with mode := .idle } j [1]

/-! ## Bind-off (R46, R47, Table 2.7) -/

/-- Transmit buffers of a controller that pend, and their withdrawal. -/
def pendingTx (s : State) (n : Fin 4) : Nat := (s.canCtl n).descs.countP fun d => canPending s n d.buf
def discardTx (s : State) (n : Fin 4) : State :=
  s.setCan n fun c => { c with descs := c.descs.map fun d => if canPending s n d.buf then { d with req := false } else d }

/-- Steps 1 to 3: the leave announcement, the end of the frames in transmission, the park. -/
def bindOffStart (s : State) : State :=
  let t := ringLeaveNow s
  auxPark { t with power := { t.power with bindOff := true, bindAt := t.clk.drive.toNat, bindDiscarded := 0, parkShort := false } }

/-- What step 2 discards: every transmit buffer still pending once the frames in transmission have completed. No frame starts after the
acceptance, so that the buffers may be counted as late as at the record that holds their number. -/
def bindOffDiscard (s : State) : State :=
  allAxes.foldl discardTx { s with power := { s.power with bindDiscarded := (allAxes.map (pendingTx s)).sum } }

/-- An axis shows rotation above its catch floor: its phase-voltage monitor does, or a position source that is good (R46, R287). -/
def turning (s : State) (n : Fin 4) : Bool :=
  let m := (s.axis n).mon
  (hasMonitor s n && m.rotating && decide (catchFloor s n < qabs m.speed)) ||
  (match anySensor s n with | some x => decide (catchFloor s n < qabs x.2) | none => false)

/-- Some axis shows rotation above its catch floor. -/
def anyRotating (s : State) : Bool := anyAxis s fun n => axEnabled s n && turning s n

def execSysBindOff (slot : Nat) (s : State) : Result :=
  command s slot 0x0105 fun s j =>
    if anyRotating s then refuse s j rsRotating
    else if s.cfg.tack.isSome then refuse s j rsTackPending
    else if s.log.exporting then refuse s j rsLogExport
    else succeed s (bindOffStart s) j []

/-- What the bind-off record carries (Table 2.6, R47, R344): the transmit buffers discarded, PARK not reached, park skipped. -/
def bindOffData (s : State) : Nat :=
  place (min 0xFFFF s.power.bindDiscarded) 0 16 + place (ofFlag s.power.parkShort) 16 1 + place (ofFlag (!unitPresent s 17)) 17 1

/-- Step 4: the flush, the counters, the bind-off record, the record of the mode change, and the checkpoint that closes the block. -/
def bindOffLog (s : State) : State :=
  let a := flushAll (if s.log.signing then logCheckpoint s else s)
  let b := raiseLogged (counterRecords a) evBindOffDone 0xFF (bindOffData s) []
  let c := logRec b 0x0012 sevInfo 0xFF ([1, 5, 0, 0] ++ leBytes 4 5)
  let d := logCheckpoint c
  if d.log.blockFirst.isSome then logCheckpoint d else d

/-- Steps 4 to 6: the log is closed and PMIC_EN goes low. A safe state or an axis that left OFF has pre-empted the sequence: SLEEP
is reached from IDLE alone (Table 2.1). A wake latched until then stays latched, since no wake is lost (R49), so that the next SLEEP ends by
it: DESIGN CHOICE (log entry 67). -/
def execBindOffDone (s : State) : Result :=
  if !s.power.bindOff || s.aux.parking then .next s
  else if s.mode != .idle then finish s (let t := bindOffDiscard s; { t with power := { t.power with bindOff := false } })
  else
    let t := enterReset (bindOffLog (bindOffDiscard s)) 0
    .next { t with
      mode := .sleep
      power := { t.power with pmicEn := false, porstHigh := false, cleanShutdown := true, sleepRtc := t.clk.rtc } }

/-! ## Wake (R48, R49) -/

/-- A wake source counts: WAKE_N, or the CAN0 wake pattern. -/
def execWake (can : Bool) (s : State) : Result :=
  let cause := if can then 2 else 1
  if s.mode == .sleep then
    (if s.power.pmicEn then .next s
     else finish s { s with power := { s.power with pmicEn := true, wakeCause := some cause } })
  else if s.power.bindOff then finish s { s with power := { s.power with wakeLatched := some (s.power.wakeLatched.getD cause) } }
  else .next s

/-- 10 ms after PMIC_EN went low, a wake latched during bind-off raises it again. -/
def execWakeLatchedReassert (s : State) : Result :=
  if s.mode != .sleep || s.power.pmicEn || s.power.wakeLatched.isNone then .next s
  else finish s { s with power := { s.power with pmicEn := true, wakeCause := some 5, wakeLatched := none } }

/-! ## The ROM recovery loader (R83, Table 3.20) -/

def State.setFwSlot (s : State) (b : Bool) (bytes : List Byte) (invalid : Bool) : State :=
  { s with fw := if b then { s.fw with slotB := bytes, invalidB := invalid } else { s.fw with slotA := bytes, invalidA := invalid } }

/-- A firmware slot (Table 4.1). -/
def fwSlotSize : Nat := 4 * 1048576

/-- SYS.LOADER_BEGIN erases the slot. -/
def execSysLoaderBegin (slot : Nat) (s : State) : Result :=
  command s slot 0x01F0 fun s j =>
    if 1 < j.u 0 1 || fwSlotSize < j.u 4 4 then badParameter s j
    else
      let b := j.u 0 1 == 1
      let t := s.setFwSlot b [] false
      succeed s { t with fw := { t.fw with loadSlot := some b, loadSize := j.u 4 4 } } j []

/-- SYS.LOADER_DATA: into the slot that was begun. Without a SYS.LOADER_BEGIN it answers BAD_PARAMETER, and so does SYS.LOADER_END for a slot that
was not begun; bytes past the size named at SYS.LOADER_BEGIN are not written, since a block of 48 bytes may run past it. No rule says either.
DESIGN CHOICE (log entry 211), unsafe. -/
def execSysLoaderData (slot : Nat) (s : State) : Result :=
  command s slot 0x01F1 fun s j =>
    match s.fw.loadSlot with
    | none => badParameter s j
    | some b =>
      let off := j.u 0 4
      let data := j.payload.drop 4
      if j.payload.length < 4 || 48 < data.length || fwSlotSize < off + data.length then badParameter s j
      else
        let old := fwSlotBytes s b
        let kept := data.take (s.fw.loadSize - off)
        if kept.isEmpty then succeed s s j [] else
        succeed s (s.setFwSlot b (overlay (old ++ List.replicate (off - old.length) 0xFF#8) off kept) (fwSlotMarked s b)) j []

/-- SYS.LOADER_END: the signature and rollback rules of R40. -/
def execSysLoaderEnd (slot : Nat) (s : State) : Result :=
  command s slot 0x01F2 fun s j =>
    let b := j.u 0 1 == 1
    if 1 < j.u 0 1 || s.fw.loadSlot ≠ some b then badParameter s j
    else
      let t := { s with fw := { s.fw with loadSlot := none } }
      if fwSigned s (fwSlotBytes s b) then succeed s t j [1]
      else respond (t.setFwSlot b (fwSlotBytes s b) true) j evImageInvalid []

end Sys2Proof.Machine
end

