-- ==== Sys2Proof/Machine/Profile.lean ====
section
/-! DEFINITION. The profile context (R321 to R333): rows PROFILE_DISPATCH and MOVE_DONE, and the planning of moves. -/
namespace Sys2Proof.Machine
open Sys2Proof

/-! ## Planning (R326) -/

/-- Limits of a plan: speed, acceleration, deceleration, jerk and the profile period. -/
structure Limits where
  v : Q
  acc : Q
  dec : Q
  jerk : Q
  tp : Q
  deriving DecidableEq, Repr

/-- The times of a jerk-limited change of speed by `dv` (not negative) under a rate limit: jerk time and constant time. -/
def changeTimes (dv lim j : Q) : Q × Q :=
  if lim * lim ≤ dv * j then (lim / j, dv / lim - lim / j) else (Config.sqrt (dv / j), 0)

/-- The distance of a change of speed from `v0` to `v1`. -/
def changeDist (v0 v1 lim j : Q) : Q :=
  let (tj, ta) := changeTimes (qabs (v1 - v0)) lim j
  (v0 + v1) / 2 * (2 * tj + ta)

/-- The rate limit of a change: the acceleration where the speed rises, the deceleration where it falls. -/
def rateOf (l : Limits) (v0 v1 : Q) : Q := if v0 ≤ v1 then l.acc else l.dec

/-- The distance from speed `v0` over the peak `vp` to rest. -/
def moveDist (l : Limits) (v0 vp : Q) : Q := changeDist v0 vp (rateOf l v0 vp) l.jerk + changeDist vp 0 l.dec l.jerk

/-- The largest peak speed whose distance fits, by halving the interval. -/
def findPeak (l : Limits) (v0 d : Q) : Nat → Q → Q → Q
  | 0, lo, _ => lo
  | k + 1, lo, hi =>
    let mid := (lo + hi) / 2
    if moveDist l v0 mid ≤ d then findPeak l v0 d k mid hi else findPeak l v0 d k lo mid

/-- A duration rounded up to whole profile periods. -/
def periodsOf (tp t : Q) : Nat := if tp ≤ 0 then 0 else (t / tp).ceil.toNat

/-- The segments of a change of speed from `v0` to `v1` over `nj` and `na` periods: jerk, constant, opposite jerk. -/
def changeSegs (tp v0 v1 : Q) (nj na : Nat) : List (Nat × Q) :=
  let tj := (nj : Q) * tp
  let j := if nj = 0 then 0 else (v1 - v0) / (tj * (tj + (na : Q) * tp))
  if nj = 0 then [] else [(nj, j)] ++ (if na = 0 then [] else [(na, 0)]) ++ [(nj, -j)]

/-- The peak speed of a plan whose first change lasts `a`, its cruise `c` and its last change `b` seconds, lowered until the end is met exactly. -/
def metSpeed (v0 d a c b : Q) : Q :=
  let den := a / 2 + c + b / 2
  if den = 0 then 0 else (d - v0 * a / 2) / den

/-- A change of speed over `nj` and `na` periods keeps the jerk and the rate limit. -/
def changeFits (l : Limits) (v0 v1 : Q) (nj na : Nat) : Bool :=
  let tj := (nj : Q) * l.tp
  let rest := tj + (na : Q) * l.tp
  v0 == v1 || (nj != 0 && decide (qabs (v1 - v0) ≤ l.jerk * tj * rest) && decide (qabs (v1 - v0) ≤ rateOf l v0 v1 * rest))

/-- The plan with its first change over `nj` and `na` periods, lengthened until the lowered peak keeps the limits. -/
def fitPlan (l : Limits) (v0 d vp : Q) (cruise : Bool) (na nj2 na2 : Nat) : Nat → Nat → List (Nat × Q)
  | 0, _ => []
  | fuel + 1, nj =>
    let tA := ((2 * nj + na : Nat) : Q) * l.tp
    let tD := ((2 * nj2 + na2 : Nat) : Q) * l.tp
    let nc := if cruise && vp != 0 then periodsOf l.tp ((d - (v0 + vp) / 2 * tA - vp / 2 * tD) / vp) else 0
    let vq := metSpeed v0 d tA ((nc : Q) * l.tp) tD
    if changeFits l v0 vq nj na || fuel = 0 then
      changeSegs l.tp v0 vq nj na ++ (if nc = 0 then [] else [(nc, 0)]) ++ changeSegs l.tp vq 0 nj2 na2
    else fitPlan l v0 d vp cruise na nj2 na2 fuel (nj + 1)

/-- The plan from speed `v0` (not negative) without acceleration over the distance `d` (positive), which is long enough to
stop in: every duration rounded up, a cruise only where the distance allows the whole speed, and the peak speed lowered until the end is met
exactly (R326). -/
def planForward (l : Limits) (v0 d : Q) : List (Nat × Q) :=
  let cruise := decide (moveDist l v0 l.v ≤ d)
  let vp := if cruise then l.v else findPeak l v0 d 48 0 l.v
  let (tj1, ta1) := changeTimes (qabs (vp - v0)) (rateOf l v0 vp) l.jerk
  let (tj2, ta2) := changeTimes vp l.dec l.jerk
  fitPlan l v0 d vp cruise (periodsOf l.tp ta1) (periodsOf l.tp tj2) (periodsOf l.tp ta2) 256 (periodsOf l.tp tj1)

/-- The segments with their jerks in the direction `sg`. -/
def turnSegs (sg : Q) (xs : List (Nat × Q)) : List (Nat × Q) := xs.map fun x => (x.1, sg * x.2)

/-- A plan from rest over a signed distance. -/
def planRest (l : Limits) (d : Q) : List (Nat × Q) := if d = 0 then [] else turnSegs (qsign d) (planForward l 0 (qabs d))

/-- The plan from speed `v` without acceleration over a signed distance: where it cannot stop in time, it stops and moves back. -/
def planMoving (l : Limits) (v d : Q) : List (Nat × Q) :=
  if v = 0 then planRest l d else
  let sg := qsign v
  let av := qabs v
  let stop := changeDist av 0 l.dec l.jerk
  if stop ≤ sg * d then turnSegs sg (planForward l av (sg * d)) else
  let (tj, ta) := changeTimes av l.dec l.jerk
  let nj := periodsOf l.tp tj
  let na := periodsOf l.tp ta
  let used := av / 2 * (((2 * nj + na : Nat) : Q) * l.tp)
  turnSegs sg (changeSegs l.tp av 0 nj na) ++ planRest l (d - sg * used)

/-- The plan from position 0, speed `v` and acceleration `a` over the distance `d`: the acceleration is brought to 0 first. -/
def planMove (l : Limits) (v a d : Q) : List (Nat × Q) :=
  if a = 0 then planMoving l v d else
  let n := max 1 (periodsOf l.tp (qabs a / l.jerk))
  let t := (n : Q) * l.tp
  (n, -a / t) :: planMoving l (v + a * t / 2) (d - (v * t + a * t * t / 3))

/-- The limits in force for the move of an axis (R326). -/
def limitsOf (s : State) (n : Fin 4) : Limits :=
  let vm := (s.axis n).prof.vMax
  { v := if vm = 0 then profF s n 4 else qmin vm (profF s n 4), acc := profF s n 8, dec := profF s n 12, jerk := profF s n 16, tp := tpOf s n }

/-! ## One profile period -/

/-- The target of the running move as a shaft position. -/
def targetPos (s : State) (n : Fin 4) : Option Q :=
  (s.axis n).prof.target.bind fun t => (ifcOf s n 0).map fun i => shaftOf s i t

/-- A move that waits for its plan, or is to be planned again, is planned from the present planned state (R326, R329). -/
def replanMove (s : State) (n : Fin 4) : State :=
  match (s.axis n).prof.replan, targetPos s n with
  | true, some t => s.setProf n fun p => { p with replan := false, segs := planMove (limitsOf s n) p.v p.a (t - p.p) }
  | _, _ => s

/-- The plan goes on by one period; a plan that has ended stands at its target. -/
def stepPlan (s : State) (n : Fin 4) : State :=
  let tp := tpOf s n
  match (s.axis n).prof.segs with
  | [] => s.setProf n fun p => { p with v := 0, a := 0, p := (if p.moving && !p.replan then (targetPos s n).getD p.p else p.p) }
  | (k, j) :: rest => s.setProf n fun p => { p with
      p := p.p + p.v * tp + p.a * tp * tp / 2 + j * tp * tp * tp / 6, v := p.v + p.a * tp + j * tp * tp / 2, a := p.a + j * tp
      segs := if k ≤ 1 then rest else (k - 1, j) :: rest }

/-- The speed regulator (R324). -/
def speedReg (s : State) (n : Fin 4) (wRef aRef wm : Q) : State :=
  let ew := wRef - wm
  let xw := (s.axis n).prof.xw + profF s n 32 * tpOf s n * ew
  let t := profF s n 28 * ew + xw + (if accFf s n then profF s n 36 * aRef else 0)
  let ceil := (s.axis n).ctl.tCeil
  s.setProf n fun p => { p with torque := t, xw := xw - (t - qlimit (qmax 0 ceil) t) }

/-- The shaped speed reference (R323) towards a source value. -/
def shapeSpeed (s : State) (n : Fin 4) (src : Q) (lim : Q) : State :=
  s.setProf n fun p =>
    let (r, d) := follower p.wRef p.aRef src lim (profF s n 16) (tpOf s n)
    { p with wRef := r, aRef := d }

/-- The position regulator (R327, R328). -/
def positionReg (s : State) (n : Fin 4) (wm : Q) : State :=
  let t := stepPlan (replanMove s n) n
  let p := (t.axis n).prof
  let pos := shaftNow t n
  let err := p.p - pos
  let goal := (targetPos t n).getD p.p
  let within := decide (qabs (goal - pos) ≤ profF t n 44)
  let u := t.setProf n fun q => { q with
    pErr := err, inPosition := within
    settleSince := if within && p.segs.isEmpty then some (q.settleSince.getD s.clk.now) else none
    wRef := p.v + profF t n 40 * err, aRef := p.a }
  let w := speedReg u n (u.axis n).prof.wRef (u.axis n).prof.aRef wm
  if profF t n 52 < qabs err then
    raiseStop (w.setProf n fun q => { q with followErrors := satInc 16 q.followErrors }) evFollowingError n 0
  else w

/-- The torque source that TQ_SHAPE shapes (R219, R323). -/
def rawTorque (s : State) (n : Fin 4) : Q :=
  let a := s.axis n
  if ctlU s n 3 1 = 1 then a.core.canRef else if ctlU s n 3 1 = 2 then a.core.shareRef * a.core.shareFrac else a.core.ref

/-- One profile period of an axis. -/
def profileStep (s : State) (n : Fin 4) : State :=
  let a := s.axis n
  let wm := if a.prof.nW = 0 then speedOf s n else a.prof.sumW / (a.prof.nW : Q)
  let t := s.setProf n fun p => { p with wm := wm, sumW := 0, nW := 0 }
  let follow (u : State) : State := u.setProf n fun p => { p with tq := a.ctl.tRef, tqRate := 0 }
  match a.core.st with
  | .runTorque =>
    if tqShape s n && !a.ctl.tqZero then
      t.setProf n fun p =>
        let (r, d) := follower p.tq p.tqRate (rawTorque s n) (profF s n 20) (profF s n 24) (tpOf s n)
        { p with tq := r, tqRate := d, torque := r }
    else (follow t).setProf n fun p => { p with torque := a.ctl.tRef }
  | .runSpeed =>
    let src := qlimit (wEff s n) a.core.ref
    let rising := decide (0 ≤ a.prof.wRef * src) && decide (qabs a.prof.wRef < qabs src)
    let up := if a.core.ramp = 0 then profF s n 8 else a.core.ramp
    let u := shapeSpeed (follow t) n src (if rising then up else profF s n 12)
    speedReg u n (u.axis n).prof.wRef (u.axis n).prof.aRef wm
  | .runPosition => positionReg (follow t) n wm
  | .stopping =>
    if a.saf.stopFollow then
      let u := shapeSpeed (follow t) n 0 (profF s n 12)
      speedReg u n (u.axis n).prof.wRef (u.axis n).prof.aRef wm
    else (follow t).setProf n fun p => { p with wRef := wm, aRef := 0, torque := a.ctl.tRef }
  | _ => (follow t).setProf n fun p => { p with wRef := wm, aRef := 0, torque := 0 }

/-- The profile context of an axis is dispatched, at every DIV-th valley of its carrier (R321). -/
def execProfileDispatch (axis : Fin 4) (s : State) : Result :=
  if !ctxRuns s 8 axis.val 0 || !axEnabled s axis || !cfgHas s secProfile axis.val || decide ((s.axis axis).prof.valleys < profileDiv s axis) then .next s else
  let t := s.setProf axis fun p => { p with valleys := p.valleys - profileDiv s axis }
  finish s (noteDispatch (profileStep t axis) 8 axis.val 0)

/-- A move completes: its plan has ended and the error has stayed in the window for SETTLE_TIME (R328). -/
def execMoveDone (axis : Fin 4) (s : State) : Result :=
  let p := (s.axis axis).prof
  match p.settleSince with
  | some t0 =>
    if !p.moving || !p.segs.isEmpty || p.replan || (s.axis axis).core.st != .runPosition || s.clk.now < t0 + ticksOf (profF s axis 48) then .next s else
    finish s (raiseAxis (s.setProf axis fun q => { q with moving := false, moves := satInc 16 q.moves }) evMoveDone axis 0)
  | none => .next s

end Sys2Proof.Machine
end

