-- ==== Sys2Proof/Machine/RingTack.lean ====
section
/-! DEFINITION. The ring tack (R500 to R502): prepare, answers, commit and abort. The swap itself is that of R103. Each step is a task of
Table 14.4 and waits for a pair that works (R19, R383). -/
namespace Sys2Proof.Machine
open Sys2Proof

/-- A frame of the master. -/
def fromMaster (s : State) (h : FrameHead) : Bool := s.ring.role == .follower && h.src == s.ring.masterPos

/-- A ring tack is pending here, and no commit has come. -/
def uncommitted (s : State) : Bool :=
  (match s.cfg.tack with | some k => k.ring | none => false) && (match s.ring.tack with | some r => !r.committed | none => false)

/-- The reason that a follower answers (R500): the shadow set named must be there. -/
def followerReason (s : State) (generation : Nat) (digest : List Byte) : Nat :=
  if s.cfg.shadow.map imgDigest ≠ some digest then 0x01 else (tackReason s generation true).getD 0

/-- TACK_PREPARE (R500): the answer, and a pending tack where it is 0. -/
def execTackPrepare (port : Fin 2) (head : FrameHead) (generation : Nat) (digest : List Byte) (s : State) : Result :=
  finish s (ringTake s port head 0x06 true fun t =>
    if !fromMaster t head || !pairBTasksWork t then t else
    let r := followerReason t generation digest
    let u := ringSend (announce t generation digest) 0x07 [BitVec.ofNat 8 r]
    if r = 0 then { u with
      cfg := { u.cfg with tack := some ⟨2 ^ 64, 0, true⟩ }
      ring := { u.ring with tack := some ⟨[], 0, u.clk.now, false⟩ } }
    else u)

/-- The ring tack is aborted (R501): no device changes over, and CFG.TACK is answered with the first failing position and its reason. -/
def abortRing (s : State) (position reason : Nat) : State :=
  let t := ringSend s 0x09 []
  let u := raise { t with
    cfg := { t.cfg with tack := none }
    ring := { t.ring with tack := none, graceUntil := t.clk.now } } evTackAborted 0xFF 0
  match tackJob u with
  | some j => respond u j evTackRefused (leBytes 2 0x09 ++ [BitVec.ofNat 8 position, BitVec.ofNat 8 reason])
  | none => u

/-- TACK_COMMIT is sent: the count of the first ring period that starts at least 4 periods from now (R500). -/
def commitRing (s : State) : State :=
  let per := ringPeriod s
  let c := (s.clk.drive.toNat - s.ring.epoch + 4 * per + per - 1) / per
  let t := ringSend s 0x08 (leBytes 4 c)
  { t with
    cfg := { t.cfg with tack := some ⟨t.ring.epoch + c * per, c, true⟩ }
    ring := { t.ring with tack := t.ring.tack.map fun r => { r with committed := true } } }

/-- TACK_ACK at the master: it commits once every follower in step has answered 0, and aborts at any other answer. -/
def execTackAck (port : Fin 2) (head : FrameHead) (reason : Nat) (s : State) : Result :=
  finish s (ringTake s port head 0x07 true fun t =>
    if t.ring.role != .master || !uncommitted t || !pairBTasksWork t then t
    else if reason ≠ 0 then abortRing t head.src reason
    else
      let u := { t with ring := { t.ring with tack := t.ring.tack.map fun r => { r with acked := r.acked ++ [head.src] } } }
      let acked := (u.ring.tack.map (·.acked)).getD []
      if (othersInStep u).all acked.contains then commitRing u else u)

/-- TACK_COMMIT at a follower that answered 0: Ts = EPOCH + c × RING_PERIOD. -/
def execTackCommit (port : Fin 2) (head : FrameHead) (carrier : Nat) (s : State) : Result :=
  finish s (ringTake s port head 0x08 true fun t =>
    if !fromMaster t head || !uncommitted t || !pairBTasksWork t then t else
    { t with
      cfg := { t.cfg with tack := some ⟨t.ring.epoch + carrier * ringPeriod t, carrier, true⟩ }
      ring := { t.ring with tack := t.ring.tack.map fun r => { r with committed := true } } })

/-- TACK_ABORT at a follower: a pending tack is dropped, and the abort is logged on every device (R501). -/
def execTackAbort (port : Fin 2) (head : FrameHead) (s : State) : Result :=
  finish s (ringTake s port head 0x09 true fun t =>
    if !fromMaster t head || !pairBTasksWork t then t else
    let drop := uncommitted t
    raise { t with
      cfg := { t.cfg with tack := if drop then none else t.cfg.tack }
      ring := { t.ring with tack := if drop then none else t.ring.tack, graceUntil := if drop || t.cfg.tack.isNone then min t.ring.graceUntil t.clk.now else t.ring.graceUntil } } evTackAborted 0xFF 0)

/-- An answer is missing 20 ms after PREPARE (R501): the lowest position without one, reason 0xFF. -/
def execRingTackTimeout (s : State) : Result :=
  match s.ring.tack with
  | none => .next s
  | some r =>
    if s.ring.role != .master || !uncommitted s || !pairBTasksWork s || s.clk.now < r.since + 2000000 then .next s else
    match (othersInStep s).filter fun k => !r.acked.contains k with
    | k :: _ => finish s (abortRing s k 0xFF)
    | [] => finish s (commitRing s)

/-- 40 ms after its answer without a commit, a follower drops its pending tack (R501). -/
def execFollowerTackDrop (s : State) : Result :=
  match s.ring.tack with
  | none => .next s
  | some r =>
    if s.ring.role != .follower || !uncommitted s || !pairBTasksWork s || s.clk.now < r.since + 4000000 then .next s
    else finish s { s with cfg := { s.cfg with tack := none }, ring := { s.ring with tack := none } }

end Sys2Proof.Machine
end

