-- ==== Sys2Proof/Machine/Security.lean ====
section
/-! DEFINITION. The security controller: tamper sources, the SEC commands, the life cycle, and what VBAT keeps (R509 to R526, R539 to
R545, R562). -/
namespace Sys2Proof.Machine
open Sys2Proof

/-! ## Tamper sources (R520, Table 19.6) -/

/-- The samplers of the AON domain run: with main power after the outputs are released (R552), in SLEEP, and on VBAT as in SLEEP while
main power is lost (R50). -/
def meshSampled (s : State) : Bool := s.power.seated || s.mode == .sleep || s.power.supplyHold

/-- The samples in a row that show a condition, up to the number that detects it. -/
def sampleRun (limit n : Nat) (shown : Bool) : Nat := if shown then min limit (n + 1) else 0

/-- A sample of a mesh (R520): `differs` is whether TM_INn shows another bit than TM_OUTn drives. The second such sample in a row is the
detection. The first sample after the release of the drivers is not compared (R552). -/
def execTamperMesh (mesh1 differs : Bool) (s : State) : Result :=
  let k : Fin 2 := if mesh1 then 1 else 0
  if !bitAt s.sec.tamperCfg k.val || !meshSampled s then .next s
  else if s.sec.meshFirst[k.val] then finish s { s with sec := { s.sec with meshFirst := s.sec.meshFirst.set k.val false } } else
  let n := sampleRun 2 s.sec.meshRun[k.val] differs
  let t := { s with sec := { s.sec with meshRun := s.sec.meshRun.set k.val n } }
  finish s (if n = 2 ∧ s.sec.meshRun[k.val] ≠ 2 then tamper t srcMesh (2 ^ (30 + k.val)) else t)

def execTamperLight (s : State) : Result := finish s (tamper s srcLight (2 ^ 29))

/-- A sample of an enclosure switch (R520): open at the polarity of ENCn_OPEN_HIGH. The fourth such sample in a row is the detection. -/
def execTamperEnclosure (enc1 level : Bool) (s : State) : Result :=
  let k : Fin 2 := if enc1 then 1 else 0
  if !bitAt s.sec.tamperCfg (2 + k.val) then .next s else
  let n := sampleRun 4 s.sec.encRun[k.val] (level == bitAt s.sec.tamperCfg (5 + k.val))
  let t := { s with sec := { s.sec with encRun := s.sec.encRun.set k.val n } }
  finish s (if n = 4 ∧ s.sec.encRun[k.val] ≠ 4 then tamper t srcEnclosure (2 ^ (27 + k.val)) else t)

/-- A sample of the die temperature in °C (R520): the second in a row below −55 or above +165 is the detection. -/
def execTamperTemperature (celsius : Q) (s : State) : Result :=
  let n := sampleRun 2 s.sec.tempRun (decide (celsius < -55) || decide (165 < celsius))
  let t := { s with sec := { s.sec with tempRun := n } }
  finish s (if n = 2 ∧ s.sec.tempRun ≠ 2 then tamper t srcTemperature (2 ^ 26) else t)

/-- A supply or clock glitch (R521): the open block closes, the session secrets go and the key register is suspended; every present axis
trips and SAFE latches. The third within 24 h of RTC time applies LOCK. -/
def execTamperGlitch (clock : Bool) (s : State) : Result :=
  if s.mode == .sleep || s.power.inReset then .next s else
  let a := if s.log.resumed && !s.sec.suspended then logCheckpoint s else s
  let times := a.clk.rtc :: recentGlitches a
  let b := { a with sec := { a.sec with
    nonces := Vector.replicate 3 none, suspended := true, glitchReset := true, glitchTimes := times, glitchTotal := satInc 8 a.sec.glitchTotal } }
  let c := if 3 ≤ times.length then applyLock b else b
  finish s (tamper (latchSafe (firmwareTripAll c evTamperGlitch)) (if clock then srcClockGlitch else srcSupplyGlitch) 0)

/-- Every axis freewheels or has been discharged: the deferred reset takes place (R521 step 3). -/
def execGlitchReset (s : State) : Result :=
  let quiet := allAxes.all fun n =>
    let a := s.axis n
    !axPresent s n || a.core.st == .off || (a.core.st == .axisSafe && (a.core.sub == .freewheel || a.core.discharged))
  if s.sec.glitchReset && quiet then finish s (internalReset s 6) else .next s

/-! ## SEC commands -/

/-- SEC.CHALLENGE (R525). -/
def execSecChallenge (slot : Nat) (s : State) : Result :=
  command s slot 0x0901 fun s j =>
    if h : j.u 0 1 < 3 then
      let (bs, t) := drawBytes s 16
      succeed s { t with sec := { t.sec with nonces := t.sec.nonces.set (j.u 0 1) (some ⟨bs, t.clk.now⟩) h } } j bs
    else badParameter s j

/-- A signature failed: it is counted, and answered with AUTH_REQUIRED. -/
def authFail (s : State) (j : Job) : State := authRequired (authFailed s) j

/-- The life cycle advances (R509): the new state, logged with the old one. -/
def advanceLife (s : State) (l : Life) : State :=
  raiseLogged { s with sec := { s.sec with life := l } } evLifecycleAdvanced 0xFF (lifeCode s.sec.life * 256 + lifeCode l) []

/-- SEC.UNLOCK (R539 to R542). -/
def execSecUnlock (slot : Nat) (s : State) : Result :=
  command s slot 0x0902 fun s j =>
    match nonceOf s 0 with
    | none => authRequired s j
    | some nonce =>
      let d := authDigest s nonce 0
      let sig := slice j.payload 0 64
      let t := useNonce s 0
      if s.sec.life = .production ∧ s.mode = .service ∧
          (ecdsaKeys d sig).any fun k => sha256 k == s.sec.fuses.returnKeyHash then
        let u := advanceLife (eraseReport (applyErase t) 0) .fieldReturn
        respond { u with power := { u.power with resetDue := some 7 } } j 0 []
      else if !ecdsaVerify (authKey s) d sig then authFail t j
      else if s.mode ≠ .service ∧ !serviceLife s.sec.life then authRequired t j
      else if s.mode ≠ .service then respond { t with sec := { t.sec with permitUntil := some (t.clk.now + 1000000000) } } j 0 []
      else if s.sec.life = .development ∨ s.sec.life = .fieldReturn then
        respond (raise { t with sec := { t.sec with debugOpen := true } } evDebugUnlocked 0xFF 0) j 0 []
      else authRequired t j

/-- LOCK is cleared, and after an ERASE a new log key is made and published (R524). -/
def clearLock (s : State) : State :=
  let t := raise { s with sec := { s.sec with locked := false, tamperHeld := 0, glitchTimes := [], authTimes := [] } } evLockCleared 0xFF 0
  if !t.sec.erased then t else
  let u := publishLogKey (makeLogKey t)
  { u with sec := { u.sec with erased := false } }

/-- SEC.CLEAR_LOCK (R523, R524). -/
def execSecClearLock (slot : Nat) (s : State) : Result :=
  command s slot 0x0903 fun s j =>
    match nonceOf s 1 with
    | none => authRequired s j
    | some nonce =>
      let t := useNonce s 1
      if !ecdsaVerify (authKey s) (authDigest s nonce 1) (slice j.payload 0 64) then authFail t j
      else if meshActive s || encActive s || tempActive s then respond t j evClearRefusedSourceActive (leBytes 4 (tamperWord t))
      else respond (clearLock t) j 0 []

/-- Check 5 of Table 19.5 over one image. -/
def raisesAbove (s : State) (c img : List Byte) : Option LoadFailure := checkLimits (probeOf s img) (some c)
/-- The active set, the shadow set and every valid slot. -/
def storedImages (s : State) : List (List Byte) :=
  let slotSet (x : CfgSlot) : List (List Byte) := if x.state = .invalid ∨ x.state = .copying then [] else [slotImg x]
  s.cfg.active.toList ++ s.cfg.shadow.toList ++ slotSet s.cfg.slotA ++ slotSet s.cfg.slotB

/-- A certificate that passed its checks is installed (R517). -/
def installCert (s : State) (c : List Byte) : State :=
  let toB := s.sec.cert.isSome && !s.sec.certIsB
  let old := (s.sec.cert.map certSerial).getD 0
  let t := { s with sec := { s.sec with
    certA := if toB then s.sec.certA else c, certB := if toB then c else s.sec.certB
    cert := some c, certIsB := toB, certFloor := certSerial c, certMissing := false } }
  raise (logRec t 0x0016 sevInfo 0xFF (leBytes 4 old ++ leBytes 4 (certSerial c) ++ List.replicate 8 0 ++ (sha256 c).take 16)) evCertInstalled 0xFF 0

/-- SEC.CERT: the checks of Table 19.5 in their order (R517). -/
def execSecCert (slot : Nat) (s : State) : Result :=
  command s slot 0x0904 fun s j =>
    let c := j.payload
    if s.sec.locked then refuse s j rsLocked
    else if nonceOf s 2 ≠ some (slice c 24 16) then authRequired s j
    else
      let t := useNonce s 2
      if !certSigned t (t.cfg.active.getD []) c then authFail t j
      else if !certShape t c || certSerial c ≤ t.sec.certFloor then badParameter t j
      else match (storedImages t).findSome? (raisesAbove t c) with
        | some f => respond (raiseLoad t f) j f.code []
        | none => respond (installCert t c) j 0 []

/-- SEC.STATUS. -/
def execSecStatus (slot : Nat) (s : State) : Result :=
  command s slot 0x0905 fun s j => succeed s s j (leBytes 4 (regLifecycle s) ++ leBytes 4 (tamperWord s))

/-! ## Life cycle and battery -/

/-- The keys that PRODUCTION needs are fused (Table 19.1). -/
def productionKeys (s : State) : Bool :=
  let f := s.sec.fuses
  let z := List.replicate 32 0#8
  f.fwKeyHash != z && f.fekFused && f.cfgKeyHash != z && f.authKeyHash != z

/-- A fuse write through the open debug port (R509, R510): to PRODUCTION from DEVELOPMENT with the keys fused, or to SCRAPPED from
DEVELOPMENT or FIELD_RETURN, where every cell of the identity key is blown. Both close the port. -/
def execLifecycleFuseWrite (scrapped : Bool) (s : State) : Result :=
  if !s.sec.debugOpen then .next s
  else if scrapped then
    if s.sec.life = .development ∨ s.sec.life = .fieldReturn then
      let t := advanceLife s .scrapped
      finish s { t with sec := { t.sec with debugOpen := false, fuses := { t.sec.fuses with identityKey := 2 ^ 256 - 1 } } }
    else .next s
  else if s.sec.life = .development ∧ productionKeys s = true then
    let t := advanceLife s .production
    finish s { t with sec := { t.sec with debugOpen := false } }
  else .next s

/-- The AON domain changes to the X32 crystal (R562). -/
def execX32CrystalSwitch (s : State) : Result := finish s { s with power := { s.power with crystal := true } }

/-- VBAT and VDD18 are both out of range (R562): the staging RAM and the key register lose their contents, and the AON domain what it
held on VBAT. The canary shows it at the next cast-on. -/
def execVbatLoss (s : State) : Result :=
  let t := stagingLost s
  finish s { t with
    sec := { t.sec with
      logKey := none, canary := false, locked := false, erased := false, glitchTimes := [], authTimes := [], tamperHeld := 0, tamperCfg := 0
      meshRun := Vector.replicate 2 0, encRun := Vector.replicate 2 0, tempRun := 0 }
    power := { t.power with crystal := false, wakeLatched := none, wakeCause := none }
    clk := { t.clk with rtc := 0, rtcPart := 0 } }

end Sys2Proof.Machine
end

