-- ==== Sys2Proof/Machine/Thermal.lean ====
section
/-! DEFINITION. Thermal contexts, sensor chains and reef levels (R353 to R367): rows THERMAL_STEP, SENSOR_RESTORED and
REEF_EVALUATION. -/
namespace Sys2Proof.Machine
open Sys2Proof

/-! ## Stops (R362) -/

/-- The hottest junction, the winding and the reference against thresholds of their sections. -/
def overAny (s : State) (n : Fin 4) (less : Q) : Bool :=
  decide (thF s n 16 - less ≤ hottest s n) || decide (thF s n 32 - less ≤ tWind s n) || decide (thF s n 48 - less ≤ tRefOf s n)
def underAll (s : State) (n : Fin 4) : Bool :=
  let h := thF s n 52
  decide (hottest s n ≤ thF s n 16 - h) && decide (tWind s n ≤ thF s n 32 - h) && decide (tRefOf s n ≤ thF s n 48 - h)

/-- OVERTEMP_STOP and its run inhibit on the axis. -/
def overtempCheck (s : State) (n : Fin 4) : State :=
  let on := (s.axis n).core.overtemp
  if !on && overAny s n 0 then raiseStop (s.setAxis n fun a => { a with core := { a.core with overtemp := true } }) evOvertempStop n 0
  else if on && underAll s n then s.setAxis n fun a => { a with core := { a.core with overtemp := false } }
  else s

/-- A thermal context steps the networks of its leg: every 100 µs with three contexts, every 300 µs with one, which
serves the legs in turn (R353, R354). -/
def execThermalStep (axis : Fin 4) (leg : Fin 3) (s : State) : Result :=
  let three := thermalContexts s axis == 3
  let which := if three then leg.val else 0
  if !ctxRuns s 7 axis.val which || !axEnabled s axis || !cfgHas s secThermal axis.val || (!three && (s.axis axis).th.turn != leg) then .next s else
  let dt : Q := if three then 1 / 10000 else 3 / 10000
  let t := s.setTh axis fun h => { h with turn := if three then h.turn else h.turn + 1 }
  finish s (noteDispatch (overtempCheck (stepElement (stepElement t axis (elemH leg) dt) axis (elemL leg) dt) axis) 7 axis.val which)

/-- A chain entry that has stayed in range for 1 s is used again (R356). -/
def execSensorRestored (axis : Fin 4) (entry : Fin 3) (s : State) : Result :=
  let h := (s.axis axis).th
  match h.inSince[entry.val] with
  | none => .next s
  | some t0 =>
    if !bitAt h.ignored entry.val || s.clk.now < t0 + 100000000 then .next s else
    let t := s.setTh axis fun h => { h with ignored := setBit h.ignored entry.val false, outRun := h.outRun.set entry.val 0 }
    finish s (noteChain (raiseAxis t evSensorRestored axis entry.val) axis)

/-! ## Reef levels (R359 to R361) -/

/-- The thresholds of one quantity in force: bit l − 1 for level l, with the hysteresis (R359). -/
def thresholds (s : State) (n : Fin 4) (old base : Nat) (q : Q) : Nat :=
  ([0, 1, 2] : List Nat).foldl (fun m l =>
    let t := thF s n (base + 4 * l)
    setBit m l (if t ≤ q then true else if q ≤ t - thF s n 52 then false else bitAt old l)) 0

/-- The level that thresholds in force request. -/
def maskLevel (m : Nat) : Nat := if bitAt m 2 then 3 else if bitAt m 1 then 2 else if bitAt m 0 then 1 else 0

/-- The causes of an axis with the levels they request (Table 13.2). -/
def reefCauses (s : State) (n : Fin 4) : List (Nat × Nat) :=
  let h := (s.axis n).th
  [(1, maskLevel h.tjOn), (2, maskLevel h.twOn), (3, maskLevel h.tcOn), (4, ofFlag h.lowTemp),
   (5, if h.exhausted then thU s n 1 1 else 0), (6, if h.udcOn then thU s n 2 1 else 0),
   (7, if (s.axis n).ctl.abnormalKe then 2 else 0), (8, ofFlag s.sec.locked), (9, if s.sec.erased then 2 else 0)]

/-- The highest level requested and the lowest code that requests it. -/
def reefRequest (xs : List (Nat × Nat)) : Nat × Nat :=
  xs.foldl (fun m x => if m.1 < x.2 then (x.2, x.1) else m) (0, 0)

/-- The fractions of a level (R361). -/
def reefFractions (s : State) (n : Fin 4) (l : Nat) : Q × Q :=
  if l = 0 then (1, 1) else (thF s n (640 + 4 * l), thF s n (652 + 4 * l))

/-- The level after an evaluation (R360): a rise at once, a fall once the higher level has not been asked for REEF_HOLD. -/
def reefLevel (s : State) (n : Fin 4) : State :=
  let (want, code) := reefRequest (reefCauses s n)
  let h := (s.axis n).th
  let asked : Vector Nat 3 := Vector.ofFn fun l => if l.val + 1 ≤ want then s.clk.now else h.asked[l.val]
  let hold := ticksOf (thF s n 676)
  let held := ([1, 2, 3] : List Nat).filter fun l => decide (l ≤ h.reef) && decide (s.clk.now < asked.toList.getD (l - 1) 0 + hold)
  let level := held.foldl max want
  let cause := if level = want then code else h.cause
  let t := s.setTh n fun h => { h with asked := asked, cause := if level = h.reef then (if want = level then code else h.cause) else cause }
  if level = h.reef then t else
  let (ft, fi) := fracNow s n
  let goal := reefFractions s n level
  let time (from_ to_ : Q) : Q := if to_ < from_ then thF s n 668 else thF s n 672
  let u := t.setTh n fun h => { h with
    reef := level, tFrom := ft, iFrom := fi, tTo := goal.1, iTo := goal.2, fracAt := s.clk.now
    tTime := time ft goal.1, iTime := time fi goal.2, reefChanges := satInc 16 h.reefChanges }
  raiseAxis u evReefChange n (place h.reef 12 4 + place level 8 4 + place cause 0 4)

/-- Low temperature (R364, R366). -/
def lowTempCheck (s : State) (n : Fin 4) : State :=
  let c := coldest s n
  let on := (s.axis n).th.lowTemp
  if !on && decide (c < thF s n 56) then
    raiseAxis (raiseAxis (s.setTh n fun h => { h with lowTemp := true, coldOut := true, boost := true }) evLowTempLimit n 0) evColdInhibit n 0
  else if on && decide (thF s n 56 + thF s n 52 ≤ c) then s.setTh n fun h => { h with lowTemp := false, coldOut := false, boost := false }
  else s

/-- The warm-up current of one millisecond (R367): to its value within 1 s, or from where it stands back to 0 within 1 s, which ends warm-up in
OFF. -/
def warmupStep (s : State) (n : Fin 4) : State :=
  let a := s.axis n
  if !a.core.warmup || a.core.st != .runTorque then s else
  let full := qmin (thF s n 100) (iLimOf s n)
  let ending := a.th.warmEnding || decide (thF s n 56 + thF s n 52 ≤ coldest s n)
  let down := if a.th.warmStep = 0 then qabs a.th.warmI / 1000 else a.th.warmStep
  let i := if ending then qmin 0 (a.th.warmI + down) else qmax (-full) (a.th.warmI - full / 1000)
  let t := s.setTh n fun h => { h with warmI := i, warmEnding := ending, warmStep := if ending then down else 0 }
  if ending && i == 0 then raiseAxis (axisOff (t.setTh n fun h => { h with warmEnding := false, warmStep := 0 }) n) evWarmupDone n 0 else t

/-- Every 1 ms Pair A evaluates an axis. -/
def execReefEvaluation (axis : Fin 4) (s : State) : Result :=
  if !pairAWorks s || !axEnabled s axis || !cfgHas s secThermal axis.val then .next s else
  let udc := udcOf s axis
  let low := thF s axis 108
  let t := s.setTh axis fun h => { h with
    tjOn := thresholds s axis h.tjOn 4 (hottest s axis), twOn := thresholds s axis h.twOn 20 (tWind s axis)
    tcOn := thresholds s axis h.tcOn 36 (tRefOf s axis)
    udcOn := thU s axis 2 1 != 0 && (if h.udcOn then !decide (51 / 50 * low < udc) else decide (udc < low)) }
  finish s (warmupStep (reefLevel (overtempCheck (lowTempCheck t axis) axis) axis) axis)

end Sys2Proof.Machine
end

