-- ==== Sys2Proof/Machine/Dispatch.lean ====
section
/-! DEFINITION. One arm for each command: the meaning it calls, or its refusal by name. -/
namespace Sys2Proof.Machine
open Sys2Proof

/-- The effect of a command on everything but the queue. -/
def exec (i : Instr) (s : State) : Host.Outcome State Fault Refusal :=
  match i with
  | .porstNRelease => Sys2Proof.Machine.execPorstNRelease s
  | .porstNLow => Sys2Proof.Machine.execPorstNLow s
  | .supplyBelowReset supply volts => Sys2Proof.Machine.execSupplyBelowReset supply volts s
  | .supplyOutOfRange supply volts => Sys2Proof.Machine.execSupplyOutOfRange supply volts s
  | .vbatLow volts => Sys2Proof.Machine.execVbatLow volts s
  | .xinStartFail => Sys2Proof.Machine.execXinStartFail s
  | .castOnStepDone found => Sys2Proof.Machine.execCastOnStepDone found s
  | .castOnDone => Sys2Proof.Machine.execCastOnDone s
  | .earlyNQualified => Sys2Proof.Machine.execEarlyNQualified s
  | .earlyRemoval => Sys2Proof.Machine.execEarlyRemoval s
  | .stoEngaged src ticks => Sys2Proof.Machine.execStoEngaged src ticks s
  | .stoReleased src => Sys2Proof.Machine.execStoReleased src s
  | .stoDiscrepancy => Sys2Proof.Machine.execStoDiscrepancy s
  | .driverFault axis leg => Sys2Proof.Machine.execDriverFault axis leg s
  | .cmpTrip cmp volts => Sys2Proof.Machine.execCmpTrip cmp volts s
  | .dsfTrip ch value => Sys2Proof.Machine.execDsfTrip ch value s
  | .handover axis cmps dsfs flts => Sys2Proof.Machine.execHandover axis cmps dsfs flts s
  | .pwmClockLoss => Sys2Proof.Machine.execPwmClockLoss s
  | .clockLoss domain => Sys2Proof.Machine.execClockLoss domain s
  | .livenessLoss => Sys2Proof.Machine.execLivenessLoss s
  | .carrierReload axis peak cmps dsfs => Sys2Proof.Machine.execCarrierReload axis peak cmps dsfs s
  | .pwmWatchdog axis => Sys2Proof.Machine.execPwmWatchdog axis s
  | .commit axis atReload => Sys2Proof.Machine.execCommit axis atReload s
  | .shadowWrite axis reg value => Sys2Proof.Machine.execShadowWrite axis reg value s
  | .shadowDone axis => Sys2Proof.Machine.execShadowDone axis s
  | .safepatWrite axis pattern => Sys2Proof.Machine.execSafepatWrite axis pattern s
  | .firmwareTripRequest axis cause => Sys2Proof.Machine.execFirmwareTripRequest axis cause s
  | .edgeRecord axis leg start toggles => Sys2Proof.Machine.execEdgeRecord axis leg start toggles s
  | .injectedTrigger code => Sys2Proof.Machine.execInjectedTrigger code s
  | .sarResult conv code check => Sys2Proof.Machine.execSarResult conv code check s
  | .deltaSigmaEvaluation ch bits triggered => Sys2Proof.Machine.execDeltaSigmaEvaluation ch bits triggered s
  | .dsModulatorFault clock ch begins => Sys2Proof.Machine.execDsModulatorFault clock ch begins s
  | .currentLoopDispatch axis => Sys2Proof.Machine.execCurrentLoopDispatch axis s
  | .sampleMissing axis => Sys2Proof.Machine.execSampleMissing axis s
  | .currentZeroCalibration axis leg => Sys2Proof.Machine.execCurrentZeroCalibration axis leg s
  | .lowSidePair axis codeU codeV => Sys2Proof.Machine.execLowSidePair axis codeU codeV s
  | .plausibilityEvaluation => Sys2Proof.Machine.execPlausibilityEvaluation s
  | .quadratureEdge ifc a b half clocks => Sys2Proof.Machine.execQuadratureEdge ifc a b half clocks s
  | .index ifc rising clocks => Sys2Proof.Machine.execIndex ifc rising clocks s
  | .refswLatch sw rising held => Sys2Proof.Machine.execRefswLatch sw rising held s
  | .serialFrame ifc reply => Sys2Proof.Machine.execSerialFrame ifc reply s
  | .positionContextDispatch ifc => Sys2Proof.Machine.execPositionContextDispatch ifc s
  | .positionSnapshot ifc => Sys2Proof.Machine.execPositionSnapshot ifc s
  | .sourceDisagree axis => Sys2Proof.Machine.execSourceDisagree axis s
  | .monitorRun axis => Sys2Proof.Machine.execMonitorRun axis s
  | .observerDispatch axis => Sys2Proof.Machine.execObserverDispatch axis s
  | .observerRecaptureFailed axis => Sys2Proof.Machine.execObserverRecaptureFailed axis s
  | .trackingRun axis => Sys2Proof.Machine.execTrackingRun axis s
  | .catchStep axis => Sys2Proof.Machine.execCatchStep axis s
  | .standstillIdentification axis iPos iNeg => Sys2Proof.Machine.execStandstillIdentification axis iPos iNeg s
  | .settleAndRelease axis => Sys2Proof.Machine.execSettleAndRelease axis s
  | .catchTimeout axis => Sys2Proof.Machine.execCatchTimeout axis s
  | .axisStartResponse axis => Sys2Proof.Machine.execAxisStartResponse axis s
  | .safeStateRun axis => Sys2Proof.Machine.execSafeStateRun axis s
  | .ss1EnvelopeCheck axis => Sys2Proof.Machine.execSs1EnvelopeCheck axis s
  | .stopDeadlineMissed axis => Sys2Proof.Machine.execStopDeadlineMissed axis s
  | .slsExceeded axis => Sys2Proof.Machine.execSlsExceeded axis s
  | .brakeReleaseTime axis => Sys2Proof.Machine.execBrakeReleaseTime axis s
  | .brakeEngageTime axis => Sys2Proof.Machine.execBrakeEngageTime axis s
  | .backstayEvaluation => Sys2Proof.Machine.execBackstayEvaluation s
  | .backstayGateRelease axis => Sys2Proof.Machine.execBackstayGateRelease axis s
  | .backstayPattern axis balls => Sys2Proof.Machine.execBackstayPattern axis balls s
  | .windowFrame bytes => Sys2Proof.Machine.execWindowFrame bytes s
  | .backstayFeedLost => Sys2Proof.Machine.execBackstayFeedLost s
  | .dischargeDone => Sys2Proof.Machine.execDischargeDone s
  | .dischargeTimeout => Sys2Proof.Machine.execDischargeTimeout s
  | .thermalStep axis leg => Sys2Proof.Machine.execThermalStep axis leg s
  | .sensorRestored axis entry => Sys2Proof.Machine.execSensorRestored axis entry s
  | .reefEvaluation axis => Sys2Proof.Machine.execReefEvaluation axis s
  | .profileDispatch axis => Sys2Proof.Machine.execProfileDispatch axis s
  | .moveDone axis => Sys2Proof.Machine.execMoveDone axis s
  | .chopperCrossing bridge volts => Sys2Proof.Machine.execChopperCrossing bridge volts s
  | .auxOpenLoad bridge => Sys2Proof.Machine.execAuxOpenLoad bridge s
  | .auxMicrostep => Sys2Proof.Machine.execAuxMicrostep s
  | .holdDelay => Sys2Proof.Machine.execHoldDelay s
  | .idleOff => Sys2Proof.Machine.execIdleOff s
  | .auxParkIncomplete => Sys2Proof.Machine.execAuxParkIncomplete s
  | .captureFrozen axis => Sys2Proof.Machine.execCaptureFrozen axis s
  | .coreMismatch pairB cycle => Sys2Proof.Machine.execCoreMismatch pairB cycle s
  | .delayParity pairB cycle => Sys2Proof.Machine.execDelayParity pairB cycle s
  | .comparatorDisagree pairB cycle => Sys2Proof.Machine.execComparatorDisagree pairB cycle s
  | .runInjection reports => Sys2Proof.Machine.execRunInjection reports s
  | .registerSignature pairB => Sys2Proof.Machine.execRegisterSignature pairB s
  | .regsigLate pairB => Sys2Proof.Machine.execRegsigLate pairB s
  | .pairBSplit => Sys2Proof.Machine.execPairBSplit s
  | .pairBRejoined => Sys2Proof.Machine.execPairBRejoined s
  | .dbgSplit pairB => Sys2Proof.Machine.execDbgSplit pairB s
  | .eccUncorrectable mem address ctxs single => Sys2Proof.Machine.execEccUncorrectable mem address ctxs single s
  | .scrubPass corrected stillBad => Sys2Proof.Machine.execScrubPass corrected stillBad s
  | .engineSelftestCheck bad => Sys2Proof.Machine.execEngineSelftestCheck bad s
  | .contextOverrun eng ctx => Sys2Proof.Machine.execContextOverrun eng ctx s
  | .contextMigrated badMirrors => Sys2Proof.Machine.execContextMigrated badMirrors s
  | .fabricStarved requester cycles => Sys2Proof.Machine.execFabricStarved requester cycles s
  | .fabricAccessFault requester address => Sys2Proof.Machine.execFabricAccessFault requester address s
  | .tackSwap => Sys2Proof.Machine.execTackSwap s
  | .twinCopyDone => Sys2Proof.Machine.execTwinCopyDone s
  | .hostHeartbeatLost => Sys2Proof.Machine.execHostHeartbeatLost s
  | .registerWrite opcode address data => Sys2Proof.Machine.execRegisterWrite opcode address data s
  | .mailboxWrite address data => Sys2Proof.Machine.execMailboxWrite address data s
  | .doorbellRing mask => Sys2Proof.Machine.execDoorbellRing mask s
  | .doneClear mask => Sys2Proof.Machine.execDoneClear mask s
  | .faultsumClear mask setNow => Sys2Proof.Machine.execFaultsumClear mask setNow s
  | .doorbellOutClear mask setNow => Sys2Proof.Machine.execDoorbellOutClear mask setNow s
  | .segmentTimeout => Sys2Proof.Machine.execSegmentTimeout s
  | .rateLimitWindowEnd code inst => Sys2Proof.Machine.execRateLimitWindowEnd code inst s
  | .sysStatus slot => Sys2Proof.Machine.execSysStatus slot s
  | .sysVersion slot => Sys2Proof.Machine.execSysVersion slot s
  | .sysReset slot => Sys2Proof.Machine.execSysReset slot s
  | .resetFollows => Sys2Proof.Machine.execResetFollows s
  | .sysServiceEnter slot => Sys2Proof.Machine.execSysServiceEnter slot s
  | .sysServiceExit slot => Sys2Proof.Machine.execSysServiceExit slot s
  | .sysBindOff slot => Sys2Proof.Machine.execSysBindOff slot s
  | .bindOffDone => Sys2Proof.Machine.execBindOffDone s
  | .wake can => Sys2Proof.Machine.execWake can s
  | .wakeLatchedReassert => Sys2Proof.Machine.execWakeLatchedReassert s
  | .sysTime slot => Sys2Proof.Machine.execSysTime slot s
  | .sysEvents slot => Sys2Proof.Machine.execSysEvents slot s
  | .sysHeartbeat slot => Sys2Proof.Machine.execSysHeartbeat slot s
  | .cfgWriteBegin slot => Sys2Proof.Machine.execCfgWriteBegin slot s
  | .cfgWriteData slot => Sys2Proof.Machine.execCfgWriteData slot s
  | .cfgWriteEnd slot => Sys2Proof.Machine.execCfgWriteEnd slot s
  | .cfgDigest slot => Sys2Proof.Machine.execCfgDigest slot s
  | .cfgStage slot => Sys2Proof.Machine.execCfgStage slot s
  | .cfgTack slot => Sys2Proof.Machine.execCfgTack slot s
  | .cfgDiscard slot => Sys2Proof.Machine.execCfgDiscard slot s
  | .axisStart slot => Sys2Proof.Machine.execAxisStart slot s
  | .axisStopRamp slot => Sys2Proof.Machine.execAxisStopRamp slot s
  | .axisStopSs1 slot => Sys2Proof.Machine.execAxisStopSs1 slot s
  | .axisTorque slot => Sys2Proof.Machine.execAxisTorque slot s
  | .axisSpeed slot => Sys2Proof.Machine.execAxisSpeed slot s
  | .axisMove slot => Sys2Proof.Machine.execAxisMove slot s
  | .axisResume slot => Sys2Proof.Machine.execAxisResume slot s
  | .axisStatus slot => Sys2Proof.Machine.execAxisStatus slot s
  | .axisReference slot => Sys2Proof.Machine.execAxisReference slot s
  | .auxMove slot overActive => Sys2Proof.Machine.execAuxMove slot overActive s
  | .auxStop slot => Sys2Proof.Machine.execAuxStop slot s
  | .auxResume slot overActive => Sys2Proof.Machine.execAuxResume slot overActive s
  | .auxStatus slot => Sys2Proof.Machine.execAuxStatus slot s
  | .safeClear slot => Sys2Proof.Machine.execSafeClear slot s
  | .safeClearTrip slot clocksGood suppliesGood => Sys2Proof.Machine.execSafeClearTrip slot clocksGood suppliesGood s
  | .safeStatus slot => Sys2Proof.Machine.execSafeStatus slot s
  | .safeInputs slot => Sys2Proof.Machine.execSafeInputs slot s
  | .safeRestart slot => Sys2Proof.Machine.execSafeRestart slot s
  | .safeDischargeResistor slot => Sys2Proof.Machine.execSafeDischargeResistor slot s
  | .safeDischargeWindings slot => Sys2Proof.Machine.execSafeDischargeWindings slot s
  | .logInfo slot => Sys2Proof.Machine.execLogInfo slot s
  | .logRead slot => Sys2Proof.Machine.execLogRead slot s
  | .logExported slot => Sys2Proof.Machine.execLogExported slot s
  | .logCheckpoint slot => Sys2Proof.Machine.execLogCheckpoint slot s
  | .logCounters slot => Sys2Proof.Machine.execLogCounters slot s
  | .canStatus slot => Sys2Proof.Machine.execCanStatus slot s
  | .canRecover slot => Sys2Proof.Machine.execCanRecover slot s
  | .canSelftestInternal slot good => Sys2Proof.Machine.execCanSelftestInternal slot good s
  | .canSelftestExternal slot good => Sys2Proof.Machine.execCanSelftestExternal slot good s
  | .linkStatus slot => Sys2Proof.Machine.execLinkStatus slot s
  | .linkJoin slot => Sys2Proof.Machine.execLinkJoin slot s
  | .linkLeave slot => Sys2Proof.Machine.execLinkLeave slot s
  | .diagSelftest slot => Sys2Proof.Machine.execDiagSelftest slot s
  | .diagMapRead slot => Sys2Proof.Machine.execDiagMapRead slot s
  | .diagMapWrite slot => Sys2Proof.Machine.execDiagMapWrite slot s
  | .diagCapture slot => Sys2Proof.Machine.execDiagCapture slot s
  | .diagPairBSplit slot load => Sys2Proof.Machine.execDiagPairBSplit slot load s
  | .diagPairBRejoin slot => Sys2Proof.Machine.execDiagPairBRejoin slot s
  | .secChallenge slot => Sys2Proof.Machine.execSecChallenge slot s
  | .secUnlock slot => Sys2Proof.Machine.execSecUnlock slot s
  | .secClearLock slot => Sys2Proof.Machine.execSecClearLock slot s
  | .secCert slot => Sys2Proof.Machine.execSecCert slot s
  | .secStatus slot => Sys2Proof.Machine.execSecStatus slot s
  | .sysLoaderBegin slot => Sys2Proof.Machine.execSysLoaderBegin slot s
  | .sysLoaderData slot => Sys2Proof.Machine.execSysLoaderData slot s
  | .sysLoaderEnd slot => Sys2Proof.Machine.execSysLoaderEnd slot s
  | .canRxFrame ctl frame taken => Sys2Proof.Machine.execCanRxFrame ctl frame taken s
  | .txreq ctl write => Sys2Proof.Machine.execTxreq ctl write s
  | .cancelReq ctl write sending => Sys2Proof.Machine.execCancelReq ctl write sending s
  | .rxLock ctl write lock => Sys2Proof.Machine.execRxLock ctl write lock s
  | .canTxComplete ctl buf stamp sof => Sys2Proof.Machine.execCanTxComplete ctl buf stamp sof s
  | .canBusError ctl transmitter first kind buf => Sys2Proof.Machine.execCanBusError ctl transmitter first kind buf s
  | .canRecovered ctl => Sys2Proof.Machine.execCanRecovered ctl s
  | .txExpired ctl buf sending => Sys2Proof.Machine.execTxExpired ctl buf sending s
  | .e2eTimeout ctl buf => Sys2Proof.Machine.execE2eTimeout ctl buf s
  | .linkUp port => Sys2Proof.Machine.execLinkUp port s
  | .linkDown port reach => Sys2Proof.Machine.execLinkDown port reach s
  | .tripOrderedSet port source mask => Sys2Proof.Machine.execTripOrderedSet port source mask s
  | .sync port head frame => Sys2Proof.Machine.execSync port head frame s
  | .delayReq port head => Sys2Proof.Machine.execDelayReq port head s
  | .delayRsp port head delay => Sys2Proof.Machine.execDelayRsp port head delay s
  | .digest port head generation digest divergent => Sys2Proof.Machine.execDigest port head generation digest divergent s
  | .share port head frame => Sys2Proof.Machine.execShare port head frame s
  | .shareStale => Sys2Proof.Machine.execShareStale s
  | .tackPrepare port head generation digest => Sys2Proof.Machine.execTackPrepare port head generation digest s
  | .tackAck port head reason => Sys2Proof.Machine.execTackAck port head reason s
  | .tackCommit port head carrier => Sys2Proof.Machine.execTackCommit port head carrier s
  | .tackAbort port head => Sys2Proof.Machine.execTackAbort port head s
  | .ringTackTimeout => Sys2Proof.Machine.execRingTackTimeout s
  | .followerTackDrop => Sys2Proof.Machine.execFollowerTackDrop s
  | .elect port head priority uid ended => Sys2Proof.Machine.execElect port head priority uid ended s
  | .join port head uid => Sys2Proof.Machine.execJoin port head uid s
  | .leave port head => Sys2Proof.Machine.execLeave port head s
  | .serviceFrame port head payload => Sys2Proof.Machine.execServiceFrame port head payload s
  | .safeInputSample a b => Sys2Proof.Machine.execSafeInputSample a b s
  | .siDiscrepancy fn button2 => Sys2Proof.Machine.execSiDiscrepancy fn button2 s
  | .testPulse pulse ends => Sys2Proof.Machine.execTestPulse pulse ends s
  | .twoHandSync fn => Sys2Proof.Machine.execTwoHandSync fn s
  | .safeInCrossCheck agree => Sys2Proof.Machine.execSafeInCrossCheck agree s
  | .soPulse out ends => Sys2Proof.Machine.execSoPulse out ends s
  | .soReadbackFail out level => Sys2Proof.Machine.execSoReadbackFail out level s
  | .logFlush erase program => Sys2Proof.Machine.execLogFlush erase program s
  | .logStall => Sys2Proof.Machine.execLogStall s
  | .checkpointSigned => Sys2Proof.Machine.execCheckpointSigned s
  | .countersRecord => Sys2Proof.Machine.execCountersRecord s
  | .exportTimeout => Sys2Proof.Machine.execExportTimeout s
  | .tamperMesh mesh1 differs => Sys2Proof.Machine.execTamperMesh mesh1 differs s
  | .tamperLight => Sys2Proof.Machine.execTamperLight s
  | .tamperEnclosure enc1 level => Sys2Proof.Machine.execTamperEnclosure enc1 level s
  | .tamperTemperature celsius => Sys2Proof.Machine.execTamperTemperature celsius s
  | .tamperGlitch clock => Sys2Proof.Machine.execTamperGlitch clock s
  | .glitchReset => Sys2Proof.Machine.execGlitchReset s
  | .debugHalt pairB load => Sys2Proof.Machine.execDebugHalt pairB load s
  | .pllLockTimeout => Sys2Proof.Machine.execPllLockTimeout s
  | .stoQualifying src => Sys2Proof.Machine.execStoQualifying src s
  | .faultNHigh axis leg => Sys2Proof.Machine.execFaultNHigh axis leg s
  | .linkTraining port => Sys2Proof.Machine.execLinkTraining port s
  | .busIntegration ctl => Sys2Proof.Machine.execBusIntegration ctl s
  | .reservationNotStarted eng => Sys2Proof.Machine.execReservationNotStarted eng s
  | .rejoinPartL failed => Sys2Proof.Machine.execRejoinPartL failed s
  | .debugRelease pairB => Sys2Proof.Machine.execDebugRelease pairB s
  | .blankEnd bridge volts => Sys2Proof.Machine.execBlankEnd bridge volts s
  | .toffEnd bridge => Sys2Proof.Machine.execToffEnd bridge s
  | .auxRunTimeEnd => Sys2Proof.Machine.execAuxRunTimeEnd s
  | .tPullElapsed solenoid => Sys2Proof.Machine.execTPullElapsed solenoid s
  | .longCommandComplete slot => Sys2Proof.Machine.execLongCommandComplete slot s
  | .x32CrystalSwitch => Sys2Proof.Machine.execX32CrystalSwitch s
  | .vbatLoss => Sys2Proof.Machine.execVbatLoss s
  | .lifecycleFuseWrite scrapped => Sys2Proof.Machine.execLifecycleFuseWrite scrapped s

end Sys2Proof.Machine
end

