-- ==== Sys2Proof/Machine/Time.lean ====
section
/-! DEFINITION. The passage of time while no command waits: one tick of 10 ns (R9, R17). -/
namespace Sys2Proof.Machine
open Sys2Proof

/-- The RTC counts 1/32,768 s; it holds while the AON clock is lost (R17, Table 1.5). -/
def tickRtc (c : Clocks) : Clocks :=
  if bitAt c.lost 8 then c
  else if c.rtcPart + 32768 < 100000000 then { c with rtcPart := c.rtcPart + 32768 }
  else { c with rtc := c.rtc + 1, rtcPart := c.rtcPart + 32768 - 100000000 }

/-- Drive time counts while the PWM clock runs (R17). -/
def tickDrive (c : Clocks) : Clocks := if c.driveRuns then { c with drive := c.drive + 1 } else c

/-- The clocks of one tick. -/
def tickClocks (s : State) : State := { s with clk := tickRtc (tickDrive { s.clk with now := s.clk.now + 1 }) }

/-- What the device sends through its ports at fixed intervals (Table 18.1): SYNC every 10 µs of drive time from the master, TRIP every 1 µs, and every
1 ms DIGEST from a member and a delay request from each port. The layouts are DESIGN CHOICE (log entry 242). -/
def tickRing (s : State) : State :=
  if !(allAxes.any fun p => ((s.ring.ports[p.val]?).map fun x => x.st != .down).getD false) || bitAt s.clk.lost 6 then s else
  let a := if s.clk.now % 100 = 0 then sendTrip s else s
  let b := if a.ring.role == .master && a.clk.drive.toNat % 1000 == 0 then
      ringSend a 0x01 (leBytes 8 a.clk.drive.toNat ++ leBytes 8 a.ring.epoch ++ [BitVec.ofNat 8 a.ring.masterPos, BitVec.ofNat 8 (ringSeen a)])
    else a
  if b.clk.now % 100000 ≠ 0 then b else
  let c := if ringMember b then ringSend b 0x04 (leBytes 4 (ownDigest b).1 ++ (ownDigest b).2 ++ [BitVec.ofNat 8 (ofFlag b.ring.divergent)]) else b
  ([0, 1] : List (Fin 2)).foldl (fun t p => if (t.port p).st == .down then t else portsSend t [p.val] 0x02 (leBytes 8 (t.clk.drive.toNat * 40))) c

/-- One tick: the carriers and the gate outputs (R111, R120), the excitation generators (R244), the clocks, the frames that the ring sends
at fixed intervals, the emulated encoders (R264), the blanking windows (R152), the members heard (R498). -/
def idleTick (s : State) : State :=
  let t := allAxes.foldl emuTick (tickRing (tickClocks (tickExc (tickExc (allAxes.foldl tickGates s) 0) 1)))
  let u := tickMembers (blankEnds t)
  if u = t then t else settle t u

end Sys2Proof.Machine
end

