-- ==== Sys2Proof/Safety.lean ====
section
/-! DEFINITION. The terms in which claims about the block are stated: when a mailbox command is next and accepted, what stands
in the mode, the memories and the halts of every legal state, and how a later state may relate to an earlier one. -/
namespace Sys2Proof.Machine
open Sys2Proof

/-- The command of this slot and code is the next to start (R73), the unit that it addresses is present (check 7 of R590), and the
present mode accepts it (check 8). -/
def ready (s : State) (slot code : Nat) (j : Job) : Bool :=
  decide (nextJob s = some j) && j.slot == slot && j.code == code &&
  (match unitOf j with | some u => unitPresent s u | none => true) && (modeReason s j).isNone

/-- The same as a proposition. -/
abbrev Ready (s : State) (slot code : Nat) (j : Job) : Prop := ready s slot code j = true

/-- The byte memories of the block are in their canonical form. -/
abbrev MemoriesCanonical (s : State) : Prop := memWf s.host.ram = true ∧ memWf s.can.ram = true

/-- The codes at which cast-on can halt (R584). -/
def haltCodes : List Nat := [0x0102, 0x0104, 0x0105, 0x0106, 0x080B, 0x0E01]

/-- BOOTSTAT shows a code of R584 while HALT is set, and none otherwise. -/
abbrev HaltCodeLegal (s : State) : Prop := if s.boot.halt then s.boot.haltCode ∈ haltCodes else s.boot.haltCode = 0

/-- The place of a life-cycle state in the order in which fuses advance it (Table 19.1). -/
def lifeRank : Life → Nat
  | .blank => 0 | .development => 1 | .production => 2 | .fieldReturn => 3 | .scrapped => 4

/-- The commands by which the device enters reset. -/
def entersReset : Instr → Bool
  | .porstNLow | .supplyBelowReset _ _ | .resetFollows | .sysServiceExit _ | .bindOffDone | .glitchReset => true
  | _ => false

/-- A CAN controller takes part in bus traffic (R460, R474, R475, R479, R480). -/
def canListens (s : State) (n : Fin 4) : Bool :=
  canRuns s n && (s.canCtl n).link == .online && !(s.canCtl n).busOff && !(s.canCtl n).stopped && (s.canCtl n).test == 0

/-- A frame received on a Halyard port is taken: the port is up with its clock, the CRC is right, and the frame is neither of the own
position, nor of seven hops, nor a repeat (R487). -/
def hears (s : State) (p : Fin 2) (h : FrameHead) : Bool :=
  unitPresent s (14 + p.val) && portUp s p && !bitAt s.clk.lost 6 && h.crcOk && !(ringMember s && h.src == s.ring.pos) && decide (h.hops < 7) &&
  !s.ring.frames.contains (h.src, h.seq)

/-- The parts of the block that few commands change. -/
inductive Part where
  | firmware | boot | power | security | converters | rigger | backstay | errorCounters | can | switchLatches
  deriving DecidableEq, Repr

/-- The two states agree on a part. -/
def Same (s t : State) : Part → Prop
  | .firmware => t.fw = s.fw
  | .boot => t.boot = s.boot
  | .power => t.power = s.power
  | .security => t.sec = s.sec
  | .converters => t.sensing = s.sensing
  | .rigger => t.rig = s.rig
  | .backstay => t.back = s.back
  | .errorCounters => t.ecc = s.ecc
  | .can => t.can = s.can
  | .switchLatches => t.refsw = s.refsw

/-- The commands that may change a part; an entry into reset may change every one. -/
def mayChange : Part → Instr → Bool
  | .firmware, .sysLoaderBegin _ | .firmware, .sysLoaderData _ | .firmware, .sysLoaderEnd _ => true
  | .boot, .porstNRelease | .boot, .xinStartFail | .boot, .castOnStepDone _ | .boot, .castOnDone | .boot, .pllLockTimeout => true
  | .power, .porstNRelease | .power, .supplyOutOfRange _ _ | .power, .vbatLow _ | .power, .castOnStepDone _ | .power, .earlyNQualified
  | .power, .earlyRemoval | .power, .auxParkIncomplete | .power, .sysReset _ | .power, .sysBindOff _ | .power, .wake _
  | .power, .wakeLatchedReassert | .power, .safeClearTrip _ _ _ | .power, .secUnlock _ | .power, .x32CrystalSwitch | .power, .vbatLoss => true
  | .security, .castOnStepDone _ | .security, .castOnDone | .security, .clockLoss _ | .security, .sysServiceEnter _ | .security, .diagMapWrite _
  | .security, .secChallenge _ | .security, .secUnlock _ | .security, .secClearLock _ | .security, .secCert _ | .security, .logStall
  | .security, .tamperMesh _ _ | .security, .tamperLight | .security, .tamperEnclosure _ _ | .security, .tamperTemperature _ | .security, .tamperGlitch _
  | .security, .vbatLoss | .security, .earlyNQualified | .security, .lifecycleFuseWrite _ => true
  | .converters, .castOnStepDone _ | .converters, .injectedTrigger _ | .converters, .sarResult _ _ _ | .converters, .deltaSigmaEvaluation _ _ _
  | .converters, .dsModulatorFault _ _ _ | .converters, .lowSidePair _ _ _ | .converters, .plausibilityEvaluation | .converters, .cmpTrip _ _ | .converters, .carrierReload _ _ _ _ | .converters, .diagMapWrite _ => true
  | .rigger, .castOnStepDone _ | .rigger, .currentLoopDispatch _ | .rigger, .positionContextDispatch _ | .rigger, .monitorRun _
  | .rigger, .observerDispatch _ | .rigger, .trackingRun _ | .rigger, .safeStateRun _ | .rigger, .thermalStep _ _ | .rigger, .profileDispatch _
  | .rigger, .eccUncorrectable _ _ _ _ | .rigger, .engineSelftestCheck _ | .rigger, .contextOverrun _ _ | .rigger, .contextMigrated _
  | .rigger, .fabricStarved _ _ | .rigger, .fabricAccessFault _ _ | .rigger, .tackSwap | .rigger, .diagMapWrite _ | .rigger, .reservationNotStarted _ | .rigger, .commit _ _ | .rigger, .shadowWrite _ _ _ | .rigger, .shadowDone _
  | .rigger, .safepatWrite _ _ | .rigger, .txreq _ _ | .rigger, .cancelReq _ _ _ | .rigger, .rxLock _ _ _ | .rigger, .captureFrozen _
  | .rigger, .carrierReload _ _ _ _ | .rigger, .diagMapRead _ | .rigger, .firmwareTripRequest _ _ | .rigger, .longCommandComplete _ | .rigger, .sampleMissing _ => true
  | .backstay, .castOnStepDone _ | .backstay, .clockLoss _ | .backstay, .livenessLoss | .backstay, .backstayEvaluation | .backstay, .windowFrame _
  | .backstay, .backstayFeedLost | .backstay, .quadratureEdge _ _ _ _ _ | .backstay, .safeClear _ | .backstay, .diagMapWrite _ => true
  | .errorCounters, .eccUncorrectable _ _ _ _ | .errorCounters, .scrubPass _ _ | .errorCounters, .diagMapWrite _ => true
  | .can, .castOnStepDone _ | .can, .eccUncorrectable _ _ _ _ | .can, .tackSwap | .can, .canRecover _
  | .can, .canSelftestInternal _ _ | .can, .canSelftestExternal _ _ | .can, .diagMapWrite _ | .can, .canRxFrame _ _ _ | .can, .txreq _ _
  | .can, .cancelReq _ _ _ | .can, .rxLock _ _ _ | .can, .canTxComplete _ _ _ _ | .can, .canBusError _ _ _ _ _ | .can, .canRecovered _
  | .can, .txExpired _ _ _ | .can, .e2eTimeout _ _ | .can, .busIntegration _ => true
  | .switchLatches, .refswLatch _ _ _ => true
  | _, c => entersReset c

/-- Two states agree on every part that what follows a command at once never touches: clocks, supplies, cast-on, the firmware
slots, security, the converters, the Rigger, the Backstay, the error counters, the CAN controllers, the switch latches and the waiting
commands. -/
structure Steady (s t : State) : Prop where
  clk : t.clk = s.clk
  power : t.power = s.power
  boot : t.boot = s.boot
  fw : t.fw = s.fw
  sec : t.sec = s.sec
  sensing : t.sensing = s.sensing
  rig : t.rig = s.rig
  back : t.back = s.back
  ecc : t.ecc = s.ecc
  can : t.can = s.can
  refsw : t.refsw = s.refsw
  pending : t.pending = s.pending

end Sys2Proof.Machine
end

