-- ==== Sys2Proof/Certificates/Slice0/Obligations.lean ====
section
/-! DEFINITION. The statements for the provers: what each command of the block does, what it leaves alone, and what holds of every
state. A statement about a command's effect names the state before settling where what follows a command at once (the
mode from the axis states, answers to starts and tacks, the records and doorbells of a mode change) comes after it. -/
open Sys2Proof Sys2Proof.Machine

/-- Release of PORST_N or of the supply monitors starts cast-on at step 1 with drive time 0; PORST_N low and a supply below its reset
threshold put the device in reset from every mode but SLEEP, where the levels, the firmware slots and the fuses stay and the volatile
debug permission ends; a reset that a response announced follows it with its cause (R30, R38, R53, Table 2.1, Table 3.7). -/
def Obligations.ResetEntryAndReleaseTakeEffect : Prop :=
  (∀ s : State, s.power.inReset = true → (s.mode ≠ .sleep ∨ s.power.pmicEn = true) →
    ∃ t, exec .porstNRelease s = .next t ∧ t.power.inReset = false ∧ t.boot.phase = 1 ∧ t.clk.drive = 0 ∧ t.clk.driveRuns = false ∧
      t.boot.wakeCause = s.power.wakeCause.getD s.power.nextCause ∧ t.fw = s.fw ∧ t.sec = s.sec) ∧
  (∀ s : State, s.power.porstHigh = true → s.mode ≠ .sleep →
    ∃ t, exec .porstNLow s = .next t ∧ t.power.inReset = true ∧ t.power.porstHigh = false ∧
      t.boot = { Boot.reset with deferred := droppedMoves s (if s.power.supplyHold then 0 else 4) } ∧
      t.power.nextCause = (if s.power.supplyHold then 0 else 4) ∧ t.fw.slotA = s.fw.slotA ∧ t.fw.slotB = s.fw.slotB ∧
      t.sec.fuses = s.sec.fuses ∧ t.sec.life = s.sec.life ∧ t.sec.locked = s.sec.locked ∧ t.sec.debugOpen = false ∧
      t.can = Can.reset ∧ t.sensing = Sensing.reset ∧ t.rig = { Rigger.reset with countsAt := s.clk.now } ∧ t.pending = s.pending) ∧
  (∀ (s : State) (supply : Nat) (volts : Q), supply ≤ 8 → volts < (supplyLimits supply).2.2 → s.mode ≠ .sleep →
    ∃ t, exec (.supplyBelowReset supply volts) s = .next t ∧ t.power.inReset = true ∧ t.power.supplyHold = true ∧ bitAt t.power.absent supply = true ∧
      t.power.cleanShutdown = false ∧ t.power.nextCause = 0 ∧ t.boot = Boot.reset ∧ t.fw.slotA = s.fw.slotA ∧
      t.fw.slotB = s.fw.slotB ∧ t.sec.fuses = s.sec.fuses ∧ t.can = Can.reset ∧ t.pending = s.pending) ∧
  (∀ (s : State) (cause : Nat), s.power.resetDue = some cause → s.mode ≠ .run →
    ∃ t, exec .resetFollows s = .next t ∧ t.power.inReset = false ∧ t.power.resetDue = none ∧ t.boot.phase = 1 ∧
      t.boot.wakeCause = s.power.wakeCause.getD cause ∧ t.clk.drive = 0 ∧ t.fw.slotA = s.fw.slotA ∧ t.fw.slotB = s.fw.slotB ∧
      t.sec.fuses = s.sec.fuses)

/-- Every step of cast-on completes. Step 1 opens the window, step 3 starts drive time at 0, a failed BIST halts, step 7 notes a failed
comparator test, step 8 runs the firmware slot that is valid or halts, steps 10 and 11 choose a configuration slot or halt, step 12 makes the
schedule or halts, step 13 records the first speeds, step 14 waits for EARLY_N; step 15 sets IDLE and may raise FW_FLOOR; XIN and the PLL halt
at their steps (R38, R40, R41, R43, R44, R51, R54, R59, R513, Tables 2.4, 2.5). -/
def Obligations.CastOnStepsAdvanceOrHalt : Prop :=
  (∀ (s : State) (found : CastOnFindings), castOnRuns s = true → s.boot.step14 = false →
    ∃ t, exec (.castOnStepDone found) s = .next t ∧
      (s.boot.phase = 1 → t.boot = { s.boot with phase := 2, windowOpen := true } ∧ t.clk = s.clk) ∧
      (s.boot.phase = 2 → t.boot = { s.boot with phase := 3 } ∧ t.clk = s.clk) ∧
      (s.boot.phase = 3 → t.boot = { s.boot with phase := 4 } ∧ t.clk = { s.clk with driveRuns := true, drive := 0, monitorsArmed := true, lost := 0 }) ∧
      (s.boot.phase = 4 → t.boot.phase = 5 ∧ t.boot.halt = false) ∧
      (s.boot.phase = 5 → t.boot = if found.memoryBist then { s.boot with phase := 6 } else { s.boot with halt := true, haltCode := 0x0102 }) ∧
      (s.boot.phase = 6 → t.boot = if found.logicBist then { s.boot with phase := 7 } else { s.boot with halt := true, haltCode := 0x0102 }) ∧
      (s.boot.phase = 7 → t.boot.phase = 8 ∧ (t.boot.testFailed = true ↔ s.boot.testFailed = true ∨ found.partL ≠ none ∨
        ∃ n < 4, comparatorsBad s n found.partT = true)) ∧
      (s.boot.phase = 8 → if fwValid s (fwFirst s) = true ∨ fwValid s (!fwFirst s) = true then
          t.boot.phase = 9 ∧ t.boot.halt = false ∧ t.boot.fwSlot = (if fwValid s (fwFirst s) then fwFirst s else !fwFirst s) ∧
            t.boot.fwFallback = !fwValid s (fwFirst s)
        else t.boot.halt = true ∧ t.boot.haltCode = 0x0104) ∧
      (s.boot.phase = 9 → t.boot = { s.boot with phase := 10 }) ∧
      (s.boot.phase = 10 → match chooseSlot s (slotRead s false).isNone (slotRead s true).isNone with
        | some b => t.boot.phase = 11 ∧ t.boot.halt = false ∧ t.boot.cfgSlot = b
        | none => t.boot.halt = true ∧ t.boot.haltCode = 0x0106) ∧
      (s.boot.phase = 11 →
        let r := { s with sec := { s.sec with certFloor := rebuiltFloor s } }
        match chooseSlot r (slotCheck r false).isNone (slotCheck r true).isNone with
        | some b => t.boot.phase = 12 ∧ t.boot.halt = false ∧ t.boot.cfgSlot = b
        | none => t.boot.halt = true ∧ t.boot.haltCode = 0x0106) ∧
      (s.boot.phase = 12 → match schedule s with
        | .ok _ => t.boot = { s.boot with phase := 13 }
        | .error _ => t.boot = { s.boot with halt := true, haltCode := 0x0E01 }) ∧
      (s.boot.phase = 13 → t.boot.phase = 14 ∧ t.boot.firstSpeeds = some found.speeds) ∧
      (s.boot.phase = 14 → t.boot.phase = 14 ∧ t.boot.step14 = true)) ∧
  (∀ s : State, castOnRuns s = true → s.boot.step14 = true → s.power.seated = true →
    ∃ u, exec .castOnDone s = .next (settle s u) ∧ u.mode = .idle ∧ u.boot = { s.boot with phase := 15 } ∧ u.host.outSystem = true ∧
      u.host.beatSpi = s.clk.now ∧ u.host.beatCan = s.clk.now ∧
      u.sec.fuses.fwFloor = (if s.boot.fwAdvance ∧ s.sec.fuses.fwFloor < s.boot.fwSecVersion then s.boot.fwSecVersion else s.sec.fuses.fwFloor)) ∧
  (∀ s : State, castOnRuns s = true → s.boot.phase = 2 →
    exec .xinStartFail s = .next (settle s { s with
      boot := { s.boot with halt := true, haltCode := 0x0105 }, host := { s.host with outSystem := true } })) ∧
  (∀ s : State, castOnRuns s = true → s.boot.phase = 3 →
    exec .pllLockTimeout s = .next (settle s { s with
      boot := { s.boot with halt := true, haltCode := 0x080B }, host := { s.host with outSystem := true } }))

/-- EARLY_N low for 10 ms releases the output drivers; EARLY_N high tri-states every output, and from IDLE, RUN and SERVICE latches SAFE
with every present axis in FREEWHEEL and raises EARLY_REMOVAL (R54, R55). -/
def Obligations.LiveInsertionAndRemovalTakeEffect : Prop :=
  (∀ s : State, exec .earlyNQualified s = .next (settle s { s with
    power := { s.power with earlyHigh := false, seated := true }
    sec := if s.power.seated then s.sec else { s.sec with meshFirst := Vector.replicate 2 true } })) ∧
  (∀ s : State, s.power.earlyHigh = false →
    ∃ u, exec .earlyRemoval s = .next (settle s u) ∧ u.power = { s.power with earlyHigh := true, seated := false } ∧ u.clk = s.clk ∧ driversOn u = false ∧
      ((s.mode = .idle ∨ s.mode = .run ∨ s.mode = .service) → u.mode = .safe ∧
        ∀ n, axPresent s n = true → (u.axis n).core.st = .axisSafe ∧ (u.axis n).core.sub = .freewheel))

/-- A declared clock loss is noted once, sets FAULTSUM.CLOCK_LOSS and the domain's bit, and reacts by Table 1.5: XIN, PWM and BACKSTAY latch
SAFE from the operating modes; the loss of the PWM clock stops drive time. The loss of Backstay liveness removes every gate enable and
latches SAFE with every axis in FREEWHEEL. A supply out of range trips every present axis with source FIRMWARE and latches SAFE; VBAT low
is noted (R17, R18, R19, R23, R395, R396). -/
def Obligations.ClockAndSupplyLossesTakeEffect : Prop :=
  (∀ (s : State) (d : ClockDomain), s.power.inReset = false → s.mode ≠ .sleep → s.clk.monitorsArmed = true →
      bitAt s.clk.declared (domainNumber d) = false →
    ∃ u, exec (.clockLoss d) s = .next (settle s u) ∧ u.host.clockLoss = true ∧ bitAt u.clk.declared (domainNumber d) = true ∧
      bitAt u.clk.lost (domainNumber d) = true ∧ u.clk.drive = s.clk.drive ∧ (d = .pwm → u.clk.driveRuns = false) ∧
      ((d = .xin ∨ d = .pwm ∨ d = .backstay) → (s.mode = .idle ∨ s.mode = .run ∨ s.mode = .service) → u.mode = .safe)) ∧
  (∀ s : State, exec .pwmClockLoss s = .next (settle s { s with clk := { s.clk with driveRuns := false, lost := setBit s.clk.lost 2 true } })) ∧
  (∀ s : State, s.back.livenessLost = false → s.power.inReset = false → 3 ≤ s.boot.phase →
    ∃ u, exec .livenessLoss s = .next (settle s u) ∧ u.back.livenessLost = true ∧
      ((s.mode = .idle ∨ s.mode = .run ∨ s.mode = .service) → u.mode = .safe ∧
        ∀ n, axPresent s n = true → bitAt (u.axis n).trip.src 28 = true ∧ (u.axis n).core.sub = .freewheel)) ∧
  (∀ (s : State) (supply : Nat) (volts : Q), s.power.inReset = false → supply ≤ 8 → supplyOut supply volts = true →
    ∃ u, exec (.supplyOutOfRange supply volts) s = .next (settle s u) ∧
      u.power = { s.power with supplyBad := setBit s.power.supplyBad (21 - supply) true, supplyNow := setBit s.power.supplyNow (21 - supply) true } ∧
      (∀ n, axPresent s n = true → bitAt (u.axis n).trip.src 21 = true) ∧
      ((s.mode = .idle ∨ s.mode = .run ∨ s.mode = .service) → u.mode = .safe)) ∧
  (∀ (s : State) (volts : Q), volts < 17 / 10 → s.power.vbatLow = false → ∃ u, exec (.vbatLow volts) s = .next (settle s u) ∧
      u.power = { s.power with vbatLow := true, supplyNow := setBit s.power.supplyNow 12 true } ∧ u.axes = s.axes ∧ u.mode = s.mode)

/-- SYS.RESET with the confirmation word schedules the reset; SYS.SERVICE enters SERVICE from IDLE with a permission, both STO channels low and
no tack pending, which spends the permission, and leaves it to IDLE, or through cast-on with a split pair; SYS.BIND_OFF starts the
sequence and SLEEP is entered at its end; a wake sets PMIC_EN; a wake latched during bind-off sets it later (R30, R34, R46 to R49, R392, R540). -/
def Obligations.ServiceBindOffAndWakeTakeEffect : Prop :=
  (∀ (s : State) (slot : Nat) (j : Job), Ready s slot 0x0103 j → j.u 0 4 = 0xC0DE →
    exec (.sysReset slot) s = .next (settle s (respond { s with power := { s.power with resetDue := some 3 } } j 0 []))) ∧
  (∀ (s : State) (slot : Nat) (j : Job) (until_ : Nat), Ready s slot 0x0104 j → j.u 0 1 = 1 → s.mode = .idle →
      serviceLife s.sec.life = true → s.sec.permitUntil = some until_ → s.clk.now ≤ until_ → s.sto.aLow = true → s.sto.bLow = true → s.cfg.tack = none →
    exec (.sysServiceEnter slot) s = .next (settle s (respond { s with mode := .service, sec := { s.sec with permitUntil := none } } j 0 [4]))) ∧
  (∀ (s : State) (slot : Nat) (j : Job), Ready s slot 0x0104 j → j.u 0 1 = 0 → s.mode = .service → s.lock.pairBSplit = false →
      dbgSplit s = false →
    exec (.sysServiceExit slot) s = .next (settle s (respond { s with mode := .idle } j 0 [1]))) ∧
  (∀ (s : State) (slot : Nat) (j : Job), Ready s slot 0x0104 j → j.u 0 1 = 0 → s.mode = .service → (s.lock.pairBSplit = true ∨ dbgSplit s = true) →
    ∃ t, exec (.sysServiceExit slot) s = .next t ∧ t.boot.phase = 1 ∧ t.power.inReset = false ∧ t.boot.wakeCause = s.power.wakeCause.getD 8) ∧
  (∀ (s : State) (slot : Nat) (j : Job), Ready s slot 0x0105 j → anyRotating s = false → s.cfg.tack = none → s.log.exporting = false →
    ∃ t, exec (.sysBindOff slot) s = .next t ∧ t.power.bindOff = true) ∧
  (∀ s : State, s.power.bindOff = true → s.aux.parking = false → s.mode = .idle →
    ∃ t, exec .bindOffDone s = .next t ∧ t.mode = .sleep ∧ t.power.inReset = true ∧ t.power.pmicEn = false ∧ t.power.cleanShutdown = true ∧
      t.power.sleepRtc = s.clk.rtc ∧ t.power.wakeLatched = s.power.wakeLatched ∧ t.sec.fuses = s.sec.fuses ∧ t.fw.slotA = s.fw.slotA) ∧
  (∀ (s : State) (can : Bool), s.mode = .sleep → s.power.pmicEn = false →
    exec (.wake can) s = .next (settle s { s with power := { s.power with pmicEn := true, wakeCause := some (if can then 2 else 1) } })) ∧
  (∀ (s : State) (can : Bool), s.mode ≠ .sleep → s.power.bindOff = true → s.power.wakeLatched = none →
    exec (.wake can) s = .next (settle s { s with power := { s.power with wakeLatched := some (if can then 2 else 1) } })) ∧
  (∀ (s : State) (cause : Nat), s.mode = .sleep → s.power.pmicEn = false → s.power.wakeLatched = some cause →
    exec .wakeLatchedReassert s = .next (settle s { s with power := { s.power with pmicEn := true, wakeCause := some 5, wakeLatched := none } }))

/-- The recovery loader: BEGIN erases the named slot and takes its size, DATA lays the bytes up to that size into it
over erased flash (what lies beyond the size is dropped by the model's choice, log entry 211), END answers success where
the image passes the signature and rollback checks and IMAGE_INVALID with the slot marked where it does not (R83, Table 3.20). -/
def Obligations.RomLoaderWritesTheNamedSlot : Prop :=
  (∀ (s : State) (slot : Nat) (j : Job), Ready s slot 0x01F0 j → j.u 0 1 ≤ 1 → j.u 4 4 ≤ 4 * 1048576 →
    exec (.sysLoaderBegin slot) s = .next (settle s (respond { s with fw :=
      (if j.u 0 1 = 1 then { s.fw with slotB := [], invalidB := false, loadSlot := some true, loadSize := j.u 4 4 }
       else { s.fw with slotA := [], invalidA := false, loadSlot := some false, loadSize := j.u 4 4 }) } j 0 []))) ∧
  (∀ (s : State) (slot : Nat) (j : Job) (b : Bool), Ready s slot 0x01F1 j → s.fw.loadSlot = some b → 4 ≤ j.payload.length →
      j.payload.length ≤ 52 → j.u 0 4 + (j.payload.length - 4) ≤ 4 * 1048576 →
    ∃ t, exec (.sysLoaderData slot) s = .next t ∧ fwSlotBytes t (!b) = fwSlotBytes s (!b) ∧
      slice (fwSlotBytes t b) (j.u 0 4) ((j.payload.drop 4).take (s.fw.loadSize - j.u 0 4)).length = (j.payload.drop 4).take (s.fw.loadSize - j.u 0 4) ∧
      (∀ k, k < j.u 0 4 → k < (fwSlotBytes s b).length → (fwSlotBytes t b)[k]? = (fwSlotBytes s b)[k]?)) ∧
  (∀ (s : State) (slot : Nat) (j : Job) (b : Bool), Ready s slot 0x01F2 j → s.fw.loadSlot = some b → j.u 0 1 = ofFlag b →
    exec (.sysLoaderEnd slot) s = .next (settle s (
      if fwSigned s (fwSlotBytes s b) then respond { s with fw := { s.fw with loadSlot := none } } j 0 [1]
      else respond { s with fw := (if b then { s.fw with loadSlot := none, invalidB := true } else { s.fw with loadSlot := none, invalidA := true }) }
        j evImageInvalid [])))

/-- A low on a STO channel that lasts 400 ns engages it and one under 200 ns is counted and ignored; a channel that engages, or STO_INT,
forces the outputs off and removes GDEN (SO0 and SO1 off); with an axis not OFF it sets the STO source of a latched trip on every present axis,
latches SAFE and shows FREEWHEEL; with every axis OFF no axis changes. A channel high for 5 ms counts as high and not before, and STO_RELEASED follows when
both do; GDEN returns while the outputs may be on and its readback shows off, and waits for it otherwise; a discrepancy of 20 ms ±2 % locks the
outputs off and a shorter one does nothing (R42, R166 to R170). -/
def Obligations.SafeTorqueOffEngagesAndReleases : Prop :=
  (∀ (s : State) (ticks : Nat), s.sto.aLow = false → 40 ≤ ticks →
    ∃ u, exec (.stoEngaged .chA ticks) s = .next (settle s u) ∧ u.sto.aLow = true ∧ u.sto.aQual = false ∧ u.sto.bLow = s.sto.bLow ∧
      u.so.on[0] = false ∧ u.so.on[1] = false ∧
      ((∃ n, axPresent s n = true ∧ (s.axis n).core.st ≠ .off) →
        (∀ n, axPresent s n = true → bitAt (u.axis n).trip.src 31 = true ∧ (u.axis n).core.sub = .freewheel) ∧
        ((s.mode = .idle ∨ s.mode = .run ∨ s.mode = .service) → u.mode = .safe)) ∧
      ((∀ n, axPresent s n = true → (s.axis n).core.st = .off) → u.mode = s.mode ∧ ∀ n, (u.axis n).trip = (s.axis n).trip ∧ (u.axis n).core = (s.axis n).core)) ∧
  (∀ (s : State) (ticks : Nat), s.sto.bLow = false → 40 ≤ ticks →
    ∃ u, exec (.stoEngaged .chB ticks) s = .next (settle s u) ∧ u.sto.bLow = true ∧ u.sto.bQual = false ∧ u.so.on[0] = false ∧ u.so.on[1] = false ∧
      ((∃ n, axPresent s n = true ∧ (s.axis n).core.st ≠ .off) → ∀ n, axPresent s n = true → bitAt (u.axis n).trip.src 30 = true)) ∧
  (∀ (s : State) (ticks : Nat), s.sto.intSet = false →
    ∃ u, exec (.stoEngaged .internal ticks) s = .next (settle s u) ∧ u.sto.intSet = true ∧ u.so.on[0] = false ∧ u.so.on[1] = false ∧
      ((∃ n, axPresent s n = true ∧ (s.axis n).core.st ≠ .off) → ∀ n, axPresent s n = true → bitAt (u.axis n).trip.src 29 = true)) ∧
  (∀ (s : State) (ticks : Nat), s.sto.aLow = false → ticks < 20 →
    exec (.stoEngaged .chA ticks) s = .next (settle s { s with sto := { s.sto with aGlitch := satInc 8 s.sto.aGlitch } })) ∧
  (∀ s : State, s.sto.aLow = true →
    ∃ u, exec (.stoQualifying .chA) s = .next (settle s u) ∧ u.sto.aLow = false ∧ u.sto.aQual = s.sto.aQual ∧ u.axes = s.axes ∧
      (s.sto.bLow = false → s.sto.intSet = false → s.sto.discrepancy = false → outputsUp s = true →
        (s.so.fb[0] = false → s.so.fb[1] = false → u.so.on[0] = !s.so.failed[0] ∧ u.so.on[1] = !s.so.failed[1]) ∧
        ((s.so.fb[0] = true ∨ s.so.fb[1] = true) → u.sto.gdenWaits = true ∧ u.so = s.so)) ∧
      ((s.sto.bLow = true ∨ s.sto.intSet = true ∨ s.sto.discrepancy = true ∨ outputsUp s = false) → u.so = s.so)) ∧
  (∀ s : State, s.sto.aLow = false → s.sto.aQual = false → s.sto.aHighAt + 500000 ≤ s.clk.now → s.sto.bQual = false →
    exec (.stoReleased .chA) s = .next (settle s { s with sto := { s.sto with aQual := true } })) ∧
  (∀ s : State, s.sto.aLow = false → s.sto.bLow = false → s.sto.aQual = true → s.sto.bQual = false →
      s.sto.bHighAt + 500000 ≤ s.clk.now → s.sto.discrepancy = false → s.sto.intSet = false →
      outputsUp s = true → s.so.fb[0] = false → s.so.fb[1] = false →
    ∃ u, exec (.stoReleased .chB) s = .next (settle s u) ∧ u.sto.bQual = true ∧ u.sto.qualifying = false ∧
      u.so.on[0] = !s.so.failed[0] ∧ u.so.on[1] = !s.so.failed[1] ∧ u.axes = s.axes) ∧
  (∀ s : State, s.sto.aLow = false → (s.sto.aQual = true ∨ s.clk.now < s.sto.aHighAt + 500000) → exec (.stoReleased .chA) s = .next s) ∧
  (∀ s : State, s.clk.now < s.sto.differAt + 1960000 → exec .stoDiscrepancy s = .next s) ∧
  (∀ s : State, s.sto.aLow ≠ s.sto.bLow → s.sto.discrepancy = false → s.sto.differAt + 1960000 ≤ s.clk.now →
    ∃ u, exec .stoDiscrepancy s = .next (settle s u) ∧ u.sto = { s.sto with discrepancy := true, bothLow := false, gdenWaits := false } ∧
      u.so.on[0] = false ∧ u.so.on[1] = false ∧ u.axes = s.axes)

/-- A driver fault of an evaluated input records FLT_SIDE from the gate outputs, and sets the latched trip FLT of its leg, its level-2 latch
and its low input; an input that is not evaluated is low and no more; the input's return high clears only that it is low; a latch whose
source has been inactive for HANDOVER is handed over once to level 3 while the latched trip stays (R155, R156, R162). -/
def Obligations.DriverFaultsLatchAndHandOver : Prop :=
  (∀ (s : State) (n : Fin 4) (leg : Fin 3), axPresent s n = true → fltPresent s n leg = true → hardwareUp s = true →
    ∃ u, exec (.driverFault n leg) s = .next (settle s u) ∧
      bitAt (u.axis n).trip.src (16 + leg.val) = true ∧ bitAt (u.axis n).trip.fltLow leg.val = true ∧ bitAt (u.axis n).trip.fltLatch leg.val = true ∧
      (u.axis n).trip.side[leg.val] = fltSideNow s n leg ∧
      ((s.axis n).pwm.gates[leg.val].high = true → (s.axis n).pwm.gates[leg.val].low = false → (u.axis n).trip.side[leg.val] = 1) ∧
      ((s.axis n).pwm.gates[leg.val].high = false → (s.axis n).pwm.gates[leg.val].low = true → (u.axis n).trip.side[leg.val] = 2) ∧
      ((s.axis n).core.st ≠ .off → (u.axis n).core.st = .axisSafe) ∧ ((s.axis n).core.st = .off → (u.axis n).core.st = .off)) ∧
  (∀ (s : State) (n : Fin 4) (leg : Fin 3), axPresent s n = true → (fltPresent s n leg = false ∨ hardwareUp s = false) →
    exec (.driverFault n leg) s = .next (settle s (s.setAxis n fun a => { a with trip := { a.trip with fltLow := setBit a.trip.fltLow leg.val true } }))) ∧
  (∀ (s : State) (n : Fin 4) (leg : Fin 3), ∃ u, exec (.faultNHigh n leg) s = .next (settle s u) ∧
      u = s.setAxis n (fun a => { a with trip := { a.trip with fltLow := setBit a.trip.fltLow leg.val false, fltGone := a.trip.fltGone.set leg.val s.clk.now } }) ∧
      (u.axis n).trip.src = (s.axis n).trip.src) ∧
  (∀ (s : State) (n : Fin 4) (leg : Fin 3), bitAt s.clk.lost 2 = false → (s.axis n).trip.src ≠ 0 → bitAt (s.axis n).trip.fltLatch leg.val = true →
      bitAt (fltLowNow s n) leg.val = false → bitAt (s.axis n).trip.fltHanded leg.val = false →
      cfgF s secTrip n.val 4 ≤ ((s.clk.now - (s.axis n).trip.fltGone[leg.val] : Nat) : Q) / 100000000 →
    ∃ u, exec (.handover n 0 0 (2 ^ leg.val)) s = .next (settle s u) ∧ bitAt (u.axis n).trip.fltLatch leg.val = false ∧
      bitAt (u.axis n).trip.fltHanded leg.val = true ∧ (u.axis n).trip.src = (s.axis n).trip.src ∧ (u.axis n).core = (s.axis n).core)

/-- A comparator input that crosses its threshold outside the blanking window, and a fast filter output outside its limits, take the action
of the entry: REPORT no trip, CBC a block of its scope for the period, LATCH and PATTERN a latched trip, LATCH with the level-2 latch of the
source. Inside the window a crossing does nothing but stand; an input that has moved back ends the source's activity (R150, R152 to R154,
R157, Table 6.2). -/
def Obligations.ComparatorAndFastFlagActions : Prop :=
  (∀ (s : State) (cmp : Fin 24) (n : Fin 4) (off : Nat) (volts : Q), cmpUser s cmp = some n → cmpEntry s n cmp.val = some off →
      cmpOutput s n off (bitAt (s.axis n).trip.cmpOut cmp.val) volts = true → bitAt (s.axis n).trip.cmpAct cmp.val = false → blanked s n off = false →
    ∃ u, exec (.cmpTrip cmp volts) s = .next (settle s u) ∧ bitAt (u.axis n).trip.cmpAct cmp.val = true ∧
      (entryAction s n off = 0 → (u.axis n).trip.src = (s.axis n).trip.src ∧ (u.axis n).core = (s.axis n).core ∧ (u.axis n).pwm = (s.axis n).pwm) ∧
      (entryAction s n off = 1 → (u.axis n).pwm.blockedPeriod = true ∧ (u.axis n).trip.cbcTrips = satInc 24 (s.axis n).trip.cbcTrips ∧
        (cbcScope s n = 0 → ∀ leg : Fin 3, entryTargets s n off leg = true → (u.axis n).pwm.block[leg.val] = true)) ∧
      (entryAction s n off = 2 → bitAt (u.axis n).trip.src 20 = true ∧ bitAt (u.axis n).trip.cmpLatch cmp.val = true) ∧
      (entryAction s n off = 3 → bitAt (u.axis n).trip.src 20 = true ∧ (u.axis n).trip.cmpLatch = (s.axis n).trip.cmpLatch)) ∧
  (∀ (s : State) (cmp : Fin 24) (n : Fin 4) (off : Nat) (volts : Q), cmpUser s cmp = some n → cmpEntry s n cmp.val = some off →
      cmpOutput s n off (bitAt (s.axis n).trip.cmpOut cmp.val) volts = true → blanked s n off = true →
    exec (.cmpTrip cmp volts) s = .next (settle s (s.setAxis n fun a => { a with trip := { a.trip with cmpOut := setBit a.trip.cmpOut cmp.val true } }))) ∧
  (∀ (s : State) (cmp : Fin 24) (n : Fin 4) (off : Nat) (volts : Q), cmpUser s cmp = some n → cmpEntry s n cmp.val = some off →
      cmpOutput s n off (bitAt (s.axis n).trip.cmpOut cmp.val) volts = false →
    exec (.cmpTrip cmp volts) s = .next (settle s (s.setAxis n fun a => { a with trip := { a.trip with
      cmpOut := setBit a.trip.cmpOut cmp.val false, cmpAct := setBit a.trip.cmpAct cmp.val false
      cmpGone := if bitAt a.trip.cmpOut cmp.val then a.trip.cmpGone.set cmp.val s.clk.now else a.trip.cmpGone } }))) ∧
  (∀ (s : State) (ch : Fin 16) (n : Fin 4) (off : Nat) (value : Q),
      allAxes.find? (fun n => axEnabled s n && (dsfEntry s n ch.val).isSome) = some n → dsfEntry s n ch.val = some off →
      (cfgF s secTrip n.val (off + 4) < value ∨ value < cfgF s secTrip n.val (off + 8)) → bitAt (s.axis n).trip.dsfAct ch.val = false →
    ∃ u, exec (.dsfTrip ch value) s = .next (settle s u) ∧ bitAt (u.axis n).trip.dsfAct ch.val = true ∧
      (entryAction s n off = 0 → (u.axis n).trip.src = (s.axis n).trip.src ∧ (u.axis n).core = (s.axis n).core ∧ (u.axis n).pwm = (s.axis n).pwm) ∧
      (entryAction s n off = 1 → (u.axis n).pwm.blockedPeriod = true ∧ (u.axis n).trip.cbcTrips = satInc 24 (s.axis n).trip.cbcTrips) ∧
      (entryAction s n off = 2 → bitAt (u.axis n).trip.src 19 = true ∧ bitAt (u.axis n).trip.dsfLatch ch.val = true) ∧
      (entryAction s n off = 3 → bitAt (u.axis n).trip.src 19 = true)) ∧
  (∀ (s : State) (ch : Fin 16) (n : Fin 4) (off : Nat) (value : Q),
      allAxes.find? (fun n => axEnabled s n && (dsfEntry s n ch.val).isSome) = some n → dsfEntry s n ch.val = some off →
      ¬ cfgF s secTrip n.val (off + 4) < value → ¬ value < cfgF s secTrip n.val (off + 8) →
    exec (.dsfTrip ch value) s = .next (settle s (s.setAxis n fun a => { a with trip := { a.trip with 
      dsfAct := setBit a.trip.dsfAct ch.val false, dsfGone := if bitAt a.trip.dsfAct ch.val then a.trip.dsfGone.set ch.val s.clk.now else a.trip.dsfGone } })))

/-- A write of a shadow register changes that register alone, and on an absent axis nothing but the count of access faults; a COMMIT of an
axis without a group takes the shadow set as the pending set and restarts the watchdog; a valley that RELOAD selects transfers the pending set;
SAFEPAT takes the pattern and counts its sequence; a member reports SHADOW_DONE; the watchdog at its limit and a firmware request set latched
trips (R4, R115, R124, R128, R141, R149, R227). -/
def Obligations.CompareSetsCommitAndTransfer : Prop :=
  (∀ (s : State) (n : Fin 4) (leg : Fin 3) (v : Nat), pwmDeaf s n = false → ∃ u, exec (.shadowWrite n (.cmpA leg) v) s = .next (settle s u) ∧
      u = s.setAxis n (fun a => { a with pwm := { a.pwm with shadow := { a.pwm.shadow with cmpA := a.pwm.shadow.cmpA.set leg.val v } } }) ∧
      (u.axis n).pwm.shadow.cmpA[leg.val] = v) ∧
  (∀ (s : State) (n : Fin 4) (leg : Fin 3) (v : Nat), pwmDeaf s n = false → ∃ u, exec (.shadowWrite n (.cmpB leg) v) s = .next (settle s u) ∧
      u = s.setAxis n (fun a => { a with pwm := { a.pwm with shadow := { a.pwm.shadow with cmpB := a.pwm.shadow.cmpB.set leg.val v } } }) ∧
      (u.axis n).pwm.shadow.cmpB[leg.val] = v) ∧
  (∀ (s : State) (n : Fin 4) (v : Nat), pwmDeaf s n = false → exec (.shadowWrite n .period v) s = .next (settle s
      (s.setAxis n (fun a => { a with pwm := { a.pwm with shadow := { a.pwm.shadow with period := v } } })))) ∧
  (∀ (s : State) (n : Fin 4) (reg : ShadowReg) (v : Nat) (late : Bool) (c : Instr), axPresent s n = false → bitAt s.clk.lost 1 = false →
      (c = .shadowWrite n reg v ∨ c = .commit n late ∨ c = .shadowDone n ∨ c = .safepatWrite n v ∨ c = .firmwareTripRequest n v) →
    ∃ u, exec c s = .next (settle s u) ∧ u.axes = s.axes ∧ u.rig.accessFaults = satInc 16 s.rig.accessFaults) ∧
  (∀ (s : State) (n : Fin 4), pwmDeaf s n = false → axEnabled s n = true → axGroup s n = 0 → (s.axis n).pwm.pending = none →
    ∃ u, exec (.commit n false) s = .next (settle s u) ∧ (u.axis n).pwm.pending = some (s.axis n).pwm.shadow ∧
      (u.axis n).pwm.wdCount = 0 ∧ (u.axis n).pwm.active = (s.axis n).pwm.active ∧ (u.axis n).trip.commitSince = true ∧
      (u.axis n).pwm.commitOverrun = (s.axis n).pwm.commitOverrun ∧ ∀ m, m ≠ n → u.axis m = s.axis m) ∧
  (∀ (s : State) (n : Fin 4), pwmDeaf s n = false → axEnabled s n = true → axGroup s n = 0 →
    ∃ u, exec (.commit n true) s = .next (settle s u) ∧ (u.axis n).pwm.late = some (s.axis n).pwm.shadow ∧
      (u.axis n).pwm.pending = (s.axis n).pwm.pending ∧ (u.axis n).pwm.lateCommit = satInc 16 (s.axis n).pwm.lateCommit) ∧
  (∀ (s : State) (n : Fin 4) (set : CompareSet) (cmps dsfs : Nat), bitAt s.clk.lost 2 = false → axEnabled s n = true → axGroup s n = 0 →
      s.cfg.lag = 0 → (s.axis n).pwm.running = true → (s.axis n).pwm.overTaps = 0 → reloadAt s n false = true → (s.axis n).pwm.pending = some set →
      (s.axis n).pwm.late = none → (s.axis n).trip.cmpCbc = 0 → (s.axis n).trip.dsfCbc = 0 →
    ∃ u, exec (.carrierReload n false cmps dsfs) s = .next (settle s u) ∧
      (u.axis n).pwm.active = { set with period := clampPeriod s n set.period } ∧ (u.axis n).pwm.pending = none ∧
      (u.axis n).pwm.carrier = ((s.axis n).pwm.carrier + 1) % 2 ^ 32 ∧ (u.axis n).pwm.block = Vector.replicate 3 false ∧
      (u.axis n).pwm.before = (s.axis n).pwm.active ∧ (u.axis n).pwm.eventPeak = false ∧ (u.axis n).pwm.pos = 0 ∧
      (u.axis n).pwm.wdCount = (if (s.axis n).pwm.committed then 0 else min (wdLimit s n) ((s.axis n).pwm.wdCount + 1)) ∧
      (u.axis n).prof.valleys = (s.axis n).prof.valleys + 1 ∧ ∀ m, m ≠ n → u.axis m = s.axis m) ∧
  (∀ (s : State) (n : Fin 4), pwmDeaf s n = false → axGroup s n = 0 → (s.axis n).pwm.commitHeld = false →
    ∃ u, exec (.shadowDone n) s = .next (settle s u) ∧ u = s.setAxis n (fun a => { a with pwm := { a.pwm with shadowDone := true } })) ∧
  (∀ (s : State) (n : Fin 4) (pattern : Nat), pwmDeaf s n = false → axEnabled s n = true → pattern < 4 →
    ∃ u, exec (.safepatWrite n pattern) s = .next (settle s u) ∧ (u.axis n).pwm.safepat = pattern ∧
      (u.axis n).pwm.safeSeq = ((s.axis n).pwm.safeSeq + 1) % 256 ∧ (u.axis n).core.st = (s.axis n).core.st ∧
      ((s.axis n).core.st ≠ .axisSafe → (u.axis n).core = (s.axis n).core) ∧ ∀ m, m ≠ n → u.axis m = s.axis m) ∧
  (∀ (s : State) (n : Fin 4), axEnabled s n = true → axLeader s n = n → wdLimit s n ≤ (s.axis n).pwm.wdCount →
    ∃ u, exec (.pwmWatchdog n) s = .next (settle s u) ∧ bitAt (u.axis n).trip.src 26 = true ∧ (u.axis n).trip.commitSince = false) ∧
  (∀ (s : State) (n : Fin 4) (cause : Nat), axPresent s n = true →
    ∃ u, exec (.firmwareTripRequest n cause) s = .next (settle s u) ∧ bitAt (u.axis n).trip.src 21 = true ∧
      cause ∈ (u.axis n).trip.fwCauses ∧ ((s.axis n).core.st = .off → (u.axis n).core.st = .off) ∧
      ((s.axis n).core.st ≠ .off → (u.axis n).core.st = .axisSafe))

/-- The end of a measurement window makes the record of its edge, which enters the FIFO of 32 records to the current loop: a dropped pulse records its width,
and without a sense input no edge is valid and nothing of trips and axis states changes. An expected edge that the sense input contradicts
counts as missing for its switch and at EDGE_MISS_LIMIT sets the latched trip (R131 to R133, R135, R139, Tables 5.4, 5.10). -/
def Obligations.EdgeRecordsCountAndCorrect : Prop :=
  ∀ (s : State) (n : Fin 4) (leg : Fin 3) (start : Bool) (toggles : List Nat) (w : EdgeWindow) (rest : List EdgeWindow),
    bitAt s.clk.lost 2 = false → axEnabled s n = true → (s.axis n).pwm.gates[leg.val].windows = w :: rest → w.stop ≤ tapNow s →
    ∃ u, exec (.edgeRecord n leg start toggles) s = .next (settle s u) ∧
      ((s.axis n).pwm.records.length < 32 → (u.axis n).pwm.records = (s.axis n).pwm.records ++ [recordOf s n leg w start toggles]) ∧ (u.axis n).pwm.gates[leg.val].windows = rest ∧
      (recordOf s n leg w start toggles).rising = w.rising ∧
      (w.dropped = true → (recordOf s n leg w start toggles).err = (w.width : Int) ∧ (recordOf s n leg w start toggles).valid = false) ∧
      (sensePresent s n leg = false → (recordOf s n leg w start toggles).valid = false ∧
        (u.axis n).trip = (s.axis n).trip ∧ (u.axis n).core = (s.axis n).core ∧ ∀ m, m ≠ n → u.axis m = s.axis m) ∧
      (sensePresent s n leg = true → w.dropped = false → w.short = false → w.brief = false → axSwitching s n = true → w.rising = true →
        (recordOf s n leg w start toggles).valid = false → levelAt w start toggles = false →
        (u.axis n).pwm.legs[leg.val].missH = min 255 ((s.axis n).pwm.legs[leg.val].missH + 1) ∧
        ((s.axis n).pwm.legs[leg.val].missH < 255 → max 1 (pwmU s n 73 1) ≤ (s.axis n).pwm.legs[leg.val].missH + 1 →
          bitAt (u.axis n).trip.src 25 = true))

/-- A raised trigger reaches every converter at once: one that is idle starts the injected slots of the code and re-queues a regular
conversion in progress, a busy one holds the code, and with a code held the trigger is lost and counted; a result is kept in the slot that
ran with the hold instant 190 ns back, its input and its over-range flag; a delta-sigma evaluation is kept limited to full scale, with the time
of its instant where a trigger asked for it and as the last output otherwise; a run of one level above RUN_LIMIT or another modulator fault marks its channel and trips the axes that use
it, and its end starts the 10 ms after which it clears (R177 to R179, R182, R184, R185). -/
def Obligations.ConverterTriggersAndResultsAreKept : Prop :=
  (∀ (s : State) (code : Nat), adcLost s = false → code ∈ s.sensing.raised →
    ∃ t, exec (.injectedTrigger code) s = .next t ∧ code ∉ t.sensing.raised ∧ t.sensing.sd = s.sensing.sd ∧
      (∀ conv : Fin 8, conv = 7 ∨ injectedSlots s conv.val code = [] → t.conv conv = s.conv conv) ∧
      ∀ conv : Fin 8, conv ≠ 7 → injectedSlots s conv.val code ≠ [] →
        ((s.conv conv).injected = [] → (t.conv conv).injected = injectedSlots s conv.val code ∧
          ∀ r, (s.conv conv).regular = some r → (t.conv conv).regular = none ∧ (t.conv conv).requeue = r :: (s.conv conv).requeue ∧
            (t.conv conv).aborts = satInc 16 (s.conv conv).aborts) ∧
        ((s.conv conv).injected ≠ [] → (s.conv conv).heldCode = none → t.conv conv = { s.conv conv with heldCode := some code }) ∧
        (∀ held, (s.conv conv).injected ≠ [] → (s.conv conv).heldCode = some held →
          t.conv conv = { s.conv conv with injOverrun := satInc 8 (s.conv conv).injOverrun })) ∧
  (∀ (s : State) (conv : Fin 8) (code k ain : Nat) (check : Bool) (h : k < 20), (conv ≠ 7 → adcLost s = false) →
      (conv = 7 → bitAt s.clk.lost 7 = false) → conversion s conv check = some (k, ain) → code < 65536 →
    ∃ t, exec (.sarResult conv code check) s = .next t ∧ (t.conv conv).slots[k].code = code ∧ (t.conv conv).slots[k].ain = ain ∧
      (t.conv conv).slots[k].valid = true ∧ (t.conv conv).slots[k].ovr = (code == 0 || code == 65535) ∧
      (t.conv conv).slots[k].time = s.clk.drive.toNat - 19 ∧
      (t.conv conv).slots[k].requeued = ((s.conv conv).injected.isEmpty && (s.conv conv).rerun) ∧
      (ain = 38 → (t.conv conv).chkHi = code) ∧ (ain = 39 → (t.conv conv).chkLo = code) ∧ ∀ c, c ≠ conv → t.conv c = s.conv c) ∧
  (∀ (s : State) (ch : Fin 16) (bits : List Bool), adcLost s = false → dsClaimed s ch.val = true → 3 * dsOsr s ch.val ≤ bits.length →
      longestRun bits ≤ dsRunLimit s ch.val → (s.ds ch).due = true →
    ∃ t, exec (.deltaSigmaEvaluation ch bits true) s = .next t ∧ (t.ds ch).value = qlimit 1 (sinc3 (dsOsr s ch.val) bits) ∧
      (t.ds ch).time = s.clk.drive.toNat ∧ (t.ds ch).due = false ∧ (t.ds ch).fault = dsFaulted s ch ∧ ∀ c, c ≠ ch → t.ds c = s.ds c) ∧
  (∀ (s : State) (ch : Fin 16) (bits : List Bool), adcLost s = false → dsClaimed s ch.val = true → 3 * dsOsr s ch.val ≤ bits.length →
      longestRun bits ≤ dsRunLimit s ch.val →
    ∃ t, exec (.deltaSigmaEvaluation ch bits false) s = .next t ∧ (t.ds ch).last = qlimit 1 (sinc3 (dsOsr s ch.val) bits) ∧
      (t.ds ch).value = (s.ds ch).value ∧ (t.ds ch).time = (s.ds ch).time ∧ ∀ c, c ≠ ch → t.ds c = s.ds c) ∧
  (∀ (s : State) (ch : Fin 16) (bits : List Bool), adcLost s = false → dsClaimed s ch.val = true → 3 * dsOsr s ch.val ≤ bits.length →
      dsRunLimit s ch.val < longestRun bits → (s.ds ch).failing = false →
    ∃ u, exec (.deltaSigmaEvaluation ch bits false) s = .next (settle s u) ∧ (u.ds ch).fault = true ∧ (u.ds ch).failing = true ∧
      ∀ n, usesDs s n ch.val = true → bitAt (u.axis n).trip.src 21 = true ∧ evDsModulatorFault ∈ (u.axis n).trip.fwCauses) ∧
  (∀ (s : State) (ch : Fin 16), adcLost s = false → dsClaimed s ch.val = true →
    ∃ u, exec (.dsModulatorFault none ch true) s = .next (settle s u) ∧ (u.ds ch).fault = true ∧ (u.ds ch).failing = true ∧
      ∀ n, usesDs s n ch.val = true → bitAt (u.axis n).trip.src 21 = true ∧ evDsModulatorFault ∈ (u.axis n).trip.fwCauses) ∧
  (∀ (s : State) (ch : Fin 16), adcLost s = false → dsClaimed s ch.val = true →
    ∃ t, exec (.dsModulatorFault none ch false) s = .next t ∧ (t.ds ch).failing = false ∧ (t.ds ch).goodSince = s.clk.now ∧
      (t.ds ch).fault = (s.ds ch).fault) ∧
  (∀ (s : State) (m : Fin 4) (ch : Fin 16), adcLost s = false →
    ∃ u, exec (.dsModulatorFault (some m) ch true) s = .next (settle s u) ∧
      ∀ c : Fin 16, dsClaimed s c.val = true → dsClock s c.val = m.val → (u.ds c).fault = true ∧ (u.ds c).clockOk = false)

/-- An average of 1,024 samples inside OFFSET_LIMIT becomes the zero of its current; one outside leaves the zero, sets CURRENT_OFFSET_FAULT as
a cause and trips the axis. A low-side pair whose conduction interval still stands at its second hold is kept for the check; one whose interval
has ended is counted invalid; the interval gives no second pair. The plausibility check counts its evaluations, and with fewer than five
converters in agreement it leaves the question unresolved (R187, R193, R196, R197). -/
def Obligations.CalibrationPairsAndPlausibility : Prop :=
  (∀ (s : State) (n : Fin 4) (leg : Fin 3) (average : Q), axEnabled s n = true → curPresent s n leg = true → zeroConditions s n = true →
      adcLost s = false → 1024 ≤ (s.axis n).sense.zeroN[leg.val] →
      average = (s.axis n).sense.zeroSum[leg.val] / ((s.axis n).sense.zeroN[leg.val] : Q) →
      ¬ senseF s n 12 < qabs (average - entryZero s n (curOff leg)) * qabs (entryGain s n (curOff leg)) →
    ∃ u, exec (.currentZeroCalibration n leg) s = .next (settle s u) ∧ (u.axis n).sense.zero[leg.val] = some average ∧
      (u.axis n).sense.zeroN[leg.val] = 0 ∧
      (u.axis n).sense.offsetBad[leg.val] = false ∧ (u.axis n).trip = (s.axis n).trip ∧ ∀ m, m ≠ n → u.axis m = s.axis m) ∧
  (∀ (s : State) (n : Fin 4) (leg : Fin 3) (average : Q), axEnabled s n = true → curPresent s n leg = true → zeroConditions s n = true →
      adcLost s = false → 1024 ≤ (s.axis n).sense.zeroN[leg.val] →
      average = (s.axis n).sense.zeroSum[leg.val] / ((s.axis n).sense.zeroN[leg.val] : Q) →
      senseF s n 12 < qabs (average - entryZero s n (curOff leg)) * qabs (entryGain s n (curOff leg)) →
    ∃ u, exec (.currentZeroCalibration n leg) s = .next (settle s u) ∧ (u.axis n).sense.zero = (s.axis n).sense.zero ∧
      (u.axis n).sense.offsetBad[leg.val] = true ∧ bitAt (u.axis n).trip.src 21 = true ∧ evCurrentOffsetFault ∈ (u.axis n).trip.fwCauses) ∧
  (∀ (s : State) (n : Fin 4) (codeU codeV rise : Nat), backRuns s = true → pairWaits s n (tapNow s - 3968) = some rise →
      (∀ m : Fin 4, m < n → pairWaits s m (tapNow s - 3968) = none) → conduction s n (tapNow s) = some rise →
    ∃ u, exec (.lowSidePair n codeU codeV) s = .next (settle s u) ∧
      (u.axis n).sense.lsPairs = (s.axis n).sense.lsPairs ++ [(bsF s secSense n.val 28 * (codeVolts (min codeU 65535) - bsF s secSense n.val 32),
        bsF s secSense n.val 28 * (codeVolts (min codeV 65535) - bsF s secSense n.val 32), s.clk.drive.toNat)] ∧
      (u.axis n).bs.pairs.length = (s.axis n).bs.pairs.length + 1 ∧
      (u.axis n).sense.lsTaken = some rise) ∧
  (∀ (s : State) (n : Fin 4) (codeU codeV rise : Nat), backRuns s = true → pairWaits s n (tapNow s - 3968) = some rise →
      (∀ m : Fin 4, m < n → pairWaits s m (tapNow s - 3968) = none) → conduction s n (tapNow s) ≠ some rise →
    ∃ u, exec (.lowSidePair n codeU codeV) s = .next (settle s u) ∧
      (u.axis n).sense.lsInvalid = satInc 16 (s.axis n).sense.lsInvalid ∧ (u.axis n).sense.lsPairs = (s.axis n).sense.lsPairs ∧
      (u.axis n).bs = (s.axis n).bs ∧ (u.axis n).sense.lsTaken = some rise) ∧
  (∀ s : State, firmwareUp s = true → pairAWorks s = true → s.cfg.active.isSome = true → 0x0E ≤ s.boot.phase →
    ∃ t, exec .plausibilityEvaluation s = .next t ∧ t.sensing.evaluations = satInc 32 s.sensing.evaluations ∧
      (conv8.countP (convMajority s) < 5 → t.sensing.unresolved = true ∧ t.sensing.resolvedClean = 0))

/-- A dispatch of the current loop commits a compare set: an axis without a group has its shadow set pending and its watchdog restarted, whether
it regulates or not; an axis that is OFF stays OFF with its field-weakening offset at rest. Where a result is missing at the sample deadline of a reload
the previous set is committed and the miss counted, once for that reload; at the limit SAMPLE_LOST trips the axis (R191, R203, R212). -/
def Obligations.CurrentLoopCommitsACompareSet : Prop :=
  (∀ (s : State) (n : Fin 4), ctxRuns s 1 n.val 0 = true → bitAt s.clk.lost 2 = false → bitAt s.clk.lost 3 = false → axEnabled s n = true →
      axGroup s n = 0 →
    ∃ u, exec (.currentLoopDispatch n) s = .next (settle s u) ∧
      (u.axis n).pwm.pending = some (u.axis n).pwm.shadow ∧ (u.axis n).pwm.wdCount = 0 ∧ (u.axis n).pwm.committed = true ∧
      ((s.axis n).core.st = .off → (s.axis n).core.nextRun = none →
        (u.axis n).core.st = .off ∧ (u.axis n).ctl.dl = 0 ∧ (u.axis n).ctl.okRs = false ∧ (u.axis n).ctl.okKe = false ∧
        (u.axis n).prof.nW = (s.axis n).prof.nW + 1)) ∧
  (∀ (s : State) (n : Fin 4) (e : Int), ctxRuns s 1 n.val 0 = true → bitAt s.clk.lost 2 = false → axEnabled s n = true → axGroup s n = 0 →
      reloadDue s n = some e → (s.axis n).sense.missAt ≠ some e → resultMissing s n e = true → (s.axis n).core.nextRun = none → (s.axis n).core.ss1Asked = false → (s.axis n).sense.missFails + 1 < max 1 (senseU s n 1 1) →
    ∃ u, exec (.sampleMissing n) s = .next (settle s u) ∧ (u.axis n).pwm.pending = some (s.axis n).pwm.shadow ∧
      (u.axis n).sense.missFails = (s.axis n).sense.missFails + 1 ∧ (u.axis n).trip.src = (s.axis n).trip.src ∧ (u.axis n).core = (s.axis n).core) ∧
  (∀ (s : State) (n : Fin 4) (e : Int), ctxRuns s 1 n.val 0 = true → bitAt s.clk.lost 2 = false → axEnabled s n = true →
      reloadDue s n = some e → (s.axis n).sense.missAt ≠ some e → resultMissing s n e = true → max 1 (senseU s n 1 1) ≤ (s.axis n).sense.missFails + 1 →
    ∃ u, exec (.sampleMissing n) s = .next (settle s u) ∧ (u.axis n).sense.missFails = 0 ∧ bitAt (u.axis n).trip.src 21 = true ∧
      evSampleLost ∈ (u.axis n).trip.fwCauses)

/-- A counted edge of a MODE 1 interface, its level held for the filter, moves P by one in its direction; both inputs at once count as a
quadrature error. An index is the rising edge of Z forward and the falling one backward, where GATE qualifies it: an awaited one references the
interface at INDEX_POS; a later one inside the window clears the run of deviations and one outside adds to it (R238, R239, R249, R250, Table 9.2). -/
def Obligations.QuadratureEdgesAndIndexesMoveTheCount : Prop :=
  (∀ (s : State) (i : Fin 4) (a b half : Bool) (clocks : Nat) (d : Int), bitAt s.clk.lost 5 = false → posMode s i = 1 → posFilter s i + 1 ≤ clocks →
      quadStep (s.ifc i).levelA (s.ifc i).levelB a b = some d → d ≠ 0 →
    ∃ u, exec (.quadratureEdge i a b half clocks) s = .next (settle s u) ∧
      ((u.ifc i).count, (u.ifc i).turns) = splitP (cpr s i) (extP s i + if posInvert s i then -d else d) ∧
      (u.ifc i).lastDir = (if posInvert s i then -d else d) ∧ (u.ifc i).referenced = (s.ifc i).referenced ∧ (u.ifc i).time = s.clk.drive.toNat ∧
      (u.ifc i).levelA = a ∧ (u.ifc i).levelB = b ∧ ∀ k, k ≠ i → u.ifc k = s.ifc k) ∧
  (∀ (s : State) (i : Fin 4) (a b half : Bool) (clocks : Nat) (d : Int), bitAt s.clk.lost 5 = false → (posMode s i = 2 ∨ posMode s i = 4) →
      quadStep (s.ifc i).levelA (s.ifc i).levelB a b = some d → d ≠ 0 →
    ∃ u, exec (.quadratureEdge i a b half clocks) s = .next (settle s u) ∧ (u.ifc i).quad = (s.ifc i).quad + (if posInvert s i then -d else d) ∧
      (u.ifc i).count = (s.ifc i).count ∧ ∀ k, k ≠ i → u.ifc k = s.ifc k) ∧
  (∀ (s : State) (i : Fin 4) (a b half : Bool) (clocks : Nat), bitAt s.clk.lost 5 = false → (posMode s i = 1 ∨ posMode s i = 2 ∨ posMode s i = 4) →
      (posMode s i = 1 → posFilter s i + 1 ≤ clocks) → quadStep (s.ifc i).levelA (s.ifc i).levelB a b = none →
    ∃ u, exec (.quadratureEdge i a b half clocks) s = .next (settle s u) ∧ (u.ifc i).quadErr = satInc 16 (s.ifc i).quadErr ∧
      (u.ifc i).count = (s.ifc i).count ∧ (u.ifc i).turns = (s.ifc i).turns ∧
      (u.ifc i).frameErrs = (if posMode s i = 4 then (s.ifc i).frameErrs else min 255 ((s.ifc i).frameErrs + 1))) ∧
  (∀ (s : State) (i : Fin 4) (rising : Bool) (clocks : Nat), bitAt s.clk.lost 5 = false → posIndexEn s i = true → posMode s i = 1 →
      posFilter s i + 1 ≤ clocks → gatePasses s i = true → (s.ifc i).lastDir = (if rising then 1 else -1) → (s.ifc i).awaitIndex = true →
    ∃ u, exec (.index i rising clocks) s = .next (settle s u) ∧ (u.ifc i).referenced = true ∧ (u.ifc i).mechRef = true ∧ (u.ifc i).awaitIndex = false ∧
      (u.ifc i).count = posU s i 8 4 % cpr s i ∧ (u.ifc i).turns = (s.ifc i).turns ∧ (u.ifc i).compareDisarmed = true ∧
      ∀ k : Fin 3, (u.ifc i).compare[k.val].armed = false) ∧
  (∀ (s : State) (i : Fin 4) (rising : Bool) (clocks : Nat), bitAt s.clk.lost 5 = false → posIndexEn s i = true → posMode s i = 1 →
      posFilter s i + 1 ≤ clocks → gatePasses s i = true → (s.ifc i).lastDir = (if rising then 1 else -1) → (s.ifc i).awaitIndex = false →
      (indexDev (cpr s i) (s.ifc i).count (posU s i 8 4)).natAbs ≤ posU s i 12 1 →
    ∃ u, exec (.index i rising clocks) s = .next (settle s u) ∧ (u.ifc i).oow = 0 ∧ (u.ifc i).indexMissing = false ∧
      ((u.ifc i).count, (u.ifc i).turns) = splitP (cpr s i) (extP s i - indexDev (cpr s i) (s.ifc i).count (posU s i 8 4))) ∧
  (∀ (s : State) (i : Fin 4) (rising : Bool) (clocks : Nat), bitAt s.clk.lost 5 = false → posIndexEn s i = true → posMode s i = 1 →
      posFilter s i + 1 ≤ clocks → gatePasses s i = true → (s.ifc i).lastDir = (if rising then 1 else -1) → (s.ifc i).awaitIndex = false →
      ¬ (indexDev (cpr s i) (s.ifc i).count (posU s i 8 4)).natAbs ≤ posU s i 12 1 →
    ∃ u, exec (.index i rising clocks) s = .next (settle s u) ∧ (u.ifc i).oow = min 255 ((s.ifc i).oow + 1) ∧ (u.ifc i).count = (s.ifc i).count ∧
      (2 ≤ (s.ifc i).oow → (u.ifc i).st = .failed))

/-- A good serial frame, its bits clocked, sets the count and references its interface, a later one moving the count the short way; a frame
error is counted and leaves the count. The position context makes an estimate of a pair inside the amplitude window and counts a violation
outside it: in MODE 2 from the fine angle and the quadrants that agree with it, in MODE 4 from the samples of two opposite peaks. A snapshot
sends the record of the present position. A disagreement of the sources that has lasted makes the secondary ineligible (R242, R243, R245 to
R247, R257, R261). -/
def Obligations.AbsolutePositionsSnapshotsAndDisagreement : Prop :=
  (∀ (s : State) (i : Fin 4) (r : SerialReply), bitAt s.clk.lost 5 = false → posMode s i = 3 → (s.ifc i).frameBusy = true →
      (s.ifc i).frameAt + frameTicks s i ≤ s.clk.drive.toNat → serialBad s i r = false →
    ∃ u, exec (.serialFrame i r) s = .next (settle s u) ∧ (u.ifc i).referenced = true ∧ (u.ifc i).frameBusy = false ∧ (u.ifc i).frameErrs = 0 ∧
      (u.ifc i).time = (s.ifc i).frameAt ∧
      ((s.ifc i).good = none → (u.ifc i).count = serialPos s i r.word % cpr s i ∧ (u.ifc i).turns = (s.ifc i).turns) ∧
      ((s.ifc i).good ≠ none → ((u.ifc i).count, (u.ifc i).turns) =
        splitP (cpr s i) (extP s i + nearest (cpr s i) ((serialPos s i r.word : Int) - (s.ifc i).count)))) ∧
  (∀ (s : State) (i : Fin 4) (r : SerialReply), bitAt s.clk.lost 5 = false → posMode s i = 3 → (s.ifc i).frameBusy = true →
      (s.ifc i).frameAt + frameTicks s i ≤ s.clk.drive.toNat → serialBad s i r = true →
    ∃ u, exec (.serialFrame i r) s = .next (settle s u) ∧ (u.ifc i).serErr = satInc 8 (s.ifc i).serErr ∧ (u.ifc i).count = (s.ifc i).count ∧
      (u.ifc i).frameBusy = false ∧ (u.ifc i).frameErrs = min 255 ((s.ifc i).frameErrs + 1)) ∧
  (∀ (s : State) (i : Fin 4) (sv cv meas : Q) (phi q off : Int), ctxRuns s 6 i.val 0 = true → bitAt s.clk.lost 5 = false → posMode s i = 2 →
      sv = replica s (posU s i 84 1) (posU s i 86 1) → cv = replica s (posU s i 85 1) (posU s i 86 1) →
      meas = (if posInvert s i then -(atan2T sv cv) else atan2T sv cv) → phi = (wrapTurn meas * 4096).floor → q = (s.ifc i).quadAt →
      off = (q - phi / 1024) % 4 →
    ∃ u, exec (.positionContextDispatch i) s = .next (settle s u) ∧
      (amplitudeOk s i (sv * sv + cv * cv) = true → off ≠ 2 →
        (u.ifc i).trkOn = true ∧ (u.ifc i).viol = 0 ∧ (u.ifc i).time = slotTime s (posU s i 84 1) (posU s i 86 1) ∧
        ((u.ifc i).count, (u.ifc i).turns) = splitP (cpr s i) ((if off = 1 then q - 1 else if off = 3 then q + 1 else q) / 4 * 4096 + phi)) ∧
      ((amplitudeOk s i (sv * sv + cv * cv) = false ∨ off = 2) →
        (u.ifc i).viol = min 255 ((s.ifc i).viol + 1) ∧ (u.ifc i).count = (s.ifc i).count ∧ (u.ifc i).trkAngle = (s.ifc i).trkAngle)) ∧
  (∀ (s : State) (i : Fin 4), ctxRuns s 6 i.val 0 = true → bitAt s.clk.lost 5 = false → posMode s i = 4 → (s.ifc i).prevPos = none →
    ∃ u, exec (.positionContextDispatch i) s = .next (settle s u) ∧ (u.ifc i).prevPos.isSome = true ∧ (u.ifc i).count = (s.ifc i).count ∧
      (u.ifc i).viol = (s.ifc i).viol) ∧
  (∀ (s : State) (i : Fin 4) (positive : Bool) (slot : Nat) (sd cd : Q), ctxRuns s 6 i.val 0 = true → bitAt s.clk.lost 5 = false → posMode s i = 4 →
      positive = decide (slotTime s (posU s i 84 1) (posU s i 87 1) ≤ slotTime s (posU s i 84 1) (posU s i 86 1)) →
      (s.ifc i).prevPos = some (!positive) → slot = (if positive then posU s i 86 1 else posU s i 87 1) →
      sd = (if positive then 1 else -1) * (replica s (posU s i 84 1) slot - (s.ifc i).prevS) / 2 →
      cd = (if positive then 1 else -1) * (replica s (posU s i 85 1) slot - (s.ifc i).prevC) / 2 →
    ∃ u, exec (.positionContextDispatch i) s = .next (settle s u) ∧ (u.ifc i).prevPos = some positive ∧
      (amplitudeOk s i (sd * sd + cd * cd) = true → (u.ifc i).trkOn = true ∧ (u.ifc i).viol = 0 ∧ (u.ifc i).referenced = true ∧
        (u.ifc i).ampSq = sd * sd + cd * cd) ∧
      (amplitudeOk s i (sd * sd + cd * cd) = false → (u.ifc i).viol = min 255 ((s.ifc i).viol + 1) ∧ (u.ifc i).count = (s.ifc i).count)) ∧
  (∀ (s : State) (i : Fin 4), bitAt s.clk.lost 2 = false → bitAt s.clk.lost 5 = false → posMode s i ≠ 0 →
    ∃ u r, exec (.positionSnapshot i) s = .next (settle s u) ∧ (u.ifc i).snap = some r ∧
      (r.count, r.turns) = splitP (cpr s i) (reportedP s i) ∧ r.elec = elecOf s i r.count ∧ r.mode = posMode s i ∧
      r.referenced = (s.ifc i).referenced ∧ r.snapped = (s.ifc i).snapped ∧ r.stale = snapStale s i ∧
      (posMode s i = 1 → r.time = s.clk.drive.toNat % 2 ^ 32 ∧ r.speed = f32Round (edgeSpeed s i)) ∧ (u.ifc i).snapped = false ∧ (u.ifc i).fresh = true) ∧
  (∀ (s : State) (n i : Fin 4) (since : Nat), ifcOf s n 0 = some i → (s.axis n).ctl.disSince = some since → (s.axis n).ctl.secBad = false →
      since + ticksOf (posF s i 80) ≤ s.clk.now →
    ∃ u, exec (.sourceDisagree n) s = .next (settle s u) ∧ (u.axis n).ctl.secBad = true ∧ (u.axis n).trip = (s.axis n).trip ∧
      (u.axis n).core = (s.axis n).core)

/-- A tracking dispatch ends its interval: the sums restart and the operating time grows by 1 ms unless the axis is OFF. A monitor run below
DETECT_MIN counts down to standstill and one at or above it clears that count; eight runs in a row decide, from voltages as under ASC (R229, R230, R271, R536). -/
def Obligations.TrackingAndMonitorRunsKeepTheirEstimates : Prop :=
  (∀ (s : State) (n : Fin 4), ctxRuns s 5 n.val 0 = true → axEnabled s n = true →
    ∃ u, exec (.trackingRun n) s = .next (settle s u) ∧ (u.axis n).ctl.n = 0 ∧ (u.axis n).ctl.sumId = 0 ∧ (u.axis n).ctl.sumIq = 0 ∧
      (u.axis n).ctl.sumUd = 0 ∧ (u.axis n).ctl.sumUq = 0 ∧ (u.axis n).ctl.sumW = 0 ∧ (u.axis n).ctl.okRs = true ∧ (u.axis n).ctl.okKe = true ∧
      u.log.counters[n].seconds * 100000000 + u.log.counters[n].secondsRest = s.log.counters[n].seconds * 100000000 + s.log.counters[n].secondsRest +
        (if (s.axis n).core.st = .off then 0 else 100000) ∧
      (u.axis n).core = (s.axis n).core ∧ (u.axis n).trip = (s.axis n).trip ∧ (u.axis n).pwm = (s.axis n).pwm ∧ ∀ m, m ≠ n → u.axis m = s.axis m) ∧
  (∀ (s : State) (n : Fin 4), ctxRuns s 4 n.val 0 = true → bitAt s.clk.lost 3 = false → hasMonitor s n = true → 13 ≤ s.boot.phase →
      s.clk.drive.toNat % 10000 = 0 → ascApplied s n = false →
    ∃ u, exec (.monitorRun n) s = .next (settle s u) ∧ (u.axis n).mon.lastRun = s.clk.drive.toNat ∧
      (u.axis n).mon.lastVector = (lookVolts (linesOf s n)).vec ∧
      (if detectMin s n ≤ (lookVolts (linesOf s n)).eLine then
        (u.axis n).mon.below = 0 ∧ (u.axis n).mon.rotating = ((s.axis n).mon.rotating || decide ((u.axis n).mon.above = 8))
       else (u.axis n).mon.above = 0 ∧ (u.axis n).mon.below = min 8 ((s.axis n).mon.below + 1) ∧
        (u.axis n).mon.rotating = ((s.axis n).mon.rotating && decide ((s.axis n).mon.below < 7)))) ∧
  (∀ (s : State) (n : Fin 4), ctxRuns s 4 n.val 0 = true → bitAt s.clk.lost 3 = false → hasMonitor s n = true → 13 ≤ s.boot.phase →
      s.clk.drive.toNat % 10000 = 0 → ascApplied s n = true →
    ∃ u, exec (.monitorRun n) s = .next (settle s u) ∧ (u.axis n).mon.lastRun = s.clk.drive.toNat ∧ (u.axis n).mon.clipped = false ∧
      (u.axis n).mon.lastVector = (lookAmps (s.axis n).sense.iU (s.axis n).sense.iV).vec ∧ 
      (u.axis n).mon.eLine = Config.sqrt3 * psiRef s n *
        qabs (vectorStep s n (lookAmps (s.axis n).sense.iU (s.axis n).sense.iV).vec true * twoPi / monDt s n) ∧
      (if detectMin s n ≤ (u.axis n).mon.eLine then
        (u.axis n).mon.below = 0 ∧ (u.axis n).mon.rotating = ((s.axis n).mon.rotating || decide ((u.axis n).mon.above = 8))
       else (u.axis n).mon.above = 0 ∧ (u.axis n).mon.below = min 8 ((s.axis n).mon.below + 1) ∧
        (u.axis n).mon.rotating = ((s.axis n).mon.rotating && decide ((s.axis n).mon.below < 7))) ∧
      ((u.axis n).mon.rotating = false → (u.axis n).mon.speed = 0))

/-- An unlocked observer counts its dispatches in lock and is VALID at LOCK_N; one in use that loses the rotor three times in a row sets torque
to zero and recaptures; a failed recapture is a latched trip (R281, R283, R284). -/
def Obligations.ObserverLocksLosesAndFails : Prop :=
  (∀ (s : State) (n : Fin 4), ctxRuns s 3 n.val 0 = true → axEnabled s n = true → obsEn s n = true → regulates s n = true →
      (s.axis n).obs.st = .unlocked → (s.axis n).obs.inUse = false →
    ∃ u, exec (.observerDispatch n) s = .next (settle s u) ∧
      (u.axis n).obs.lockRun = (if lockOk (s.setObs n fun _ => (obsUpdate s n).1) n (obsUpdate s n).1 (obsUpdate s n).2
        then min 64 ((s.axis n).obs.lockRun + 1) else 0) ∧
      (u.axis n).obs.st = (if lockN s n ≤ (u.axis n).obs.lockRun then .valid else .unlocked) ∧
      (u.axis n).obs.th = (obsUpdate s n).1.th ∧ (u.axis n).obs.w = (obsUpdate s n).1.w) ∧
  (∀ (s : State) (n : Fin 4), ctxRuns s 3 n.val 0 = true → axEnabled s n = true → obsEn s n = true → regulates s n = true →
      (s.axis n).obs.st = .valid → (s.axis n).obs.inUse = true → 2 ≤ (s.axis n).obs.lossRun →
    ∃ u, exec (.observerDispatch n) s = .next (settle s u) ∧
      (slF s n 24 (7 / 20) < qabs (obsUpdate s n).1.err → (u.axis n).obs.st = .recapturing ∧ (u.axis n).obs.lostAt = s.clk.now ∧
        (u.axis n).obs.wH = (obsUpdate s n).1.w ∧ (u.axis n).ctl.tqZero = true ∧ (u.axis n).ctl.fwHold = true ∧
        (u.axis n).obs.losses = satInc 16 (s.axis n).obs.losses)) ∧
  (∀ (s : State) (n : Fin 4), axPresent s n = true → bitAt s.clk.lost 1 = false → (s.axis n).obs.st = .recapturing →
      (s.axis n).obs.lostAt + ticksOf (slF s n 36 (1 / 50)) ≤ s.clk.now →
    ∃ u, exec (.observerRecaptureFailed n) s = .next (settle s u) ∧ (u.axis n).obs.st = .failed ∧ (u.axis n).ctl.tqZero = false ∧
      bitAt (u.axis n).trip.src 21 = true ∧ evObserverRecaptureFailed ∈ (u.axis n).trip.fwCauses)

/-- A catch without a source of angle is refused, once 0.9 ms have not settled whether the axis rotates too; with the monitor rotating above CATCH_FLOOR it takes its speed, waits for the direction where
the command is against it, refuses an overspeed, and otherwise enables the gates on the back-EMF with zero torque; an axis at standstill without a sensor is identified
by injection (R286 to R291, R294). -/
def Obligations.CatchStepsRefuseWaitOrSynchronise : Prop :=
  (∀ (s : State) (n : Fin 4), bitAt s.clk.lost 1 = false → (s.axis n).core.st = .catching → (s.axis n).catch_.step < 6 →
      (s.axis n).catch_.identify = false → hasMonitor s n = true → (s.axis n).mon.above < 8 → (s.axis n).mon.below < 8 →
      s.clk.now < (s.axis n).catch_.foundAt + 90000 →
    exec (.catchStep n) s = .next (settle s s)) ∧
  (∀ (s : State) (n : Fin 4), bitAt s.clk.lost 1 = false → (s.axis n).core.st = .catching → (s.axis n).catch_.step < 6 →
      (s.axis n).catch_.identify = false → hasMonitor s n = true → (s.axis n).mon.above < 8 → (s.axis n).mon.below < 8 →
      (s.axis n).catch_.foundAt + 90000 ≤ s.clk.now → anySensor s n = none →
    ∃ u, exec (.catchStep n) s = .next (settle s u) ∧ (u.axis n).core.st = .off ∧ (u.axis n).catch_.refusal = evCatchNoAngle) ∧
  (∀ (s : State) (n : Fin 4), bitAt s.clk.lost 1 = false → (s.axis n).core.st = .catching → (s.axis n).catch_.step < 6 →
      (s.axis n).catch_.identify = false → hasMonitor s n = false → anySensor s n = none →
    ∃ u, exec (.catchStep n) s = .next (settle s u) ∧ (u.axis n).core.st = .off ∧ (u.axis n).catch_.refusal = evCatchNoAngle ∧
      (u.axis n).catch_.refusals = satInc 16 (s.axis n).catch_.refusals ∧ (u.axis n).trip = (s.axis n).trip) ∧
  (∀ (s : State) (n : Fin 4), bitAt s.clk.lost 1 = false → (s.axis n).core.st = .catching → (s.axis n).catch_.step < 6 →
      (s.axis n).catch_.identify = false → hasMonitor s n = true → 8 ≤ (s.axis n).mon.above → catchFloor s n ≤ qabs (s.axis n).mon.speed →
      19 / 20 * udcOf s n < (s.axis n).mon.eLine → slFlag s n 3 = false →
    ∃ u, exec (.catchStep n) s = .next (settle s u) ∧ (u.axis n).core.st = .off ∧ (u.axis n).catch_.refusal = evCatchOverspeed ∧
      (u.axis n).trip = (s.axis n).trip) ∧
  (∀ (s : State) (n : Fin 4), bitAt s.clk.lost 1 = false → (s.axis n).core.st = .catching → (s.axis n).catch_.step < 6 →
      (s.axis n).catch_.identify = false → hasMonitor s n = true → 8 ≤ (s.axis n).mon.above → catchFloor s n ≤ qabs (s.axis n).mon.speed →
      ¬ 19 / 20 * udcOf s n < (s.axis n).mon.eLine → conflict s n = none → againstCommand s n (s.axis n).mon.speed = true → slFlag s n 2 = false →
    ∃ u, exec (.catchStep n) s = .next (settle s u) ∧ (u.axis n).core.st = .catching ∧ (u.axis n).catch_.step = 5 ∧
      (u.axis n).catch_.waiting = true ∧ (u.axis n).catch_.speed = (s.axis n).mon.speed ∧ (u.axis n).catch_.angle = monNow s n) ∧
  (∀ (s : State) (n : Fin 4), bitAt s.clk.lost 1 = false → (s.axis n).core.st = .catching → (s.axis n).catch_.step < 6 →
      (s.axis n).catch_.identify = false → hasMonitor s n = true → 8 ≤ (s.axis n).mon.above → catchFloor s n ≤ qabs (s.axis n).mon.speed →
      ¬ 19 / 20 * udcOf s n < (s.axis n).mon.eLine → conflict s n = none →
      (againstCommand s n (s.axis n).mon.speed = false ∨ slFlag s n 2 = true) → catchSource s n ≠ 0 → boundedNow s n = true →
    ∃ u, exec (.catchStep n) s = .next (settle s u) ∧ (u.axis n).core.st = .catching ∧ (u.axis n).catch_.step = 7 ∧
      (u.axis n).catch_.waiting = false ∧ (u.axis n).catch_.syncAt = s.clk.now ∧ (u.axis n).ctl.src = catchSource s n ∧
      (u.axis n).ctl.theta = monNow s n ∧ (u.axis n).ctl.w = (s.axis n).mon.speed ∧ (u.axis n).ctl.tqZero = true ∧
      (u.axis n).ctl.preset = some (0, qsign (s.axis n).mon.speed * (s.axis n).mon.eLine / Config.sqrt3)) ∧
  (∀ (s : State) (n : Fin 4), bitAt s.clk.lost 1 = false → (s.axis n).core.st = .catching → (s.axis n).catch_.step < 6 →
      (s.axis n).catch_.identify = false → hasMonitor s n = true → (s.axis n).mon.above < 8 → 8 ≤ (s.axis n).mon.below → anySensor s n = none →
      hfEn s n = true → boundedNow s n = true →
    ∃ u, exec (.catchStep n) s = .next (settle s u) ∧ (u.axis n).core = (s.axis n).core ∧ (u.axis n).catch_.identify = true ∧
      (u.axis n).catch_.syncAt = s.clk.now ∧ (u.axis n).obs.inUse = true ∧ (u.axis n).obs.hfActive = true ∧ (u.axis n).ctl.tqZero = true)

/-- Identification takes the polarity of the larger peak, or is refused where neither is larger by 3 %; step 7 ends in the run state of the
command, or in OFF where the observer did not lock; CATCH_TIMEOUT ends a wait; a start is answered 5 ms after its acceptance (R288, R290,
R292, R294). -/
def Obligations.CatchesIdentifyEndAndAreAnswered : Prop :=
  (∀ (s : State) (n : Fin 4) (iPos iNeg : Q), bitAt s.clk.lost 1 = false → (s.axis n).core.st = .catching → (s.axis n).catch_.identify = true →
      (s.axis n).catch_.syncAt + 100000 + ticksOf (8 * tuOf s n) ≤ s.clk.now →
      (103 / 100 * qabs iNeg ≤ qabs iPos ∨ 103 / 100 * qabs iPos ≤ qabs iNeg) →
    ∃ u, exec (.standstillIdentification n iPos iNeg) s = .next (settle s u) ∧ (u.axis n).catch_.identify = false ∧
      (u.axis n).catch_.standstill = true ∧ (u.axis n).catch_.speed = 0 ∧
      (u.axis n).catch_.angle = wrapTurn ((s.axis n).obs.th + if 103 / 100 * qabs iNeg ≤ qabs iPos then 0 else 1 / 2)) ∧
  (∀ (s : State) (n : Fin 4) (iPos iNeg : Q), bitAt s.clk.lost 1 = false → (s.axis n).core.st = .catching → (s.axis n).catch_.identify = true →
      (s.axis n).catch_.syncAt + 100000 + ticksOf (8 * tuOf s n) ≤ s.clk.now →
      ¬ 103 / 100 * qabs iNeg ≤ qabs iPos → ¬ 103 / 100 * qabs iPos ≤ qabs iNeg →
    ∃ u, exec (.standstillIdentification n iPos iNeg) s = .next (settle s u) ∧ (u.axis n).core.st = .off ∧
      (u.axis n).catch_.refusal = evCatchNoAngle) ∧
  (∀ (s : State) (n : Fin 4), bitAt s.clk.lost 1 = false → (s.axis n).core.st = .catching → (s.axis n).catch_.step = 7 →
      (s.axis n).catch_.syncAt + settleTicks s n ≤ s.clk.now → ((s.axis n).ctl.src = 3 → (s.axis n).obs.st = .valid) →
      (s.axis n).ctl.fwExhausted = false →
    ∃ u, exec (.settleAndRelease n) s = .next (settle s u) ∧ (u.axis n).core.st = (s.axis n).core.target ∧ (u.axis n).catch_.step = 0 ∧
      (u.axis n).ctl.tqZero = false ∧ (u.axis n).catch_.catches = satInc 16 (s.axis n).catch_.catches) ∧
  (∀ (s : State) (n : Fin 4), bitAt s.clk.lost 1 = false → (s.axis n).core.st = .catching → (s.axis n).catch_.step = 7 →
      (s.axis n).catch_.syncAt + settleTicks s n ≤ s.clk.now →
      (((s.axis n).ctl.src = 3 ∧ (s.axis n).obs.st ≠ .valid) ∨ (s.axis n).ctl.fwExhausted = true) →
    ∃ u, exec (.settleAndRelease n) s = .next (settle s u) ∧ (u.axis n).core.st = .off ∧ (u.axis n).catch_.refusal = evCatchNoAngle) ∧
  (∀ (s : State) (n : Fin 4), (s.axis n).core.st = .catching → (s.axis n).catch_.waiting = true →
      (s.axis n).catch_.startedAt + ticksOf (slF s n 48 30) ≤ s.clk.now →
    ∃ u, exec (.catchTimeout n) s = .next (settle s u) ∧ (u.axis n).core.st = .off ∧ (u.axis n).catch_.refusal = evCatchTimeout) ∧
  (∀ (s : State) (n : Fin 4) (slot : Nat) (j : Job), (s.axis n).catch_.answerSlot = some slot → (s.axis n).core.st = .catching → hostServed s = true →
      (s.axis n).catch_.startedAt + 500000 ≤ s.clk.now → runningJob s slot = some j →
    exec (.axisStartResponse n) s = .next (settle s (respond (s.setCatch n fun c => { c with answerSlot := none }) j 0 (startPayload s n))))

/-- Without a speed estimate SAFEPAT is written again as it stood and the fact is kept; with one the rule selects ASC or FREEWHEEL with
hysteresis, writes the pattern, and keeps the values it used. STOP_TIME, the envelope of SS1, standstill and the brake times end a stop: in OFF,
with the brake engaging, or in a latched trip with source STOP_DEADLINE (R402, R403, R409, R410, R413, R414). -/
def Obligations.SafeStateRuleAndTheEndsOfStops : Prop :=
  (∀ (s : State) (n : Fin 4), ctxRuns s 2 n.val 0 = true → bitAt s.clk.lost 2 = false → axEnabled s n = true → 13 ≤ s.boot.phase →
    ∃ u, exec (.safeStateRun n) s = .next (settle s u) ∧
      (eEst s n = none → (u.axis n).saf.speedUnknown = true ∧ (u.axis n).pwm.safepat = (s.axis n).pwm.safepat % 4 ∧
        (u.axis n).saf.selection = (s.axis n).saf.selection ∧ (u.axis n).trip = (s.axis n).trip) ∧
      (∀ e, eEst s n = some e → (u.axis n).saf.speedUnknown = false ∧ (u.axis n).saf.eEst = e ∧ (u.axis n).saf.uTh = uTh s n ∧
        (u.axis n).saf.ownAsc = selectAsc (s.axis n).saf.ownAsc e (uTh s n) ∧
        (u.axis n).saf.selection = (if (u.axis n).saf.ownAsc || groupAsc s n then ascSide (s.axis n) else .freewheel) ∧
        (u.axis n).pwm.safepat = subCode (u.axis n).saf.selection)) ∧
  (∀ (s : State) (n : Fin 4), pairAWorks s = true → (s.axis n).core.st = .stopping → (s.axis n).saf.brakeEngaging = false →
      (if (s.axis n).saf.stopSs1 = true ∧ safetyU s n 0 1 = 0 then stopSpeedNow s n else qabs (speedOf s n)) < safetyF s n 16 →
    ∃ u, exec (.ss1EnvelopeCheck n) s = .next (settle s u) ∧ (u.axis n).saf.brakeOut = false ∧ (u.axis n).trip = (s.axis n).trip ∧
      (if safetyU s n 2 1 = 0xFF then (u.axis n).core.st = .off
       else (u.axis n).core.st = .stopping ∧ (u.axis n).saf.brakeEngaging = true ∧ (u.axis n).saf.brakeAt = s.clk.now)) ∧
  (∀ (s : State) (n : Fin 4), pairAWorks s = true → axPresent s n = true → (s.axis n).core.st = .stopping → (s.axis n).saf.brakeEngaging = false →
      (s.axis n).saf.stopSs1 = true → safetyU s n 0 1 = 0 → ¬ stopSpeedNow s n < safetyF s n 16 →
    ∃ u, exec (.ss1EnvelopeCheck n) s = .next (settle s u) ∧
      (if envelope s n < stopSpeedNow s n then (u.axis n).saf.envelopeFails = (s.axis n).saf.envelopeFails + 1 ∧
        (2 ≤ (s.axis n).saf.envelopeFails → bitAt (u.axis n).trip.src bitStopDeadline = true ∧ (u.axis n).core.st = .axisSafe)
       else (u.axis n).saf.envelopeFails = 0 ∧ (u.axis n).trip = (s.axis n).trip ∧ (u.axis n).core = (s.axis n).core)) ∧
  (∀ (s : State) (n : Fin 4), pairAWorks s = true → (s.axis n).core.st = .stopping → (s.axis n).saf.brakeEngaging = false →
      (s.axis n).saf.stopDeadline ≤ s.clk.now → safetyU s n 0 1 = 1 → (s.axis n).saf.selection = .freewheel →
    ∃ u, exec (.stopDeadlineMissed n) s = .next (settle s u) ∧ (u.axis n).core.st = .off ∧ (u.axis n).trip = (s.axis n).trip) ∧
  (∀ (s : State) (n : Fin 4), pairAWorks s = true → axPresent s n = true → (s.axis n).core.st = .stopping → (s.axis n).saf.brakeEngaging = false →
      (s.axis n).saf.stopDeadline ≤ s.clk.now → (safetyU s n 0 1 ≠ 1 ∨ (s.axis n).saf.selection ≠ .freewheel) →
    ∃ u, exec (.stopDeadlineMissed n) s = .next (settle s u) ∧ (u.axis n).core.st = .axisSafe ∧
      (u.axis n).core.sub = appliedPattern (s.axis n) ∧ bitAt (u.axis n).trip.src bitStopDeadline = true) ∧
  (∀ (s : State) (n : Fin 4), pairAWorks s = true → slsActive s n = true →
      ((s.axis n).core.st = .runTorque ∨ (s.axis n).core.st = .runSpeed ∨ (s.axis n).core.st = .runPosition) →
      ((s.axis n).obs.inUse = false ∨ (s.axis n).obs.st ≠ .recapturing) →
      ((∃ t, (s.axis n).saf.slsOver = some t ∧ t + 1000000 ≤ s.clk.now) ∨
        ((s.axis n).saf.slsBraking = true ∧ (s.axis n).saf.slsBy ≤ s.clk.now ∧ safetyF s n 20 < qabs (speedOf s n))) →
    ∃ u, exec (.slsExceeded n) s = .next (settle s u) ∧ (u.axis n).core.ss1Asked = true ∧ (u.axis n).saf.slsOver = none ∧
      (u.axis n).trip = (s.axis n).trip) ∧
  (∀ (s : State) (n : Fin 4), pairAWorks s = true → (s.axis n).saf.brakeHolding = true →
      (s.axis n).saf.brakeAt + ticksOf (safetyF s n 48) ≤ s.clk.now →
    ∃ u, exec (.brakeReleaseTime n) s = .next (settle s u) ∧ u = s.setAxis n fun a => { a with saf := { a.saf with brakeHolding := false } }) ∧
  (∀ (s : State) (n : Fin 4), pairAWorks s = true → (s.axis n).core.st = .stopping → (s.axis n).saf.brakeEngaging = true →
      (s.axis n).saf.brakeAt + ticksOf (safetyF s n 52) ≤ s.clk.now →
    ∃ u, exec (.brakeEngageTime n) s = .next (settle s u) ∧ (u.axis n).core.st = .off ∧ (u.axis n).saf.brakeEngaging = false ∧
      (u.axis n).trip = (s.axis n).trip)

/-- At the end of an interval the Backstay forgets its pairs; before the first accepted frame nothing violates, by the model's
choice (log entry 33); a violation of an axis that it does not hold that outlasts the debounce removes
the gate enable and sets a latched trip; 20 µs later the gate enable is released unless locked. A forbidden pattern locks it. A frame that
passes the checks governs every axis, another one is counted and changes no window; a lost feed takes the device to SAFE (R417, R419 to
R424). -/
def Obligations.BackstayEvaluatesTripsAndTakesFrames : Prop :=
  (∀ s : State, backRuns s = true →
    ∃ u, exec .backstayEvaluation s = .next (settle s u) ∧ ∀ n, axPresent s n = true → (u.axis n).bs.pairs = [] ∧
      (s.back.armed = false → (u.axis n).bs.violating = 0 ∧ (u.axis n).bs.debounce = 0 ∧ (u.axis n).bs.geRemoved = (s.axis n).bs.geRemoved) ∧
      (s.back.armed = true → (u.axis n).bs.violating = (bsLook s n).bad) ∧
      (s.back.armed = true → (bsLook s n).bad = 0 → (u.axis n).bs.debounce = 0 ∧ (u.axis n).bs.geRemoved = (s.axis n).bs.geRemoved) ∧
      (bsHolds s n = true → (u.axis n).bs.geRemoved = (s.axis n).bs.geRemoved) ∧
      (s.back.armed = true → bsHolds s n = false → (bsLook s n).bad ≠ 0 → bsU s secSafety 0 1 1 ≤ (s.axis n).bs.debounce + 1 →
        (u.axis n).bs.geRemoved = true ∧ (u.axis n).bs.held = true ∧ (u.axis n).bs.releaseDue = true ∧
        (u.axis n).bs.violations = satInc 16 (s.axis n).bs.violations ∧ bitAt (u.axis n).trip.src bitBackstay = true)) ∧
  (∀ (s : State) (n : Fin 4), backRuns s = true → (s.axis n).bs.releaseDue = true → (s.axis n).bs.patternLock = false →
      (s.axis n).bs.removedAt + 2000 ≤ s.clk.now →
    ∃ u, exec (.backstayGateRelease n) s = .next (settle s u) ∧
      u = s.setAxis n fun a => { a with bs := { a.bs with geRemoved := false, releaseDue := false, safeSince := some s.clk.now, pattern := none, changedAt := none } }) ∧
  (∀ (s : State) (n : Fin 4) (balls t : Nat), backRuns s = true → axPresent s n = true → ((s.axis n).bs.held = true ∨ (s.axis n).bs.mode = 2) →
      (s.axis n).bs.patternLock = false → (s.axis n).bs.safeSince = some t → t + 10000 ≤ s.clk.now →
      (mixedBalls balls = true ∨ ∃ p c, (s.axis n).bs.pattern = some p ∧ p ≠ balls ∧ (s.axis n).bs.changedAt = some c ∧ s.clk.now < c + 1000000) →
    ∃ u, exec (.backstayPattern n balls) s = .next (settle s u) ∧ (u.axis n).bs.geRemoved = true ∧ (u.axis n).bs.patternLock = true ∧
      (u.axis n).bs.held = true ∧ bitAt (u.axis n).trip.src bitBackstay = true) ∧
  (∀ (s : State) (n : Fin 4) (balls : Nat), backRuns s = true → axPresent s n = true → ((s.axis n).bs.held = true ∨ (s.axis n).bs.mode = 2) →
      (s.axis n).bs.patternLock = false → mixedBalls balls = false → (s.axis n).bs.changedAt = none →
    ∃ u, exec (.backstayPattern n balls) s = .next (settle s u) ∧ (u.axis n).bs.pattern = some balls ∧ (u.axis n).bs.geRemoved = (s.axis n).bs.geRemoved ∧
      (u.axis n).bs.patternLock = false ∧ (u.axis n).trip = (s.axis n).trip) ∧
  (∀ (s t : State) (bytes f : List Byte), backRuns s = true → bitAt s.clk.lost 0 = false → bitAt s.clk.lost 1 = false → s.lock.pairAFailed = false →
      14 ≤ s.boot.phase → (bytes = [] → s.lock.pairs[0].halted = false) → t = tackReached (if s.back.copy = s.cfg.active then s else bsCopy s) [4] →
      f = (if bytes = [] then pairAFrame t else bytes) → frameOk t f = true →
    ∃ u, exec (.windowFrame bytes) s = .next (settle s u) ∧ u.back.armed = true ∧ u.back.feedDown = false ∧ u.back.lastAccepted = s.clk.now ∧
      u.back.accepted = (t.back.accepted + 1) % 65536 ∧ u.back.seq = fieldU f 0 2 ∧ u.back.copy = s.cfg.active ∧
      ∀ n, (u.axis n).bs.mode = (windowEntry f n).mode ∧ (u.axis n).bs.tLo = (windowEntry f n).tLo ∧ (u.axis n).bs.tHi = (windowEntry f n).tHi ∧
        (u.axis n).bs.iWin = (windowEntry f n).iWin ∧ (u.axis n).bs.wMax = (windowEntry f n).wMax ∧ (u.axis n).bs.dir = (windowEntry f n).dir) ∧
  (∀ (s t : State) (bytes f : List Byte), backRuns s = true → bitAt s.clk.lost 0 = false → bitAt s.clk.lost 1 = false → s.lock.pairAFailed = false →
      14 ≤ s.boot.phase → (bytes = [] → s.lock.pairs[0].halted = false) → t = tackReached (if s.back.copy = s.cfg.active then s else bsCopy s) [4] →
      f = (if bytes = [] then pairAFrame t else bytes) → frameOk t f = false →
    ∃ u, exec (.windowFrame bytes) s = .next (settle s u) ∧ u.back = { t.back with rejected := satInc 16 t.back.rejected } ∧
      ∀ n, (u.axis n).bs = { (t.axis n).bs with goodFrames := 0 }) ∧
  (∀ s : State, backRuns s = true → s.back.armed = true → s.back.feedDown = false →
      s.back.lastAccepted + (if s.back.bench then 100000000 else 250000) ≤ s.clk.now → (s.mode = .idle ∨ s.mode = .run ∨ s.mode = .service) →
    ∃ u, exec .backstayFeedLost s = .next (settle s u) ∧ u.mode = .safe ∧ u.back.feedLost = true ∧ u.back.feedDown = true ∧
      ∀ n, axPresent s n = true → (u.axis n).core.st = .axisSafe ∧
        ((s.axis n).bs.held = false → (s.axis n).bs.patternLock = false → bitAt (u.axis n).trip.src bitBackstay = true ∧
          (u.axis n).bs.geRemoved = true ∧ (u.axis n).bs.violations = satInc 16 (s.axis n).bs.violations))

/-- A resistor discharge below 60 V ends with DISCH low and its duration kept; a winding discharge first ramps its current to 0 and then removes
the gates; at DISCH_DEADLINE the discharge has timed out and the windings freewheel (R427 to R429). -/
def Obligations.DischargesEndOrTimeOut : Prop :=
  (∀ s : State, dischBelow s (Fin.ofNat 4 s.disch.axis) = true → s.disch.ball = true →
    ∃ u, exec .dischargeDone s = .next (settle s u) ∧ u.disch.state = 2 ∧ u.disch.ball = false ∧
      u.disch.ms = (s.clk.now - s.disch.startedAt) / 100000 ∧ u.axes = s.axes) ∧
  (∀ s : State, dischBelow s (Fin.ofNat 4 s.disch.axis) = true → s.disch.ball = false → (s.axis (Fin.ofNat 4 s.disch.axis)).discharging = true →
    ∃ u, exec .dischargeDone s = .next (settle s u) ∧
      (if s.disch.ending = true ∧ (s.axis (Fin.ofNat 4 s.disch.axis)).ctl.idRef = 0 then
        u.disch.state = 2 ∧ (if s.mode = .safe then (u.axis (Fin.ofNat 4 s.disch.axis)).core.discharged = true
          else (u.axis (Fin.ofNat 4 s.disch.axis)).core.st = .off)
       else u = { s with disch := { s.disch with ending := true } })) ∧
  (∀ s : State, pairAWorks s = true → s.disch.state = 1 → s.disch.startedAt + ticksOf (cfgF s secSafety 0 16) ≤ s.clk.now → dischBelow s (Fin.ofNat 4 s.disch.axis) = false →
    ∃ u, exec .dischargeTimeout s = .next (settle s u) ∧ u.disch.state = 3 ∧ u.disch.ball = s.disch.ball ∧
      ((s.axis (Fin.ofNat 4 s.disch.axis)).discharging = true → (u.axis (Fin.ofNat 4 s.disch.axis)).core.st = .axisSafe ∧
        (u.axis (Fin.ofNat 4 s.disch.axis)).core.sub = .freewheel))

/-- A thermal step spends the energies of the two elements of its leg in their networks; an entry of the sensor chain that has stayed in range
for 1 s is used again; an evaluation takes the thresholds with their hysteresis, requests at least the level of its causes at once, lowers a
level only to one that is still held or requested, and stops an axis that is too hot (R353, R354, R356, R359, R360, R362, R364). -/
def Obligations.TemperaturesStepAndReefLevelsFollow : Prop :=
  (∀ (s : State) (n : Fin 4) (leg : Fin 3) (dt : Q), ctxRuns s 7 n.val (if thermalContexts s n = 3 then leg.val else 0) = true →
      axEnabled s n = true → cfgHas s secThermal n.val = true → (thermalContexts s n = 3 ∨ (s.axis n).th.turn = leg) →
      dt = (if thermalContexts s n = 3 then 1 / 10000 else 3 / 10000) →
    ∃ u, exec (.thermalStep n leg) s = .next (settle s u) ∧
      (u.axis n).th.rSw[(elemH leg).val] = fosterStep s n 128 (s.axis n).th.rSw[(elemH leg).val] ((s.axis n).th.eSw[(elemH leg).val] / dt) dt ∧
      (u.axis n).th.rD[(elemL leg).val] = fosterStep s n 160 (s.axis n).th.rD[(elemL leg).val] ((s.axis n).th.eD[(elemL leg).val] / dt) dt ∧
      (u.axis n).th.eSw[(elemH leg).val] = 0 ∧ (u.axis n).th.eSw[(elemL leg).val] = 0 ∧ (u.axis n).th.eD[(elemH leg).val] = 0 ∧
      (u.axis n).th.eD[(elemL leg).val] = 0 ∧
      (u.axis n).th.turn = (if thermalContexts s n = 3 then (s.axis n).th.turn else leg + 1) ∧ (u.axis n).th.reef = (s.axis n).th.reef ∧ (u.axis n).trip = (s.axis n).trip ∧
      ∀ k : Fin 6, k ≠ elemH leg → k ≠ elemL leg → (u.axis n).th.rSw[k.val] = (s.axis n).th.rSw[k.val] ∧ (u.axis n).th.rD[k.val] = (s.axis n).th.rD[k.val]) ∧
  (∀ (s : State) (n : Fin 4) (entry : Fin 3) (t0 : Nat), (s.axis n).th.inSince[entry.val] = some t0 → bitAt (s.axis n).th.ignored entry.val = true →
      t0 + 100000000 ≤ s.clk.now →
    ∃ u, exec (.sensorRestored n entry) s = .next (settle s u) ∧ (u.axis n).th.ignored = setBit (s.axis n).th.ignored entry.val false ∧
      (u.axis n).th.outRun[entry.val] = 0 ∧ (u.axis n).th.exhausted = (refEntry u n).isNone ∧ (u.axis n).core = (s.axis n).core) ∧
  (∀ (s : State) (n : Fin 4), pairAWorks s = true → axEnabled s n = true → cfgHas s secThermal n.val = true →
    ∃ u, exec (.reefEvaluation n) s = .next (settle s u) ∧
      (u.axis n).th.tjOn = thresholds s n (s.axis n).th.tjOn 4 (hottest s n) ∧ (u.axis n).th.twOn = thresholds s n (s.axis n).th.twOn 20 (tWind s n) ∧
      (u.axis n).th.tcOn = thresholds s n (s.axis n).th.tcOn 36 (tRefOf s n) ∧
      (reefRequest (reefCauses u n)).1 ≤ (u.axis n).th.reef ∧ (u.axis n).th.reef ≤ max (reefRequest (reefCauses u n)).1 (s.axis n).th.reef ∧
      (overAny s n 0 = true → (s.axis n).core.overtemp = false → (u.axis n).core.overtemp = true) ∧
      (coldest s n < thF s n 56 → (s.axis n).th.lowTemp = false → (u.axis n).th.lowTemp = true ∧ (u.axis n).th.boost = true) ∧
      (u.axis n).trip = (s.axis n).trip ∧ ∀ m, m ≠ n → u.axis m = s.axis m)

/-- A profile dispatch starts the mean speed again and supplies the torque of the axis state: the reference itself in RUN_TORQUE without
TQ_SHAPE, the shaped speed regulator in RUN_SPEED, 0 outside the run states. A following error above the limit is counted and stops the
axis. A move ends once its plan has and the error has stayed in the window (R219, R321 to R324, R327, R328, R330). -/
def Obligations.ProfilesSupplyTorqueAndEndMoves : Prop :=
  (∀ (s : State) (n : Fin 4), ctxRuns s 8 n.val 0 = true → axEnabled s n = true → cfgHas s secProfile n.val = true →
      profileDiv s n ≤ (s.axis n).prof.valleys →
    ∃ u, exec (.profileDispatch n) s = .next (settle s u) ∧ (u.axis n).prof.sumW = 0 ∧ (u.axis n).prof.nW = 0 ∧
      (u.axis n).prof.valleys = (s.axis n).prof.valleys - profileDiv s n ∧
      (u.axis n).prof.wm = (if (s.axis n).prof.nW = 0 then speedOf s n else (s.axis n).prof.sumW / ((s.axis n).prof.nW : Q)) ∧
      (u.axis n).trip = (s.axis n).trip ∧ (u.axis n).core.st = (s.axis n).core.st ∧
      ((s.axis n).core.st = .runTorque → (tqShape s n = false ∨ (s.axis n).ctl.tqZero = true) → (u.axis n).prof.torque = (s.axis n).ctl.tRef) ∧
      ((s.axis n).core.st = .runTorque → tqShape s n = true → (s.axis n).ctl.tqZero = false →
        ((u.axis n).prof.tq, (u.axis n).prof.tqRate) = follower (s.axis n).prof.tq (s.axis n).prof.tqRate (rawTorque s n) (profF s n 20) (profF s n 24) (tpOf s n) ∧
        (u.axis n).prof.torque = (u.axis n).prof.tq) ∧
      ((s.axis n).core.st = .runSpeed → ∃ lim, ((u.axis n).prof.wRef, (u.axis n).prof.aRef) =
          follower (s.axis n).prof.wRef (s.axis n).prof.aRef (qlimit (wEff s n) (s.axis n).core.ref) lim (profF s n 16) (tpOf s n) ∧
        (lim = profF s n 12 ∨ lim = (if (s.axis n).core.ramp = 0 then profF s n 8 else (s.axis n).core.ramp))) ∧
      ((s.axis n).core.st = .runPosition → (u.axis n).prof.followErrors =
        if profF s n 52 < qabs (u.axis n).prof.pErr then satInc 16 (s.axis n).prof.followErrors else (s.axis n).prof.followErrors) ∧
      ((s.axis n).core.st = .runPosition → profF s n 52 < qabs (u.axis n).prof.pErr → ((s.axis n).obs.inUse = false ∨ (s.axis n).obs.st ≠ .recapturing) →
        (u.axis n).core.ss1Asked = true) ∧
      ((s.axis n).core.st = .off → (u.axis n).prof.torque = 0 ∧ (u.axis n).prof.aRef = 0)) ∧
  (∀ (s : State) (n : Fin 4) (t0 : Nat), (s.axis n).prof.settleSince = some t0 → (s.axis n).prof.moving = true → (s.axis n).prof.segs = [] →
      (s.axis n).prof.replan = false → (s.axis n).core.st = .runPosition → t0 + ticksOf (profF s n 48) ≤ s.clk.now →
    ∃ u, exec (.moveDone n) s = .next (settle s u) ∧ (u.axis n).prof = { (s.axis n).prof with moving := false, moves := satInc 16 (s.axis n).prof.moves } ∧
      (u.axis n).core = (s.axis n).core ∧ ∀ m, m ≠ n → u.axis m = s.axis m)

/-- An edge of a reference switch is latched by the unit that claims it, where EDGE keeps it. The first crossing after BLANK starts the decay and
the end of the off-time the next drive phase; two drive phases in a row with the comparator above its level, or one without a crossing,
de-energise the channel with a fault; STO, standstill times and the end of a park act on the outputs (R252, R335 to R344). -/
def Obligations.AuxiliaryEventsDriveTheBridges : Prop :=
  (∀ (s : State) (sw : Fin 4) (rising : Bool) (held : Nat) (e : Owned) (h : e.inst < 4), ownerOf s (resSwitch sw) = some e → e.function = 0x04 →
      ticksOf (posF s ⟨e.inst, h⟩ 92) ≤ held →
      edgeKept (posU s ⟨e.inst, h⟩ 27 1) rising = true → (s.ifc ⟨e.inst, h⟩).awaitSwitch = false →
    ∃ u, exec (.refswLatch sw rising held) s = .next (settle s u) ∧
      u = { s with refsw := vupd s.refsw sw fun _ => { value := extP s ⟨e.inst, h⟩, time := s.clk.drive.toNat, rising := rising } }) ∧
  (∀ (s : State) (sw : Fin 4) (rising : Bool) (held : Nat) (e : Owned) (h : e.inst < 4), ownerOf s (resSwitch sw) = some e → e.function = 0x04 →
      ticksOf (posF s ⟨e.inst, h⟩ 92) ≤ held → edgeKept (posU s ⟨e.inst, h⟩ 27 1) rising = true → (s.ifc ⟨e.inst, h⟩).awaitSwitch = true →
    ∃ u, exec (.refswLatch sw rising held) s = .next (settle s u) ∧ u.refsw[sw.val].value = extP s ⟨e.inst, h⟩ ∧
      (u.ifc ⟨e.inst, h⟩).referenced = true ∧ (u.ifc ⟨e.inst, h⟩).awaitSwitch = false ∧
      (u.ifc ⟨e.inst, h⟩).count = posU s ⟨e.inst, h⟩ 88 4 % cpr s ⟨e.inst, h⟩ ∧ (u.ifc ⟨e.inst, h⟩).turns = (s.ifc ⟨e.inst, h⟩).turns) ∧
  (∀ (s : State) (sw : Fin 4) (rising : Bool) (held : Nat) (e : Owned), ownerOf s (resSwitch sw) = some e → e.function = 0x06 → auxU s 6 1 = sw.val → edgeKept (auxU s 7 1) rising = true →
      auxMode s = 1 → s.aux.referenced = false →
    ∃ u, exec (.refswLatch sw rising held) s = .next (settle s u) ∧ u.aux.referenced = true ∧ u.aux.m = auxI s 64 4 ∧ u.aux.latch = u.aux.m) ∧
  (∀ (s : State) (b : Fin 2) (volts : Q), s.aux.energised = true → s.aux.bridges[b.val].phase = 1 → s.aux.bridges[b.val].blank = false →
      chopActive s b volts = true →
    ∃ u, exec (.chopperCrossing b volts) s = .next (settle s u) ∧ u.aux.bridges[b.val].phase = 2 ∧ u.aux.bridges[b.val].since = s.clk.now ∧
      u.aux.bridges[b.val].forward = s.aux.bridges[b.val].forward ∧ u.aux.m = s.aux.m ∧ u.axes = s.axes) ∧
  (∀ (s : State) (b : Fin 2) (volts : Q), s.aux.energised = true → s.aux.bridges[b.val].phase = 1 → s.aux.bridges[b.val].blank = true →
      turnOnAt s b + ticksOf (auxF s 12) ≤ s.clk.now →
    ∃ u, exec (.blankEnd b volts) s = .next (settle s u) ∧
      (if chopVolts s (auxF s 32) < volts ∧ 1 ≤ s.aux.bridges[b.val].overRun then
        u.aux.energised = false ∧ u.aux.fault = 1 ∧ u.aux.overcurrents = satInc 16 s.aux.overcurrents
       else u.aux.energised = true ∧ u.aux.bridges[b.val].blank = false ∧
        u.aux.bridges[b.val].phase = (if chopActive s b volts = true then 2 else 1) ∧
        u.aux.bridges[b.val].overRun = if chopVolts s (auxF s 32) < volts then s.aux.bridges[b.val].overRun + 1 else 0)) ∧
  (∀ (s : State) (b : Fin 2), s.aux.energised = true → s.aux.bridges[b.val].phase = 2 → phaseFor s b (auxF s 8) = true →
    ∃ u, exec (.toffEnd b) s = .next (settle s u) ∧ u.aux.bridges[b.val].phase = 1 ∧ u.aux.bridges[b.val].blank = true ∧ u.aux.m = s.aux.m) ∧
  (∀ (s : State) (b : Fin 2), s.aux.energised = true → s.aux.bridges[b.val].phase = 1 → phaseFor s b (auxF s 68) = true →
      auxF s 24 / 10 ≤ qabs (bridgeRef s b) →
    ∃ u, exec (.auxOpenLoad b) s = .next (settle s u) ∧ u.aux.energised = false ∧ u.aux.fault = 2 ∧ u.aux.openLoads = satInc 16 s.aux.openLoads) ∧
  (∀ s : State, s.aux.energised = true → s.aux.moving = true → auxMode s = 1 → s.aux.nextStep ≤ s.clk.now → s.aux.stopping = false → s.aux.target ≠ s.aux.m + 1 → 0 < s.aux.rate →
      s.aux.m < 2 ^ 31 - 1 → -(2 ^ 31) ≤ s.aux.m →
    ∃ u, exec .auxMicrostep s = .next (settle s u) ∧ u.aux.m = s.aux.m + 1 ∧ u.aux.moving = true ∧ u.aux.target = s.aux.target) ∧
  (∀ s : State, s.aux.energised = true → s.aux.moving = true → auxMode s = 1 → s.aux.nextStep ≤ s.clk.now → s.aux.stopping = false → s.aux.target = s.aux.m - 1 → s.aux.rate < 0 →
      s.aux.parking = false → s.aux.m ≤ 2 ^ 31 - 1 → -(2 ^ 31) < s.aux.m →
    ∃ u, exec .auxMicrostep s = .next (settle s u) ∧ u.aux.m = s.aux.m - 1 ∧
      (s.aux.rate * s.aux.rate ≤ 2 * auxF s 48 → u.aux.moving = false ∧ u.aux.rate = 0) ∧
      (2 * auxF s 48 < s.aux.rate * s.aux.rate → u.aux.moving = true ∧ u.aux.target = s.aux.target)) ∧
  (∀ s : State, s.aux.energised = true → s.aux.moving = false → auxMode s = 1 → s.aux.standSince + ticksOf (auxF s 36) ≤ s.clk.now →
    exec .holdDelay s = .next (settle s (s.setAux fun a => { a with holdCurrent := true }))) ∧
  (∀ s : State, s.aux.energised = true → s.aux.moving = false → auxF s 40 ≠ 0 → s.aux.solOn[0] = false → s.aux.solOn[1] = false →
      s.aux.standSince + ticksOf (auxF s 40) ≤ s.clk.now →
    ∃ u, exec .idleOff s = .next (settle s u) ∧ u.aux.energised = false ∧ u.aux.fault = s.aux.fault ∧
      (holdKeep s = true → auxMode s = 1 → u.aux.m = s.aux.m ∧ u.aux.kept = some s.aux.m) ∧
      (holdKeep s = false → auxMode s = 1 → u.aux.m = 0 ∧ u.aux.referenced = false)) ∧
  (∀ s : State, s.aux.energised = true → s.aux.moving = true → auxMode s = 2 → s.aux.runEnd ≤ s.clk.now → s.aux.parking = false → s.mode ≠ .safe →
    ∃ u, exec .auxRunTimeEnd s = .next (settle s u) ∧ u.aux.moving = false ∧ u.aux.energised = true ∧ u.aux.bridges[0].phase = 0 ∧
      u.aux.standSince = s.clk.now) ∧
  (∀ (s : State) (k : Fin 2), auxMode s = 3 → s.aux.pullOn[k.val] = true → s.aux.pullAt[k.val] + ticksOf (auxF s 52) ≤ s.clk.now →
      s.aux.parking = false →
    exec (.tPullElapsed k) s = .next (settle s (s.setAux fun a => { a with pullOn := a.pullOn.set k.val false }))) ∧
  (∀ s : State, s.aux.parking = true → s.aux.parkAt + ticksOf (auxF s 60) ≤ s.clk.now →
    ∃ u, exec .auxParkIncomplete s = .next (settle s u) ∧ u.power.parkShort = true ∧ u.aux.moving = false ∧ (s.aux.energised = true → u.aux.energised = false))

/-- AUX.MOVE energises the channel and begins the move in the manner of its mode, AUX.STOP holds what is left of it, AUX.RESUME begins it
again, AUX.STATUS answers position, remaining distance and referencing; a move is refused in MODE 0 and under STO, and it and a
resumption while the source of an overcurrent is still active (R334, R336, R338, R341 to R343). -/
def Obligations.AuxiliaryCommandsMoveHoldAndResume : Prop :=
  (∀ (s : State) (slot : Nat) (j : Job), Ready s slot 0x0380 j → (auxMode s = 1 ∨ auxMode s = 2 ∨ auxMode s = 3) → stoActive s = false →
      (auxMode s = 1 → ∃ r, j.f 4 = some r ∧ 0 < r) →
    ∃ u, exec (.auxMove slot false) s = .next (settle s (respond u j 0 [])) ∧ u.aux.fault = 0 ∧ u.aux.target = j.i 0 4 ∧
      (auxMode s ≠ 1 → u.aux.energised = true) ∧
      (auxMode s = 2 → u.aux.moving = (j.i 0 4 != 0) ∧ u.aux.runEnd = s.clk.now + (j.i 0 4).natAbs * 100000)) ∧
  (∀ (s : State) (slot : Nat) (j : Job), Ready s slot 0x0380 j → s.aux.fault = 1 →
    exec (.auxMove slot true) s = .next (settle s (respond s j evClearRefusedSourceActive []))) ∧
  (∀ (s : State) (slot : Nat) (over_ : Bool) (j : Job), Ready s slot 0x0380 j → (s.aux.fault ≠ 1 ∨ over_ = false) → auxMode s ≠ 0 → stoActive s = true →
    exec (.auxMove slot over_) s = .next (settle s (refuse s j rsStoActive))) ∧
  (∀ (s : State) (slot : Nat) (j : Job), Ready s slot 0x0381 j → auxMode s = 2 → s.aux.moving = true →
    ∃ u, exec (.auxStop slot) s = .next (settle s (respond u j 0 (leBytes 4 (unsignedOf 32 (auxRemaining s))))) ∧ u.aux.moving = false ∧
      u.aux.held = some (runLeft s)) ∧
  (∀ (s : State) (slot : Nat) (j : Job), Ready s slot 0x0381 j → auxMode s = 1 → s.aux.moving = true → s.aux.rate ≠ 0 →
    exec (.auxStop slot) s = .next (settle s (respond (s.setAux fun a => { a with stopping := true, held := some a.target }) j 0
      (leBytes 4 (unsignedOf 32 (auxRemaining s)))))) ∧
  (∀ (s : State) (slot : Nat) (j : Job), Ready s slot 0x0381 j → auxMode s ≠ 3 → s.aux.moving = false →
    exec (.auxStop slot) s = .next (settle s (respond s j 0 (leBytes 4 (unsignedOf 32 (if s.aux.held.isSome then auxRemaining s else 0)))))) ∧
  (∀ (s : State) (slot : Nat) (j : Job) (t : Int), Ready s slot 0x0382 j → s.aux.held = some t → auxMode s = 2 → stoActive s = false →
    ∃ u, exec (.auxResume slot false) s = .next (settle s (respond u j 0 [])) ∧ u.aux.held = none ∧ u.aux.target = t ∧ u.aux.energised = true ∧
      u.aux.moving = (t != 0)) ∧
  (∀ (s : State) (slot : Nat) (j : Job), Ready s slot 0x0382 j → s.aux.fault = 1 →
    exec (.auxResume slot true) s = .next (settle s (respond s j evClearRefusedSourceActive []))) ∧
  (∀ (s : State) (slot : Nat) (over_ : Bool) (j : Job), Ready s slot 0x0382 j → (s.aux.fault ≠ 1 ∨ over_ = false) → s.aux.held = none →
    exec (.auxResume slot over_) s = .next (settle s (refuse s j rsNotInMode))) ∧
  (∀ (s : State) (slot : Nat) (j : Job), Ready s slot 0x0383 j →
    exec (.auxStatus slot) s = .next (settle s (respond s j 0 (leBytes 4 (unsignedOf 32 (auxPosition s)) ++ leBytes 4 (unsignedOf 32 (auxRemaining s)) ++
      [BitVec.ofNat 8 (ofFlag s.aux.referenced)]))))

/-- AXIS.START of an axis in OFF whose conditions of Table 2.2 hold enters CATCH, and its command runs on; the first condition that fails is the
reason of a refusal. A running axis takes a new REF in the same state, and another run state at its next dispatch. AXIS.STOP of kind 0 takes
it to STOPPING, of kind 1 asks for SS1 (R31, R36, R286, R330, R407, R591). -/
def Obligations.AxisStartsAndStops : Prop :=
  (∀ (s : State) (slot : Nat) (j : Job) (n : Fin 4) (st : AxState) (warm : Bool) (ref ramp : Q), Ready s slot 0x0301 j → axisOf s j = some n →
      startTarget (j.u 1 1) = some (st, warm) → refOf j st warm = some ref → j.f 8 = some ramp →
      (st = .runTorque ∨ cfgHas s secProfile n.val = true) → (s.axis n).core.st = .off → (st = .runPosition → positionReady s n = true) →
      startReason s n warm = none →
    ∃ u, exec (.axisStart slot) s = .next (settle s u) ∧ (u.axis n).core.st = .catching ∧ (u.axis n).core.target = st ∧
      (u.axis n).core.warmup = warm ∧ (u.axis n).core.ramp = ramp ∧ (u.axis n).core.ref = (clampRef s n st ref).1 ∧ (u.axis n).catch_.step = 1 ∧
      (u.axis n).catch_.answerSlot = some slot ∧ (u.axis n).catch_.startedAt = s.clk.now ∧ ∀ m, m ≠ n → u.axis m = s.axis m) ∧
  (∀ (s : State) (slot : Nat) (j : Job) (n : Fin 4) (st : AxState) (warm : Bool) (ref ramp : Q) (r : Nat), Ready s slot 0x0301 j → axisOf s j = some n →
      startTarget (j.u 1 1) = some (st, warm) → refOf j st warm = some ref → j.f 8 = some ramp →
      (st = .runTorque ∨ cfgHas s secProfile n.val = true) → (s.axis n).core.st = .off → (st = .runPosition → positionReady s n = true) →
      startReason s n warm = some r →
    exec (.axisStart slot) s = .next (settle s (refuse s j r))) ∧
  (∀ (s : State) (slot : Nat) (j : Job) (n : Fin 4) (st : AxState) (ref ramp : Q), Ready s slot 0x0301 j → axisOf s j = some n →
      startTarget (j.u 1 1) = some (st, false) → refOf j st false = some ref → j.f 8 = some ramp →
      (st = .runTorque ∨ cfgHas s secProfile n.val = true) → isRun (s.axis n).core.st = true → warming s n = false →
      (st = .runPosition → positionReady s n = true) →
    ∃ u, exec (.axisStart slot) s = .next (settle s u) ∧ (u.axis n).core.st = (s.axis n).core.st ∧
      (if (s.axis n).core.st = st then (u.axis n).core.ref = (clampRef s n st ref).1 ∧ (u.axis n).core.ramp = ramp
       else (u.axis n).core.nextRun = some (st, slot, (clampRef s n st ref).1, ramp) ∧ (u.axis n).core.ref = (s.axis n).core.ref)) ∧
  (∀ (s : State) (slot : Nat) (j : Job) (n : Fin 4), Ready s slot 0x0302 j → axisOf s j = some n → j.u 1 1 = 0 → isRun (s.axis n).core.st = true →
      warming s n = false → ((s.axis n).obs.inUse = false ∨ (s.axis n).obs.st ≠ .recapturing) →
    ∃ u, exec (.axisStopRamp slot) s = .next (settle s (respond u j 0 [BitVec.ofNat 8 (axCode .stopping)])) ∧ (u.axis n).core.st = .stopping ∧
      (u.axis n).saf.stopSs1 = false ∧ (u.axis n).saf.stopAt = s.clk.now ∧ (u.axis n).core.nextRun = none ∧ (u.axis n).trip = (s.axis n).trip) ∧
  (∀ (s : State) (slot : Nat) (j : Job) (n : Fin 4), Ready s slot 0x0302 j → axisOf s j = some n → j.u 1 1 = 1 → isRun (s.axis n).core.st = true →
      warming s n = false → ((s.axis n).obs.inUse = false ∨ (s.axis n).obs.st ≠ .recapturing) →
    ∃ u, exec (.axisStopSs1 slot) s = .next (settle s (respond u j 0 [BitVec.ofNat 8 (axCode (s.axis n).core.st)])) ∧
      u = s.setAxis n fun a => { a with core := { a.core with ss1Asked := true } }) ∧
  (∀ (s : State) (slot : Nat) (j : Job) (n : Fin 4), Ready s slot 0x0302 j → axisOf s j = some n → j.u 1 1 = 1 → (s.axis n).core.st = .catching →
    ∃ u, exec (.axisStopSs1 slot) s = .next (settle s (respond u j 0 [BitVec.ofNat 8 (axCode .off)])) ∧ (u.axis n).core.st = .off)

/-- AXIS.TORQUE and AXIS.SPEED give the running axis a reference; AXIS.MOVE and AXIS.RESUME begin a move in RUN_POSITION; AXIS.STATUS reports;
AXIS.REFERENCE claims the index or the switch and awaits its edge (R219, R250, R252, R324 to R326, R333, Table 4.13). -/
def Obligations.AxisReferencesMovesAndStatus : Prop :=
  (∀ (s : State) (slot : Nat) (j : Job) (n : Fin 4) (t : Q), Ready s slot 0x0303 j → axisOf s j = some n → j.f 4 = some t → ctlU s n 3 1 = 0 →
      (s.axis n).core.st = .runTorque → (s.axis n).core.warmup = false →
    exec (.axisTorque slot) s = .next (settle s (respond (s.setAxis n fun a => { a with core := { a.core with ref := t } }) j 0 []))) ∧
  (∀ (s : State) (slot : Nat) (j : Job) (n : Fin 4) (w : Q), Ready s slot 0x0304 j → axisOf s j = some n → j.f 4 = some w →
      (s.axis n).core.st = .runSpeed →
    exec (.axisSpeed slot) s = .next (settle s (respond (s.setAxis n fun a => { a with core := { a.core with ref := w } }) j 0 []))) ∧
  (∀ (s : State) (slot : Nat) (j : Job) (n : Fin 4) (w : Q), Ready s slot 0x0304 j → axisOf s j = some n → j.f 4 = some w →
      (s.axis n).core.st ≠ .runSpeed →
    exec (.axisSpeed slot) s = .next (settle s (refuse s j rsNotInMode))) ∧
  (∀ (s : State) (slot : Nat) (j : Job) (n i : Fin 4) (v : Q), Ready s slot 0x0305 j → axisOf s j = some n → j.f 12 = some v → 0 ≤ v →
      (s.axis n).core.st = .runPosition → ifcOf s n 0 = some i → positionReady s n = true →
    ∃ u, exec (.axisMove slot) s = .next (settle s (respond u j 0 [])) ∧ (u.axis n).prof.moving = true ∧
      (u.axis n).prof.target = some (j.i 4 4 * (cpr s i : Int) + ((j.u 8 2 * cpr s i / 65536 : Nat) : Int)) ∧ (u.axis n).prof.vMax = v ∧
      (u.axis n).prof.replan = true ∧ (u.axis n).prof.held = none ∧ (u.axis n).core = (s.axis n).core) ∧
  (∀ (s : State) (slot : Nat) (j : Job) (n i : Fin 4) (t : Int), Ready s slot 0x0306 j → axisOf s j = some n → (s.axis n).prof.held = some t →
      ifcOf s n 0 = some i → (s.axis n).core.st = .runPosition →
    ∃ u, exec (.axisResume slot) s = .next (settle s (respond u j 0
        (leBytes 4 (unsignedOf 32 (remainTurns (cpr s i) (t - extP s i))) ++ leBytes 2 (remainAngle (cpr s i) (t - extP s i))))) ∧
      (u.axis n).prof.target = some t ∧ (u.axis n).prof.moving = true ∧ (u.axis n).prof.held = none) ∧
  (∀ (s : State) (slot : Nat) (j : Job) (n : Fin 4), Ready s slot 0x0307 j → j.u 0 1 = n.val → warming s n = false →
    ∃ u tj, exec (.axisStatus slot) s = .next (settle s (respond u j 0 ([BitVec.ofNat 8 (if axEnabled s n then axCode (s.axis n).core.st else 0),
        BitVec.ofNat 8 (subCode (s.axis n).core.sub), BitVec.ofNat 8 (s.axis n).th.reef, 0] ++ f32Bytes (speedOf s n) ++ f32Bytes (s.axis n).ctl.tEst ++
        f32Bytes (s.axis n).ctl.id ++ f32Bytes (s.axis n).ctl.iq ++ f32Bytes (udcOf s n) ++ f32Bytes tj))) ∧
      (cfgHas s secThermal n.val = true → tj = hottest s n ∧ u = s) ∧ u.axes = s.axes) ∧
  (∀ (s : State) (slot : Nat) (j : Job) (n i : Fin 4), Ready s slot 0x0308 j → axisOf s j = some n → j.u 1 1 = 0 → warming s n = false →
      ifcOf s n 0 = some i → busyWith s n i (resIndex i) = none →
    ∃ u, exec (.axisReference slot) s = .next (settle s (respond u j 0 [])) ∧ (u.ifc i).awaitIndex = true ∧
      { resource := resIndex i, function := 0x0F, owner := n.val } ∈ u.cfg.claims ∧ u.axes = s.axes) ∧
  (∀ (s : State) (slot : Nat) (j : Job) (n i : Fin 4) (k : Nat), Ready s slot 0x0308 j → axisOf s j = some n → j.u 1 1 = k + 1 → k < 4 → warming s n = false →
      ifcOf s n 0 = some i → busyWith s n i (0x02000000 + 32 + k) = none → posU s i 26 1 = k →
    ∃ u, exec (.axisReference slot) s = .next (settle s (respond u j 0 [])) ∧ (u.ifc i).awaitSwitch = true ∧
      { resource := 0x02000000 + 32 + k, function := 0x0F, owner := n.val } ∈ u.cfg.claims)

/-- SAFE.CLEAR returns a settled device without latched trips to IDLE with every axis OFF, and names the first condition that fails.
SAFE.CLEAR_TRIP clears the sources of an axis and its group where none is active, and names the active ones otherwise. SAFE.STATUS reports
its three words. A discharge starts at rest by the resistor, or through the windings of its axis (R33, R164, R426 to R428, R436). -/
def Obligations.SafeClearsReportsAndDischarges : Prop :=
  (∀ (s : State) (slot : Nat) (j : Job), Ready s slot 0x0401 j → clearReason s = none →
    ∃ u, exec (.safeClear slot) s = .next (settle s (respond u j 0 [BitVec.ofNat 8 (modeCode .idle)])) ∧ u.mode = .idle ∧
      ∀ n, axPresent s n = true → (u.axis n).core.st = .off) ∧
  (∀ (s : State) (slot : Nat) (j : Job) (r : Nat), Ready s slot 0x0401 j → clearReason s = some r →
    exec (.safeClear slot) s = .next (settle s (refuse s j r))) ∧
  (∀ (s : State) (slot clocks supplies : Nat) (j : Job) (h : j.u 0 1 < 4), Ready s slot 0x0402 j →
      activeSources (reportGood s clocks supplies) (clearSet (reportGood s clocks supplies) ⟨j.u 0 1, h⟩) = 0 →
    ∃ u, exec (.safeClearTrip slot clocks supplies) s = .next (settle s (respond u j 0 (leBytes 4 0))) ∧ (u.axis ⟨j.u 0 1, h⟩).trip.src = 0 ∧
      (∀ m, m ∈ axMembers s ⟨j.u 0 1, h⟩ → (u.axis m).trip.src = 0) ∧ ∀ m, (u.axis m).core = (s.axis m).core) ∧
  (∀ (s : State) (slot clocks supplies : Nat) (j : Job) (h : j.u 0 1 < 4) (act : Nat), Ready s slot 0x0402 j →
      activeSources (reportGood s clocks supplies) (clearSet (reportGood s clocks supplies) ⟨j.u 0 1, h⟩) = act → act ≠ 0 →
    ∃ u, exec (.safeClearTrip slot clocks supplies) s = .next (settle s (respond u j evClearRefusedSourceActive (leBytes 4 act))) ∧ u.axes = s.axes) ∧
  (∀ (s : State) (slot : Nat) (j : Job), Ready s slot 0x0403 j →
    exec (.safeStatus slot) s = .next (settle s (respond s j 0 (leBytes 4 (safeWord s) ++ [flags4 s.so.on, flags4 s.so.failed, 0, 0] ++ leBytes 4 (backWord s))))) ∧
  (∀ (s : State) (slot : Nat) (j : Job), Ready s slot 0x0406 j → j.u 0 1 < 4 → j.u 1 1 = 0 → rotating s = false → resistorOk s = true → dischRuns s = false →
    ∃ u, exec (.safeDischargeResistor slot) s = .next (settle s (respond u j 0 [])) ∧ u.disch.ball = true ∧ u.disch.state = 1 ∧ u.disch.method = 1 ∧
      u.disch.startedAt = s.clk.now ∧ u.axes = s.axes) ∧
  (∀ (s : State) (slot : Nat) (j : Job), Ready s slot 0x0406 j → j.u 0 1 < 4 → j.u 1 1 = 0 → rotating s = true →
    exec (.safeDischargeResistor slot) s = .next (settle s (refuse s j rsRotating))) ∧
  (∀ (s : State) (slot : Nat) (j : Job) (h : j.u 0 1 < 4), Ready s slot 0x0406 j → j.u 1 1 = 1 → rotating s = false → stoActive s = false →
      stoQualified s = true → windingsOk s ⟨j.u 0 1, h⟩ = true → dischRuns s = false →
    ∃ u, exec (.safeDischargeWindings slot) s = .next (settle s (respond u j 0 [])) ∧ (u.axis ⟨j.u 0 1, h⟩).core.st = .axisSafe ∧
      (u.axis ⟨j.u 0 1, h⟩).core.sub = .discharge ∧ u.disch.method = 2 ∧ u.disch.state = 1 ∧ u.disch.ball = s.disch.ball)

/-- A sample of both paths is kept with the filtered levels that follow from it; paths that differ three times in a row are a fault. A discrepancy
that has lasted locks its function active; a pulse that does not come through marks its input; a second button that is late withdraws the
permission until both are released; a third failed cross-check puts every function in demand and sets STO_INT. SAFE.INPUTS and SAFE.RESTART
answer for the functions. An off-pulse of a safe output begins and ends in its place, is counted once the readback has followed, and a
readback that does not follow keeps the output off (R438 to R448, R451, R453). -/
def Obligations.SafeInputsAndOutputsAreJudged : Prop :=
  (∀ (s : State) (a b : Nat), siRuns s = true → s.si.sampledAt + 1000 ≤ s.clk.now →
    ∃ u, exec (.safeInputSample a b) s = .next (settle s u) ∧ u.si.raw = a % 65536 ∧ u.si.sampledAt = s.clk.now ∧
      u.si.filtered = (siSampled s (a % 65536) (b % 65536)).filtered ∧
      (∀ i : Fin 16, bitAt a i.val = true → bitAt b i.val = true → tpMap s i.val = 0 → bitAt u.si.filtered i.val = true) ∧
      (∀ i : Fin 16, bitAt a i.val ≠ bitAt b i.val → 2 ≤ s.si.differ[i.val] → u.si.fault = true)) ∧
  (∀ (s : State) (f : Fin 8) (b2 : Bool) (t : Nat), siRuns s = true → siKind s f ≠ 0 → (s.fn f).lockDisc = false →
      (if b2 = true ∧ siKind s f = 3 then (s.fn f).differAt[1] else (s.fn f).differAt[0]) = some t →
      t + ticksOf (cfgF s secSafeIn 0 (32 + 16 * f.val + 12)) ≤ s.clk.now →
    ∃ u, exec (.siDiscrepancy f b2) s = .next (settle s u) ∧ (u.fn f).lockDisc = true ∧ (u.fn f).active = true) ∧
  (∀ (s : State) (p : Fin 4), siRuns s = true → bitAt (cfgU s secSafeIn 0 0 1) p.val = true → s.si.tpAt = none →
      (s.clk.now - s.si.tpFrom) % tpPeriod s = p.val * tpPeriod s / 4 →
    exec (.testPulse p false) s = .next (settle s
      { s with si := { s.si with tp := p.val, tpAt := some s.clk.now, tpClosed := s.si.raw, tpLow := 0, tpHigh := 0, tpCross := 0 } })) ∧
  (∀ (s : State) (p : Fin 4) (t : Nat), siRuns s = true → bitAt (cfgU s secSafeIn 0 0 1) p.val = true → s.si.tpAt = some t → s.si.tp = p.val →
      t + tpWidth s + 5000 ≤ s.clk.now →
    ∃ u, exec (.testPulse p true) s = .next (settle s u) ∧ u.si.filtered = s.si.filtered ∧ u.si.tpAt = none ∧
      ∀ i : Fin 16, bitAt s.si.tpClosed i.val = true → tpMap s i.val = p.val + 1 → (∃ f, siUses s f i.val = true) →
        (bitAt s.si.tpLow i.val = false ∨ bitAt s.si.tpHigh i.val = false) → bitAt u.si.testFail i.val = true) ∧
  (∀ (s : State) (f : Fin 8) (t : Nat), siRuns s = true → siKind s f = 3 → (s.fn f).firstAt = some t → (s.fn f).awaitRelease = false →
      t + 50000000 < s.clk.now →
    ∃ u, exec (.twoHandSync f) s = .next (settle s u) ∧ u.si = (s.setFn f fun x => { x with awaitRelease := true, permit := false }).si ∧ u.axes = s.axes) ∧
  (∀ s : State, siRuns s = true → pairAWorks s = true →
    exec (.safeInCrossCheck true) s = .next (settle s { s with si := { s.si with crossFails := 0 } })) ∧
  (∀ s : State, siRuns s = true → pairAWorks s = true → s.si.fault = false → 2 ≤ s.si.crossFails →
    ∃ u, exec (.safeInCrossCheck false) s = .next (settle s u) ∧ u.si.fault = true ∧ u.sto.intSet = true ∧
      ∀ f, siKind s f ≠ 0 → (u.fn f).active = true) ∧
  (∀ s : State, siRuns s = true → pairAWorks s = true → s.si.crossFails < 2 →
    exec (.safeInCrossCheck false) s = .next (settle s { s with si := { s.si with crossFails := s.si.crossFails + 1 } })) ∧
  (∀ (s : State) (slot : Nat) (j : Job), Ready s slot 0x0404 j →
    exec (.safeInputs slot) s = .next (settle s (respond s j 0 (leBytes 2 s.si.filtered ++
      leBytes 2 ((allFns.map fun f => if (s.fn f).active then place 1 f.val 1 else 0).sum))))) ∧
  (∀ (s : State) (slot : Nat) (j : Job) (f : Fin 8), Ready s slot 0x0405 j → j.u 0 1 = f.val → siKind s f = 4 → (s.fn f).restart = true →
      siHealthy s f = true → siLocked s f = false →
    ∃ u, exec (.safeRestart slot) s = .next (settle s (respond u j 0 [])) ∧ (u.fn f).restart = false ∧ u.si.filtered = s.si.filtered) ∧
  (∀ (s : State) (slot : Nat) (j : Job) (f : Fin 8), Ready s slot 0x0405 j → j.u 0 1 = f.val → siKind s f = 4 → (s.fn f).restart = true →
      (siHealthy s f = false ∨ siLocked s f = true) →
    exec (.safeRestart slot) s = .next (settle s (respond s j evClearRefusedSourceActive []))) ∧
  (∀ (s : State) (k : Fin 4), firmwareUp s = true → pairAWorks s = true → soUse s k.val ≠ 0 → s.so.failed[k.val] = false →
      s.so.on[k.val] = true → s.so.pulsing[k.val] = false → s.clk.now % 100000000 = k.val * 25000000 →
    exec (.soPulse k false) s = .next (settle s
      { s with so := { s.so with pulsing := s.so.pulsing.set k.val true, testing := s.so.testing.set k.val false } })) ∧
  (∀ (s : State) (k : Fin 4), firmwareUp s = true → pairAWorks s = true → soUse s k.val ≠ 0 → s.so.failed[k.val] = false →
      s.so.pulsing[k.val] = true → s.so.drivenAt[k.val] + soPulseTicks s k.val ≤ s.clk.now →
    exec (.soPulse k true) s = .next (settle s
      { s with so := { s.so with pulsing := s.so.pulsing.set k.val false, testing := s.so.testing.set k.val s.so.on[k.val] } })) ∧
  (∀ (s : State) (k : Fin 4) (level : Bool), firmwareUp s = true → pairAWorks s = true → soUse s k.val ≠ 0 → s.so.failed[k.val] = false →
      (level != bitAt (cfgU s secSafeOut 0 (12 * k.val + 1) 1) 0) = s.so.driven[k.val] →
    ∃ u, exec (.soReadbackFail k level) s = .next (settle s u) ∧ u.so.failed = s.so.failed ∧ u.so.shown[k.val] = true ∧ u.so.strayAt[k.val] = none ∧
      u.so.pulses[k.val] = (if s.so.driven[k.val] = true ∧ s.so.testing[k.val] = true then (s.so.pulses[k.val] + 1) % 65536 else s.so.pulses[k.val])) ∧
  (∀ (s : State) (k : Fin 4) (level : Bool), firmwareUp s = true → pairAWorks s = true → soUse s k.val ≠ 0 → s.so.failed[k.val] = false →
      (level != bitAt (cfgU s secSafeOut 0 (12 * k.val + 1) 1) 0) ≠ s.so.driven[k.val] →
      (s.so.shown[k.val] = false ∧ s.so.drivenAt[k.val] + (if s.so.driven[k.val] then soOnCheck s k.val else 5000) ≤ s.clk.now ∨
        s.so.shown[k.val] = true ∧ ∃ t, s.so.strayAt[k.val] = some t ∧ t + 100000 ≤ s.clk.now) →
    ∃ u, exec (.soReadbackFail k level) s = .next (settle s u) ∧ u.so.failed[k.val] = true ∧ u.so.on[k.val] = false ∧
      u.so.reason[k.val] = (if s.so.driven[k.val] then 2 else 1) ∧ (k.val < 2 → u.sto.intSet = true))

/-- A mismatch or a delay-stage parity error fails its pair: Pair A with SAFE, Pair B with takeover and SS1 on the axes that depend on it. The
other classes ask every running axis for SS1 and inhibit starts, the first time; a later class is counted. A good injection and a signature
are counted and noted (R375 to R379, R381, R382). -/
def Obligations.LockstepClassesReact : Prop :=
  (∀ (s : State) (k : LockCycle) (g : Nat) (c : Instr), inLockstep s false = true →
      (c = .coreMismatch false k ∧ cycleClass k = some (1, g) ∨ c = .delayParity false k ∧ cycleClass k = some (2, g)) →
      (s.mode = .idle ∨ s.mode = .run ∨ s.mode = .service) →
    ∃ u, exec c s = .next (settle s u) ∧ u.lock.pairAFailed = true ∧ u.lock.rejoin = 0 ∧ u.mode = .safe ∧ u.host.outSystem = true ∧
      (∀ n, axPresent s n = true → (u.axis n).core.st = .axisSafe) ∧
      (s.lock.pairs[0].firstClass = 0 → u.lock.pairs[0].firstGroup = g % 32 ∧ u.lock.pairs[0].firstTime = s.clk.drive)) ∧
  (∀ (s : State) (k : LockCycle) (g : Nat) (c : Instr), inLockstep s true = true →
      (c = .coreMismatch true k ∧ cycleClass k = some (1, g) ∨ c = .delayParity true k ∧ cycleClass k = some (2, g)) →
    ∃ u, exec c s = .next (settle s u) ∧ u.lock.pairBFailed = true ∧ u.lock.takeover = true ∧ u.lock.pairAFailed = s.lock.pairAFailed ∧
      u.mode = s.mode ∧ (∀ n, (u.axis n).trip = (s.axis n).trip) ∧
      ∀ n, pairBAffects s n = true → bitAt u.lock.noStart n.val = true ∧
        (isRun (s.axis n).core.st = true → ((s.axis n).obs.inUse = false ∨ (s.axis n).obs.st ≠ .recapturing) → (u.axis n).core.ss1Asked = true)) ∧
  (∀ (s : State) (b : Bool) (k : LockCycle) (g : Nat), inLockstep s b = true → cycleClass k = some (3, g) → s.lock.pairs[(pairIx b).val].firstClass = 0 →
    ∃ u, exec (.comparatorDisagree b k) s = .next (settle s u) ∧ u.lock.inhibit = true ∧ u.lock.pairs[(pairIx b).val].disagree = true ∧
      u.lock.pairs[(pairIx b).val].firstClass = 3 ∧ u.lock.pairs[(pairIx b).val].firstGroup = g % 32 ∧
      ∀ n, axPresent s n = true → isRun (s.axis n).core.st = true → ((s.axis n).obs.inUse = false ∨ (s.axis n).obs.st ≠ .recapturing) →
        (u.axis n).core.ss1Asked = true) ∧
  (∀ (s : State) (b : Bool) (k : LockCycle) (g : Nat), inLockstep s b = true → cycleClass k = some (3, g) → s.lock.pairs[(pairIx b).val].firstClass ≠ 0 →
    ∃ u, exec (.comparatorDisagree b k) s = .next (settle s u) ∧ u.lock.inhibit = s.lock.inhibit ∧ u.axes = s.axes ∧
      u.lock.pairs[(pairIx b).val].firstClass = s.lock.pairs[(pairIx b).val].firstClass ∧
      u.lock.pairs[(pairIx b).val].later = satInc 16 s.lock.pairs[(pairIx b).val].later) ∧
  (∀ (s : State) (g : Nat) (reports : List (Fin 4 × Fin 4)), s.boot.phase = 15 → s.mode ≠ .boot → s.mode ≠ .sleep → testGroup s = some g →
      injectionGood reports = true →
    ∃ u, exec (.runInjection reports) s = .next (settle s u) ∧ u.lock.nextGroup = (g + 1) % 64 ∧ u.axes = s.axes ∧
      u.lock.pairs[(pairIx (decide (32 ≤ g))).val].runTests = (s.lock.pairs[(pairIx (decide (32 ≤ g))).val].runTests + 1) % 65536) ∧
  (∀ (s : State) (g : Nat) (reports : List (Fin 4 × Fin 4)), s.boot.phase = 15 → s.mode ≠ .boot → s.mode ≠ .sleep → testGroup s = some g →
      injectionGood reports = false → s.lock.pairs[(pairIx (decide (32 ≤ g))).val].firstClass = 0 →
    ∃ u, exec (.runInjection reports) s = .next (settle s u) ∧ u.lock.inhibit = true ∧ u.lock.nextGroup = (g + 1) % 64 ∧
      u.lock.pairs[(pairIx (decide (32 ≤ g))).val].testFail = true) ∧
  (∀ (s : State) (b : Bool), inLockstep s b = true →
    ∃ u, exec (.registerSignature b) s = .next (settle s u) ∧ u.lock.pairs[(pairIx b).val].regsigAt = s.clk.now ∧
      u.lock.pairs[(pairIx b).val].regsigRuns = (s.lock.pairs[(pairIx b).val].regsigRuns + 1) % 65536 ∧ u.axes = s.axes) ∧
  (∀ (s : State) (b : Bool), inLockstep s b = true → s.lock.pairs[(pairIx b).val].firstClass = 0 →
      s.lock.pairs[(pairIx b).val].regsigAt + 3000000 ≤ s.clk.now →
    ∃ u, exec (.regsigLate b) s = .next (settle s u) ∧ u.lock.inhibit = true ∧ u.lock.pairs[(pairIx b).val].testFail = true)

/-- DIAG.PAIR_B asks for a split or a rejoin of Pair B where the pairs are sound and the load permits; the split takes effect at the next
boundary, the rejoin passes part L and ends with the tasks back. A debugger halts an open pair at once outside RUN, Pair B once its
tasks are taken over, which ends a rejoin that runs, waits for SS1 in RUN, and releases it (R384, R386, R387, R389, R390, R392). -/
def Obligations.PairBSplitsRejoinsAndIsDebugged : Prop :=
  (∀ (s : State) (slot load : Nat) (j : Job), Ready s slot 0x0805 j → j.u 0 1 = 1 → s.lock.pairBFailed = false → s.lock.pairBSplit = false →
      s.lock.splitDue = false → s.lock.rejoin = 0 → s.lock.dbgSplitB = false → splitSound s = true → load ≤ 8000 → s.cfg.tack = none →
    ∃ u, exec (.diagPairBSplit slot load) s = .next (settle s (respond u j 0 [])) ∧ u.lock = { s.lock with splitDue := true }) ∧
  (∀ (s : State) (slot load : Nat) (j : Job), Ready s slot 0x0805 j → j.u 0 1 = 1 → s.lock.pairBFailed = false → s.lock.pairBSplit = false →
      s.lock.splitDue = false → s.lock.rejoin = 0 → s.lock.dbgSplitB = false → (splitSound s = false ∨ 8000 < load) →
    exec (.diagPairBSplit slot load) s = .next (settle s (refuse s j rsTakeover))) ∧
  (∀ (s : State) (slot : Nat) (j : Job), Ready s slot 0x0805 j → j.u 0 1 = 0 → s.lock.pairBFailed = false → s.lock.rejoin = 0 →
      (s.lock.pairBSplit = true ∨ s.lock.dbgSplitB = true) → s.lock.pairs[1].halted = false →
    exec (.diagPairBRejoin slot) s = .next (settle s (respond { s with lock := { s.lock with rejoin := 1 } } j 0 []))) ∧
  (∀ s : State, s.lock.splitDue = true → s.lock.haltAfterSplit = false → pairAWorks s = true →
    ∃ u, exec .pairBSplit s = .next (settle s u) ∧ u.lock.splitDue = false ∧ u.lock.takeover = true ∧ u.lock.pairBSplit = true ∧
      u.lock.pairs[1].splits = satInc 16 s.lock.pairs[1].splits ∧ u.axes = s.axes) ∧
  (∀ (s : State) (failed : Option (Fin 32)), s.lock.rejoin = 1 → pairsStopped s = false →
    ∃ u, exec (.rejoinPartL failed) s = .next (settle s u) ∧
      (if failed.isNone then u.lock.rejoin = 4 ∧ u.lock.pairs[1].regsigAt = s.clk.now
       else u.lock.rejoin = 0 ∧ u.lock.pairBFailed = true ∧ u.lock.inhibit = true ∧ u.lock.pairs[1].testFail = true) ∧
      (∀ g, failed = some g → s.lock.pairs[1].firstClass = 0 → u.lock.pairs[1].firstClass = 4 ∧ u.lock.pairs[1].firstGroup = g.val)) ∧
  (∀ s : State, s.lock.rejoin = 5 → pairAWorks s = true →
    ∃ u, exec .pairBRejoined s = .next (settle s u) ∧ u.lock.rejoin = 0 ∧ u.lock.pairBSplit = false ∧ u.lock.dbgSplitB = false ∧
      u.lock.takeover = false ∧ u.lock.pairs[1].rejoins = satInc 16 s.lock.pairs[1].rejoins) ∧
  (∀ (s : State) (load : Nat), s.sec.debugOpen = true → s.lock.pairAFailed = false → s.lock.pairs[0].halted = false →
      (s.mode = .idle ∨ s.mode = .safe ∨ s.mode = .service) →
    ∃ u, exec (.debugHalt false load) s = .next (settle s u) ∧ u.lock.dbgSplitA = true ∧ u.lock.pairs[0].halted = true ∧ u.axes = s.axes) ∧
  (∀ (s : State) (b : Bool) (load : Nat), s.sec.debugOpen = true → pairFailed s b = false → s.lock.pairs[(pairIx b).val].halted = false →
      s.mode = .run → cfgBench s = false →
    ∃ u, exec (.debugHalt b load) s = .next (settle s u) ∧ u.lock.pairs[(pairIx b).val].haltHeld = true ∧
      ∀ n, axPresent s n = true → isRun (s.axis n).core.st = true → ((s.axis n).obs.inUse = false ∨ (s.axis n).obs.st ≠ .recapturing) →
        (u.axis n).core.ss1Asked = true) ∧
  (∀ (s : State) (load : Nat), s.sec.debugOpen = true → s.lock.pairBFailed = false → s.lock.pairs[1].halted = false → s.lock.splitDue = false →
      s.lock.takeover = false → takeoverFeasible s load = true → (s.mode = .idle ∨ s.mode = .safe ∨ s.mode = .service) →
    ∃ u, exec (.debugHalt true load) s = .next (settle s u) ∧ u.lock = { s.lock with splitDue := true, haltAfterSplit := true } ∧ u.axes = s.axes) ∧
  (∀ (s : State) (load : Nat), s.sec.debugOpen = true → s.lock.pairBFailed = false → s.lock.pairs[1].halted = false → s.lock.takeover = true →
      (s.mode = .idle ∨ s.mode = .safe ∨ s.mode = .service) →
    ∃ u, exec (.debugHalt true load) s = .next (settle s u) ∧ u.lock.dbgSplitB = true ∧ u.lock.pairs[1].halted = true ∧ u.lock.rejoin = 0 ∧
      u.axes = s.axes) ∧
  (∀ (s : State) (b : Bool), s.lock.pairs[(pairIx b).val].haltHeld = true → s.mode = .idle →
    ∃ u, exec (.dbgSplit b) s = .next (settle s u) ∧ u.lock.pairs[(pairIx b).val].halted = true ∧ u.lock.pairs[(pairIx b).val].haltHeld = false ∧
      (if b then u.lock.dbgSplitB = true else u.lock.dbgSplitA = true)) ∧
  (∀ (s : State) (b : Bool), ∃ u, exec (.debugRelease b) s = .next (settle s u) ∧ u.lock.pairs[(pairIx b).val].halted = false ∧
      u.lock.inhibit = s.lock.inhibit ∧ u.axes = s.axes)

/-- A corrected error is counted and nothing else reacts; an uncorrectable one is counted and has the reaction of its memory. A scrub pass is
counted and forgets the pool words it found good. A frozen capture is written to the store. An engine with a bad signature, a second
overrun in a row or a late reservation fails; at Tm the plan of the engine that failed first is applied. A starved requester and a refused
access are recorded alone (R171, R302, R309, R311, R316, R317, R394, Table 14.6). -/
def Obligations.MemoriesEnginesAndFabricReact : Prop :=
  (∀ (s : State) (b : Fin 8) (address : Nat) (ctxs : List Nat), s.power.inReset = false → s.mode ≠ .sleep →
    ∃ t, exec (.eccUncorrectable (.sramBank b) address ctxs true) s = .next t ∧ t.ecc.corrected[b.val] = satInc 16 s.ecc.corrected[b.val] ∧
      t.ecc.bad = s.ecc.bad ∧ t.rig = s.rig) ∧
  (∀ (s : State) (b : Fin 8) (address : Nat) (ctxs : List Nat), s.power.inReset = false → s.mode ≠ .sleep →
    ∃ u, exec (.eccUncorrectable (.sramBank b) address ctxs false) s = .next (settle s u) ∧ u.ecc.bad[b.val] = satInc 16 s.ecc.bad[b.val] ∧
      (b = 0 → u.lock.pairAFailed = true) ∧ (b = 1 → u.lock.pairBFailed = true)) ∧
  (∀ (s : State) (e : Fin 4) (address : Nat) (ctxs : List Nat), s.power.inReset = false → s.mode ≠ .sleep →
    ∃ t, exec (.eccUncorrectable (.engine e) address ctxs false) s = .next t ∧ t.rig.engines[e.val].failed = true ∧
      t.ecc.otherBad[0] = satInc 8 s.ecc.otherBad[0]) ∧
  (∀ (s : State) (corrected stillBad : List Nat), s.power.inReset = false → s.mode ≠ .sleep →
    ∃ t, exec (.scrubPass corrected stillBad) s = .next t ∧ t.ecc.scrubs = (s.ecc.scrubs + 1) % 2 ^ 32 ∧
      t.ecc.pool = s.ecc.pool.filter (fun p => stillBad.contains p.1) ∧ t.ecc.bad = s.ecc.bad) ∧
  (∀ (s : State) (n : Fin 4), (s.axis n).cap.state = 2 →
    ∃ u, exec (.captureFrozen n) s = .next (settle s u) ∧ (u.axis n).cap.state = 3 ∧ (u.axis n).cap.ring = (s.axis n).cap.ring ∧
      (u.axis n).cap.store = capHeader (s.axis n).cap n 3 ++ (s.axis n).cap.ring.reverse.flatMap capRecordBytes) ∧
  (∀ (s : State) (bad : Nat), firmwareUp s = true → pairAWorks s = true →
    ∃ t, exec (.engineSelftestCheck bad) s = .next t ∧ ∀ e : Fin 4, t.rig.engines[e.val].failed =
      (s.rig.engines[e.val].failed || bitAt bad e.val || !engineRuns s s.rig.engines[e.val])) ∧
  (∀ (s : State) (e : Fin 4) (ctx : Nat), engineRuns s s.rig.engines[e.val] = true → ctx ∈ s.rig.engines[e.val].ctx →
    ∃ t, exec (.contextOverrun e ctx) s = .next t ∧ t.rig.engines[e.val].overruns = satInc 16 s.rig.engines[e.val].overruns ∧
      t.rig.engines[e.val].dispatches = (s.rig.engines[e.val].dispatches + 1) % 2 ^ 32 ∧ ctx ∈ t.rig.engines[e.val].overran ∧
      t.rig.engines[e.val].failed = (s.rig.engines[e.val].failed || decide (ctx ∈ s.rig.engines[e.val].overran))) ∧
  (∀ (s : State) (e : Fin 4) (k : Nat), firmwareUp s = true → pairAWorks s = true → engineRuns s s.rig.engines[e.val] = true →
      k ∈ s.rig.engines[e.val].ctx → ctxU s k 0 1 = 1 →
    ∃ t, exec (.reservationNotStarted e) s = .next t ∧ t.rig.engines[e.val].failed = true ∧ t.rig.engines[e.val].hung = true ∧
      (s.rig.engines[e.val].failed = false → t.rig.migrating = s.rig.migrating ++ [e])) ∧
  (∀ (s : State) (bad : Nat) (e : Fin 4) (rest : List (Fin 4)), s.rig.migrating = e :: rest → pairAWorks s = true →
      migrationDue s (s.rig.declaredAt.headD 0) = true →
    ∃ u, exec (.contextMigrated bad) s = .next (settle s u) ∧ u.rig.migrating = rest ∧ u.rig.engines[e.val].stopped = true ∧
      (∀ n : Fin 4, bitAt s.rig.plans[e.val].shed n.val = true → (u.axis n).core.shed = true ∧ bitAt u.rig.shed n.val = true) ∧
      ∀ n : Fin 4, bitAt s.rig.plans[e.val].trip n.val = true → axPresent s n = true → bitAt (u.axis n).trip.src 21 = true) ∧
  (∀ (s : State) (requester cycles : Nat), requester < 12 → arbPresent s requester = true → starveLimit s < (cycles : Q) →
    ∃ t, exec (.fabricStarved requester cycles) s = .next t ∧
      t.rig = { s.rig with starved := satInc 16 s.rig.starved, maxWait := vupd s.rig.maxWait (Fin.ofNat 12 requester) (max cycles) }) ∧
  (∀ (s : State) (requester address : Nat), requester < 13 → arbPresent s requester = true →
    ∃ t, exec (.fabricAccessFault requester address) s = .next t ∧
      t.rig = { s.rig with accessFaults := satInc 16 s.rig.accessFaults, lastReq := requester } ∧ t.ecc = s.ecc ∧ t.fw = s.fw)

/-- A frame with another opcode, or on a word in part, changes no register and sets HSPI_ERR; a read returns HSTAT and the bytes of the map, 0x00
outside it; a whole word of ATTN_MASK is taken; bytes on a
free slot reach its RAM, and bytes on one that is not FREE are discarded; a ring posts a free slot, and posted slots are served in order
where firmware serves; a bit written 1 clears DONE, FAULTSUM and DOORBELL_OUT bits, except one set at that instant (R60, R61, R65,
R67 to R69). -/
def Obligations.HostWritesReachRegistersAndSlots : Prop :=
  (∀ (s : State) (op address : Nat) (data : List Byte), hspiActs s = true → op ≠ 0x02 → op ≠ 0x0B →
    ∃ u, exec (.registerWrite op address data) s = .next (settle s u) ∧ u.host.hspiErr = true ∧ u.host.ram = s.host.ram ∧
      u.host.maskSrc = s.host.maskSrc ∧ u.host.posted = s.host.posted ∧ u.host.done = s.host.done ∧ u.host.sdo = [BitVec.ofNat 8 (hstat s)]) ∧
  (∀ (s : State) (address : Nat) (data : List Byte), hspiActs s = true →
    ∃ (u : State) (free : Nat → Byte), exec (.registerWrite 0x0B address data) s = .next (settle s u) ∧
      u.host.sdo = BitVec.ofNat 8 (hstat s) :: ((List.range data.length).map fun k => readByte s (free k) (address + k)) ∧
      u.host.hspiErr = (s.host.hspiErr || outsideMap address data.length) ∧ u.host.ram = s.host.ram ∧ u.host.posted = s.host.posted ∧
      u.host.done = s.host.done ∧ u.host.maskSrc = s.host.maskSrc ∧ u.axes = s.axes) ∧
  (∀ (s : State) (busy : Byte) (a : Nat), inMap a = false → readByte s busy a = 0) ∧
  (∀ (s : State) (v : Nat), hspiActs s = true → v < 2 ^ 32 →
    exec (.registerWrite 0x02 32 (leBytes 4 v)) s =
      .next (settle s { s with host := { s.host with sdo := [BitVec.ofNat 8 (hstat s)], maskSrc := bitsOf v 29 3, maskDone := bitsOf v 0 16 } })) ∧
  (∀ (s : State) (b : Byte), hspiActs s = true →
    ∃ u, exec (.registerWrite 0x02 32 [b]) s = .next (settle s u) ∧ u.host.hspiErr = true ∧ u.host.maskSrc = s.host.maskSrc ∧
      u.host.maskDone = s.host.maskDone) ∧
  (∀ (s : State) (n : Fin 16) (address : Nat) (data : List Byte), hspiActs s = true → 6 ≤ s.boot.phase → data ≠ [] → slotAddr n.val ≤ address →
      address + data.length ≤ slotAddr n.val + 512 → slotFree s n.val = true →
    exec (.mailboxWrite address data) s = .next (settle s
      { s with host := { s.host with sdo := [BitVec.ofNat 8 (hstat s)], ram := cellsWrite s.host.ram address data } })) ∧
  (∀ (s : State) (n : Fin 16) (address : Nat) (data : List Byte), hspiActs s = true → 6 ≤ s.boot.phase → data ≠ [] → slotAddr n.val ≤ address →
      address + data.length ≤ slotAddr n.val + 512 → slotFree s n.val = false →
    ∃ u, exec (.mailboxWrite address data) s = .next (settle s u) ∧ u.host.ram = s.host.ram ∧ u.host.hspiErr = true) ∧
  (∀ (s : State) (n : Fin 16), hspiActs s = true → 6 ≤ s.boot.phase → slotFree s n.val = true → mailServed s = false →
    exec (.doorbellRing (2 ^ n.val)) s = .next (settle s { s with host := { s.host with posted := s.host.posted ++ [n.val] } })) ∧
  (∀ (s : State) (n : Fin 16), hspiActs s = true → 6 ≤ s.boot.phase → slotFree s n.val = true → mailServed s = true → romServes s = false →
      s.host.posted = [] →
    exec (.doorbellRing (2 ^ n.val)) s = .next (settle s (intake s n.val (slotBytes s n.val)))) ∧
  (∀ (s : State) (mask : Nat), hspiActs s = true → s.boot.phase < 6 →
    ∃ u, exec (.doorbellRing mask) s = .next (settle s u) ∧ u.host.posted = s.host.posted ∧ u.host.hspiErr = true) ∧
  (∀ (s : State) (mask : Nat), hspiActs s = true →
    ∃ u, exec (.doneClear mask) s = .next (settle s u) ∧ (∀ n : Fin 16, bitAt u.host.done n.val = (bitAt s.host.done n.val && !bitAt mask n.val)) ∧
      u.host.ram = s.host.ram ∧ u.axes = s.axes) ∧
  (∀ (s : State) (mask setNow : Nat), hspiActs s = true →
    ∃ u, exec (.faultsumClear mask setNow) s = .next (settle s u) ∧ u.host.logGap = (bitAt setNow 24 || (s.host.logGap && !bitAt mask 24)) ∧
      u.host.clockLoss = (bitAt setNow 23 || (s.host.clockLoss && !bitAt mask 23)) ∧
      u.host.hspiErr = (bitAt setNow 22 || (s.host.hspiErr && !bitAt mask 22)) ∧ u.axes = s.axes) ∧
  (∀ (s : State) (mask setNow : Nat), hspiActs s = true →
    ∃ u, exec (.doorbellOutClear mask setNow) s = .next (settle s u) ∧ u.host.outSystem = (bitAt setNow 31 || (s.host.outSystem && !bitAt mask 31)) ∧
      u.host.outEvent = (bitAt setNow 30 || (s.host.outEvent && !bitAt mask 30)) ∧
      u.host.outFault = (bitAt setNow 29 || (s.host.outFault && !bitAt mask 29)) ∧
      ∀ n : Fin 16, bitAt u.host.done n.val = (bitAt setNow n.val || (bitAt s.host.done n.val && !bitAt mask n.val)))

/-- A late heartbeat asks every running axis for SS1 and owes one on each assigned transport; a rate-limit window closes where nothing was
counted and is opened again where something was; the SYS commands that report answer registers, versions, times and the oldest
events, which leave the queue; a heartbeat on SPI is noted (R80, R81, R407, R586). -/
def Obligations.HeartbeatWindowsAndReports : Prop :=
  (∀ (s : State) (limit : Nat), beatTimeout s = some limit → s.boot.phase = 15 → firmwareUp s = true → pairAWorks s = true → s.host.beatLost = false → beatLate s limit = true →
    ∃ u, exec .hostHeartbeatLost s = .next (settle s u) ∧ u.host.beatLost = true ∧ u.host.owedSpi = true ∧ u.host.owedCan = (hostCan s).isSome ∧
      ∀ n, axPresent s n = true → isRun (s.axis n).core.st = true → ((s.axis n).obs.inUse = false ∨ (s.axis n).obs.st ≠ .recapturing) →
        (u.axis n).core.ss1Asked = true) ∧
  (∀ (s : State) (code inst : Nat) (w : RateWindow), (s.host.windows.find? fun w => w.code == code && w.instance_ == inst) = some w →
      w.opened + 100000000 ≤ s.clk.now →
    ∃ u, exec (.rateLimitWindowEnd code inst) s = .next (settle s u) ∧
      u.host.windows = (s.host.windows.filter fun x => !(x.code == code && x.instance_ == inst)) ++
        (if w.count = 0 then [] else [{ w with count := 0, opened := s.clk.now }]) ∧
      (w.count = 0 → u.host.events = s.host.events ∧ u.log = s.log)) ∧
  (∀ (s : State) (slot : Nat) (j : Job) (img : List Byte), Ready s slot 0x0101 j → s.cfg.active = some img →
    exec (.sysStatus slot) s = .next (settle s (respond s j 0 (leBytes 4 (regMode s) ++ leBytes 4 (regFaultsum s) ++ leBytes 8 s.clk.drive.toNat ++
      [BitVec.ofNat 8 (reefHighest s), 0, 0, 0] ++ leBytes 4 (imgGeneration img))))) ∧
  (∀ (s : State) (slot : Nat) (j : Job), Ready s slot 0x0102 j → romServes s = false →
    exec (.sysVersion slot) s = .next (settle s (respond s j 0 (leBytes 4 0x00030002 ++ leBytes 4 Config.romVersion ++ leBytes 4 (regUnits s) ++ leBytes 4 regId)))) ∧
  (∀ (s : State) (slot : Nat) (j : Job), Ready s slot 0x0106 j →
    exec (.sysTime slot) s = .next (settle s (respond s j 0 (leBytes 8 s.clk.drive.toNat ++ leBytes 8 s.clk.rtc)))) ∧
  (∀ (s : State) (slot n : Nat) (j : Job), Ready s slot 0x0107 j → n = min (j.u 0 1) (if j.proto = 1 then 3 else 30) →
    exec (.sysEvents slot) s = .next (settle s (respond { s with host := { s.host with events := s.host.events.drop n } } j 0
      ([BitVec.ofNat 8 (s.host.events.take n).length, BitVec.ofNat 8 (min 255 (s.host.events.drop n).length), 0, 0] ++
        (s.host.events.take n).flatMap entryBytes)))) ∧
  (∀ (s : State) (slot : Nat) (j : Job), Ready s slot 0x0108 j → spiSlot slot = true →
    ∃ u, exec (.sysHeartbeat slot) s = .next (settle s (respond u j 0 (leBytes 4 (j.u 0 4)))) ∧ u.host.beatSpi = s.clk.now ∧ u.host.owedSpi = false ∧
      u.host.beatLost = (s.host.beatLost && s.host.owedCan))

/-- CFG.WRITE_BEGIN erases a slot whose twin is whole, CFG.WRITE_DATA programs inside the size given, CFG.WRITE_END and CFG.STAGE check in the
background; an image that fails leaves the slot INVALID, one that passes CURRENT or PENDING; a stage that passes makes the shadow set.
CFG.DIGEST answers generation, digest and difference; CFG.DISCARD deletes the shadow set; a twin copy ends CURRENT (R84, R85, R90, R91, R95, R98
to R100). -/
def Obligations.ConfigurationSlotsAreWrittenAndStaged : Prop :=
  (∀ (s : State) (slot : Nat) (j : Job) (b : Bool), Ready s slot 0x0201 j → j.u 0 1 = (if b then 1 else 0) → j.u 4 4 ≤ 262144 →
      ((s.slot (!b)).state = .current ∨ (((s.slot (!b)).state = .invalid ∨ (s.slot (!b)).state = .differing) ∧ (s.slot b).state ≠ .current)) →
    ∃ u, exec (.cfgWriteBegin slot) s = .next (settle s u) ∧ (u.slot b).bytes = [] ∧ (u.slot b).state = .invalid ∧ u.slot (!b) = s.slot (!b) ∧
      u.cfg.writing = none ∧ u.cfg.active = s.cfg.active) ∧
  (∀ (s : State) (slot : Nat) (j : Job) (b : Bool), Ready s slot 0x0201 j → j.u 0 1 = (if b then 1 else 0) →
      ((s.slot (!b)).state = .pending ∨ (s.slot (!b)).state = .copying ∨ ((s.slot b).state = .current ∧ (s.slot (!b)).state ≠ .current)) →
    exec (.cfgWriteBegin slot) s = .next (settle s (badParameter s j))) ∧
  (∀ (s : State) (slot size : Nat) (j : Job) (b : Bool), Ready s slot 0x0202 j → s.cfg.writing = some (b, size) → 4 ≤ j.payload.length →
      j.u 0 4 % 4 = 0 → j.u 0 4 + (j.payload.drop 4).length ≤ size → (j.payload.drop 4).length ≤ (if j.proto = 1 then 48 else 488) →
    ∃ u, exec (.cfgWriteData slot) s = .next (settle s (respond u j 0 [])) ∧
      u = s.setSlot b { s.slot b with bytes := programSlot (s.slot b).bytes (j.u 0 4) (j.payload.drop 4) }) ∧
  (∀ (s : State) (slot size : Nat) (j : Job) (b : Bool), Ready s slot 0x0203 j → s.cfg.writing = some (b, size) → j.u 0 1 = (if b then 1 else 0) →
    exec (.cfgWriteEnd slot) s = .next (settle s (markStarted s slot))) ∧
  (∀ (s : State) (slot : Nat) (j : Job) (img : List Byte), Ready s slot 0x0204 j → j.u 0 1 ≤ 3 → digestSet s (j.u 0 1) = some img →
    exec (.cfgDigest slot) s = .next (settle s (respond s j 0 (leBytes 4 (imgGeneration img) ++ imgDigest img ++ leBytes 2 (digestDiff s (j.u 0 1)))))) ∧
  (∀ (s : State) (slot : Nat) (j : Job), Ready s slot 0x0205 j → j.u 0 1 ≤ 1 → (s.slot (j.u 0 1 == 1)).state = .pending → s.cfg.tack = none →
    exec (.cfgStage slot) s = .next (settle s (markStarted s slot))) ∧
  (∀ (s : State) (slot : Nat) (j : Job), Ready s slot 0x0205 j → j.u 0 1 ≤ 1 → (s.slot (j.u 0 1 == 1)).state ≠ .pending →
    exec (.cfgStage slot) s = .next (settle s (badParameter s j))) ∧
  (∀ (s : State) (slot : Nat) (j : Job), Ready s slot 0x0207 j → s.cfg.tack = none →
    ∃ u, exec (.cfgDiscard slot) s = .next (settle s (respond u j 0 [])) ∧ u.cfg.shadow = none ∧ u.cfg.active = s.cfg.active ∧
      (s.cfg.slotA.state = .pending → u.cfg.slotA.state = .copying)) ∧
  (∀ (s : State) (slot : Nat) (j : Job), hostServed s = true → runningJob s slot = some j → j.code = 0x0201 →
    exec (.longCommandComplete slot) s = .next (settle s (respond { s with cfg := { s.cfg with writing := some (j.u 0 1 == 1, j.u 4 4) } } j 0 []))) ∧
  (∀ (s : State) (slot : Nat) (j : Job), hostServed s = true → runningJob s slot = some j → j.code = 0x0203 →
    ∃ u, exec (.longCommandComplete slot) s = .next (settle s u) ∧ u.cfg.writing = none ∧ u.cfg.active = s.cfg.active ∧
      (u.slot (j.u 0 1 == 1)).state = (if (loadCheck s (slotImg (s.slot (j.u 0 1 == 1))) s.sec.cert).isSome then .invalid
        else if s.cfg.active = some (slotImg (s.slot (j.u 0 1 == 1))) then .current else .pending)) ∧
  (∀ (s : State) (slot : Nat) (j : Job), hostServed s = true → runningJob s slot = some j → j.code = 0x0205 →
    ∃ u, exec (.longCommandComplete slot) s = .next (settle s u) ∧ u.cfg.active = s.cfg.active ∧
      u.cfg.shadow = (if (stageCheck s (slotImg (s.slot (j.u 0 1 == 1)))).isNone then some (slotImg (s.slot (j.u 0 1 == 1))) else s.cfg.shadow)) ∧
  (∀ (s : State) (img : List Byte), pairAWorks s = true → s.cfg.active = some img → s.cfg.slotA.state = .copying →
    ∃ u, exec .twinCopyDone s = .next (settle s u) ∧ u.cfg.slotA.state = .current ∧ u.cfg.slotA.bytes = img ∧ u.cfg.slotB = s.cfg.slotB ∧
      u.cfg.diff = .same) ∧
  (∀ (s : State) (img : List Byte), pairAWorks s = true → s.cfg.active = some img → s.cfg.slotA.state ≠ .copying → s.cfg.slotB.state = .copying →
    ∃ u, exec .twinCopyDone s = .next (settle s u) ∧ u.cfg.slotB.state = .current ∧ u.cfg.slotB.bytes = img ∧ u.cfg.slotA = s.cfg.slotA)

/-- CFG.TACK with a reason is refused with it; without one it sets a swap instant at which no set has changed yet; at that instant the shadow
set becomes the active set (R101 to R103). -/
def Obligations.TacksWaitForTheirInstantAndSwap : Prop :=
  (∀ (s : State) (slot r : Nat) (j : Job), Ready s slot 0x0206 j → tackReason s (j.u 0 4) false = some r →
    exec (.cfgTack slot) s = .next (settle s (respond s j evTackRefused (leBytes 2 r)))) ∧
  (∀ (s : State) (slot : Nat) (j : Job) (img : List Byte), Ready s slot 0x0206 j → tackReason s (j.u 0 4) false = none → s.cfg.shadow = some img →
      (s.ring.role ≠ .master ∨ othersInStep s = []) →
    ∃ u k, exec (.cfgTack slot) s = .next (settle s u) ∧ u.cfg.tack = some k ∧ k.ring = false ∧ u.cfg.active = s.cfg.active ∧
      u.cfg.shadow = some img ∧ (referenceAxis s = none → k.ts % 10000 = 0 ∧ s.clk.drive.toNat + 40000 ≤ k.ts)) ∧
  (∀ (s : State) (slot : Nat) (j : Job) (img : List Byte), Ready s slot 0x0206 j → tackReason s (j.u 0 4) false = none → s.cfg.shadow = some img →
      s.ring.role = .master → othersInStep s ≠ [] →
    ∃ u k r, exec (.cfgTack slot) s = .next (settle s u) ∧ u.cfg.tack = some k ∧ k.ring = true ∧ u.cfg.active = s.cfg.active ∧
      u.cfg.shadow = some img ∧ u.ring.tack = some r ∧ r.acked = [] ∧ r.slot = slot) ∧
  (∀ (s : State) (k : Tack) (a b : List Byte), pairAWorks s = true → s.cfg.tack = some k → s.cfg.active = some a → s.cfg.shadow = some b → k.ts ≤ s.clk.drive.toNat →
      s.cfg.prev = none →
    ∃ u, exec .tackSwap s = .next (settle s u) ∧ u.cfg.active = some b ∧ u.cfg.shadow = none ∧ u.mode = s.mode) ∧
  (∀ (s : State) (k : Tack) (a b : List Byte), s.cfg.tack = some k → s.cfg.active = some a → s.cfg.shadow = some b → s.clk.drive.toNat < k.ts →
    exec .tackSwap s = .next s)

/-- DIAG.SELFTEST answers a count of 20 and one result per unit, 2 for an absent one and 0 or 1 for a tested one; DIAG.MAP_READ answers words
of a known map and refuses an unknown one and too many words; DIAG.MAP_WRITE changes what its word names and refuses any other word;
DIAG.CAPTURE answers the written bytes and refuses a range beyond the store or longer than 492 (R45, R82, R171). -/
def Obligations.DiagnosticsAreReadClearedAndCaptured : Prop :=
  (∀ (s : State) (slot : Nat) (j : Job), Ready s slot 0x0801 j →
    ∃ t p, exec (.diagSelftest slot) s = .next (settle s (respond t j 0 ([20, 0, 0, 0] ++ p))) ∧ p.length = 20 ∧
      (∀ u, u < 20 → unitPresent s u = false → p[u]? = some 2) ∧
      (∀ u, u < 20 → unitPresent s u = true → s.boot.selftest.getD u 2 < 2 → p[u]? = some (BitVec.ofNat 8 (s.boot.selftest.getD u 2))) ∧
      (∀ u, u < 20 → unitPresent s u = true → s.boot.selftest.getD u 2 = 2 → p[u]? = some 0 ∨ p[u]? = some 1) ∧
      t.host = s.host ∧ t.log = s.log ∧ t.axes = s.axes) ∧
  (∀ (s : State) (slot : Nat) (j : Job) (ws : List Nat), Ready s slot 0x0802 j → j.u 8 1 ≤ (if j.proto = 1 then 12 else 123) →
      diagMap (fabricLook s (j.u 0 2)) (j.u 0 2) (fun k => Config.freeNat (s.free + k)) = some ws →
    ∃ t, exec (.diagMapRead slot) s = .next (settle s (respond t j 0 (leBytes 4 ((ws.drop (j.u 4 4)).take (j.u 8 1)).length ++
        ((ws.drop (j.u 4 4)).take (j.u 8 1)).flatMap (leBytes 4)))) ∧ t.host = s.host ∧ t.log = s.log ∧ t.axes = s.axes) ∧
  (∀ (s : State) (slot : Nat) (j : Job), Ready s slot 0x0802 j →
      ((if j.proto = 1 then 12 else 123) < j.u 8 1 ∨ diagMap (fabricLook s (j.u 0 2)) (j.u 0 2) (fun k => Config.freeNat (s.free + k)) = none) →
    exec (.diagMapRead slot) s = .next (settle s (badParameter s j))) ∧
  (∀ (s : State) (slot : Nat) (j : Job), Ready s slot 0x0803 j →
    exec (.diagMapWrite slot) s = .next (settle s (match mapWrite s (j.u 0 2) (j.u 4 4) (j.u 8 4) with
      | some t => respond t j 0 []
      | none => badParameter s j))) ∧
  (∀ (s : State) (slot : Nat) (j : Job), Ready s slot 0x0803 j → j.u 0 2 = 0x111 → j.u 4 4 = 6 → bitAt (j.u 8 4) 0 = true →
    exec (.diagMapWrite slot) s = .next (settle s (respond { s with log := { s.log with droppedTotal := 0 } } j 0 []))) ∧
  (∀ (s : State) (slot : Nat) (j : Job), Ready s slot 0x0804 j → j.u 4 2 ≤ (if j.proto = 1 then 52 else 492) → j.u 0 4 + j.u 4 2 ≤ 0x100000 →
    ∃ t p, exec (.diagCapture slot) s = .next (settle s (respond t j 0 p)) ∧ p.length = j.u 4 2 ∧ t.axes = s.axes ∧ t.host = s.host ∧
      ∀ (n : Fin 4) (k : Nat) (b : Byte), n.val * 0x40000 + k = j.u 0 4 → k < 20 → 0 < j.u 4 2 → (s.axis n).cap.store[k]? = some b → p[0]? = some b) ∧
  (∀ (s : State) (slot : Nat) (j : Job), Ready s slot 0x0804 j → (492 < j.u 4 2 ∨ 0x100000 < j.u 0 4 + j.u 4 2) →
    exec (.diagCapture slot) s = .next (settle s (badParameter s j)))

/-- A flush writes the oldest staged record at the end of the region and shows the store in order; a write that is not accepted clears STORE_OK and
keeps the record; a stalled store locks; a signed checkpoint closes the open block over its chain value (R520, R529, R531 to R533). -/
def Obligations.TheLogFlushesStallsAndSigns : Prop :=
  (∀ (s : State) (erase program : Q) (r : LogRecord) (rest : List LogRecord), s.log.staged = r :: rest → s.power.inReset = false → s.mode ≠ .sleep →
      s.log.resumed = true → regionRecords s ≠ 0 → storeAccepts s r.index erase program = true →
    ∃ u, exec (.logFlush erase program) s = .next (settle s u) ∧ u.log.region.getLast? = some r ∧ u.log.storeOk = true ∧ u.log.stalled = false ∧
      u.log.writeAt = s.clk.now ∧ u.log.exported = s.log.exported ∧ s.log.next ≤ u.log.next ∧ u.axes = s.axes ∧ u.mode = s.mode ∧
      (r.index % regionRecords s % sectorRecords s ≠ 0 → u.log.region = s.log.region ++ [r] ∧ u.log.gaps = s.log.gaps ∧ u.host = s.host)) ∧
  (∀ (s : State) (erase program : Q) (r : LogRecord) (rest : List LogRecord), s.log.staged = r :: rest → s.power.inReset = false → s.mode ≠ .sleep → s.log.resumed = true → regionRecords s ≠ 0 →
      storeAccepts s r.index erase program = false →
    exec (.logFlush erase program) s = .next (settle s { s with log := { s.log with storeOk := false } })) ∧
  (∀ (s : State) (erase program : Q), s.log.staged = [] → exec (.logFlush erase program) s = .next s) ∧
  (∀ (s : State), s.log.staged ≠ [] → s.log.stalled = false → firmwareUp s = true → pairBTasksWork s = true →
      s.log.writeAt + ticksOf (cfgF s secLog 0 32) ≤ s.clk.now →
    ∃ u, exec .logStall s = .next (settle s u) ∧ u.log.stalled = true ∧ u.log.storeOk = false ∧ u.sec.locked = true ∧ u.sec.debugOpen = false ∧
      u.sec.tamperHeld = s.sec.tamperHeld ||| 2 ^ 23 ∧ u.sec.erased = s.sec.erased ∧ u.sec.logKey = s.sec.logKey ∧ u.mode = s.mode ∧ u.axes = s.axes) ∧
  (∀ (s : State) (f : Nat), s.log.signing = true → s.log.blockFirst = some f → 2 ≤ logFree s →
    ∃ u c, exec .checkpointSigned s = .next (settle s u) ∧ u.log.ckpts = s.log.ckpts ++ [c] ∧ c.first = f ∧ c.last = s.log.next + 1 ∧
      c.hash = s.log.chain ∧ (s.sec.logKey = none → c.signature = List.replicate 64 0) ∧
      (∀ k, s.sec.logKey = some k → s.sec.erased = false → s.sec.suspended = false → c.signature = ecdsaSign k (sha256 (leBytes 8 f ++ s.log.chain))) ∧
      u.sec = s.sec ∧ u.host = s.host ∧ u.axes = s.axes) ∧
  (∀ (s : State), firmwareUp s = true → pairBTasksWork s = true → s.log.resumed = true →
      s.log.countersAt + ticksOf (cfgF s secLog 0 28) ≤ s.clk.now →
    ∃ u, exec .countersRecord s = .next (settle s u) ∧ u.log.countersAt = s.clk.now ∧ u.log.counters = s.log.counters ∧ s.log.next ≤ u.log.next ∧ u.axes = s.axes ∧
      u.host = s.host ∧ u.mode = s.mode)

/-- LOG.INFO answers the newest, oldest and exported indices and the gaps; LOG.READ answers retained records from an index and begins an export;
LOG.EXPORTED moves the exported index up, at most to newest + 1; LOG.CHECKPOINT answers the block that holds an index; LOG.COUNTERS answers the
live counters; 10 s without a read end an export (R536 to R538). -/
def Obligations.LogCommandsReportAndExport : Prop :=
  (∀ (s : State) (slot : Nat) (j : Job), Ready s slot 0x0501 j → s.log.next ≠ 0 →
    exec (.logInfo slot) s = .next (settle s (respond s j 0 (leBytes 8 (s.log.next - 1) ++ leBytes 8 (oldestIndex s) ++ leBytes 8 s.log.exported ++
      leBytes 4 s.log.gaps)))) ∧
  (∀ (s : State) (slot i n : Nat) (j : Job) (rs : List LogRecord), Ready s slot 0x0502 j → i = j.u 0 8 → n = j.u 8 1 → 0 < n → n ≤ 7 →
      oldestIndex s ≤ i → i < s.log.next → rs = ((s.log.region ++ s.log.staged).filter fun r => decide (i ≤ r.index)).take n →
      4 + (rs.flatMap recordBytes).length ≤ responseLimit j.proto →
    ∃ u, exec (.logRead slot) s = .next (settle s (respond u j 0 ([BitVec.ofNat 8 rs.length, 0, 0, 0] ++ rs.flatMap recordBytes))) ∧
      u.log.exporting = (s.log.exported != s.log.next) ∧ u.log.exportAt = s.clk.now ∧ u.log.region = s.log.region ∧ u.log.staged = s.log.staged) ∧
  (∀ (s : State) (slot : Nat) (j : Job), Ready s slot 0x0502 j → (j.u 0 8 < oldestIndex s ∨ s.log.next ≤ j.u 0 8) →
    exec (.logRead slot) s = .next (settle s (badParameter s j))) ∧
  (∀ (s : State) (slot : Nat) (j : Job), Ready s slot 0x0503 j → s.log.exported ≤ j.u 0 8 → j.u 0 8 ≤ s.log.next →
    ∃ u, exec (.logExported slot) s = .next (settle s (respond u j 0 [])) ∧ u.log.exported = j.u 0 8 ∧
      u.log.exporting = (s.log.exporting && decide (j.u 0 8 ≠ s.log.next)) ∧ u.log.exportAt = s.clk.now ∧ u.log.region = s.log.region) ∧
  (∀ (s : State) (slot : Nat) (j : Job), Ready s slot 0x0503 j → (j.u 0 8 < s.log.exported ∨ s.log.next < j.u 0 8) →
    exec (.logExported slot) s = .next (settle s (badParameter s j))) ∧
  (∀ (s : State) (slot : Nat) (j : Job) (c : Checkpoint), Ready s slot 0x0504 j → oldestIndex s ≤ j.u 0 8 →
      (s.log.ckpts.find? fun c => decide (c.first ≤ j.u 0 8) && decide (j.u 0 8 ≤ c.last)) = some c →
    exec (.logCheckpoint slot) s = .next (settle s (respond s j 0 (leBytes 8 c.first ++ c.hash ++ c.signature)))) ∧
  (∀ (s : State) (slot : Nat) (j : Job) (n : Fin 4), Ready s slot 0x0505 j → j.u 0 1 = n.val →
    exec (.logCounters slot) s = .next (settle s (respond s j 0 (i64Bytes s.log.counters[n].revolutions ++ leBytes 8 s.log.counters[n].motorWh ++
      leBytes 8 s.log.counters[n].regenWh ++ leBytes 8 s.log.counters[n].seconds)))) ∧
  (∀ (s : State), s.log.exporting = true → pairBTasksWork s = true →
    exec .exportTimeout s = .next (if s.clk.now < s.log.exportAt + 1000000000 then s else settle s { s with log := { s.log with exporting := false } }))

/-- The second differing sample of a mesh, light, and the fourth open sample of an enclosure switch set to erase take the keys and lock; an
enclosure switch not set so, and the second sample of a temperature out of range, lock alone; earlier samples only count, one that shows
nothing counts from 0, the first sample of a mesh after the release is not compared (R552), and a source that is not enabled does nothing. None of these changes the mode or an axis. A glitch suspends the key
register, takes the nonces, is counted, trips every present axis and latches SAFE, and the third within 24 h locks; its reset comes once every
axis freewheels, is OFF or has been discharged (R520 to R522). -/
def Obligations.TamperSourcesLockEraseOrReset : Prop :=
  (∀ (s : State) (k : Fin 2), bitAt s.sec.tamperCfg k.val = true → meshSampled s = true → s.sec.meshFirst[k.val] = false → s.sec.meshRun[k.val] = 1 →
    ∃ u, exec (.tamperMesh (k == 1) true) s = .next (settle s u) ∧ u.sec.logKey = none ∧ u.sec.canary = false ∧ u.sec.erased = true ∧
      u.sec.locked = true ∧ u.sec.debugOpen = false ∧ (∀ k : Fin 3, u.sec.nonces[k] = none) ∧ u.sec.meshRun[k.val] = 2 ∧
      u.sec.tamperHeld = s.sec.tamperHeld ||| 2 ^ (30 + k.val) ∧ u.sec.life = s.sec.life ∧ u.sec.fuses = s.sec.fuses ∧
      u.mode = s.mode ∧ u.axes = s.axes) ∧
  (∀ (s : State) (k : Fin 2), bitAt s.sec.tamperCfg k.val = true → meshSampled s = true → s.sec.meshFirst[k.val] = false → s.sec.meshRun[k.val] = 0 →
    exec (.tamperMesh (k == 1) true) s = .next (settle s { s with sec := { s.sec with meshRun := s.sec.meshRun.set k.val 1 } })) ∧
  (∀ (s : State) (k : Fin 2), bitAt s.sec.tamperCfg k.val = true → meshSampled s = true → s.sec.meshFirst[k.val] = false →
    exec (.tamperMesh (k == 1) false) s = .next (settle s { s with sec := { s.sec with meshRun := s.sec.meshRun.set k.val 0 } })) ∧
  (∀ (s : State) (k : Fin 2) (differs : Bool), bitAt s.sec.tamperCfg k.val = true → meshSampled s = true → s.sec.meshFirst[k.val] = true →
    exec (.tamperMesh (k == 1) differs) s = .next (settle s { s with sec := { s.sec with meshFirst := s.sec.meshFirst.set k.val false } })) ∧
  (∀ (s : State) (k : Fin 2) (differs : Bool), (bitAt s.sec.tamperCfg k.val = false ∨ meshSampled s = false) →
    exec (.tamperMesh (k == 1) differs) s = .next s) ∧
  (∀ (s : State),
    ∃ u, exec .tamperLight s = .next (settle s u) ∧ u.sec.logKey = none ∧ u.sec.canary = false ∧ u.sec.erased = true ∧ u.sec.locked = true ∧
      u.sec.debugOpen = false ∧ u.sec.tamperHeld = s.sec.tamperHeld ||| 2 ^ 29 ∧ u.mode = s.mode ∧ u.axes = s.axes) ∧
  (∀ (s : State) (k : Fin 2), bitAt s.sec.tamperCfg (2 + k.val) = true → s.sec.encRun[k.val] = 3 →
    ∃ u, exec (.tamperEnclosure (k == 1) (bitAt s.sec.tamperCfg (5 + k.val))) s = .next (settle s u) ∧ u.sec.locked = true ∧ u.sec.debugOpen = false ∧
      u.sec.encRun[k.val] = 4 ∧ u.sec.tamperHeld = s.sec.tamperHeld ||| 2 ^ (27 + k.val) ∧ u.mode = s.mode ∧ u.axes = s.axes ∧
      (if bitAt s.sec.tamperCfg 4 then u.sec.erased = true ∧ u.sec.logKey = none
       else u.sec.erased = s.sec.erased ∧ u.sec.logKey = s.sec.logKey ∧ u.sec.nonces = s.sec.nonces)) ∧
  (∀ (s : State) (k : Fin 2), bitAt s.sec.tamperCfg (2 + k.val) = true → s.sec.encRun[k.val] < 3 →
    exec (.tamperEnclosure (k == 1) (bitAt s.sec.tamperCfg (5 + k.val))) s =
      .next (settle s { s with sec := { s.sec with encRun := s.sec.encRun.set k.val (s.sec.encRun[k.val] + 1) } })) ∧
  (∀ (s : State) (k : Fin 2), bitAt s.sec.tamperCfg (2 + k.val) = true →
    exec (.tamperEnclosure (k == 1) (!bitAt s.sec.tamperCfg (5 + k.val))) s =
      .next (settle s { s with sec := { s.sec with encRun := s.sec.encRun.set k.val 0 } })) ∧
  (∀ (s : State) (k : Fin 2) (level : Bool), bitAt s.sec.tamperCfg (2 + k.val) = false → exec (.tamperEnclosure (k == 1) level) s = .next s) ∧
  (∀ (s : State) (c : Q), (c < -55 ∨ 165 < c) → s.sec.tempRun = 1 →
    ∃ u, exec (.tamperTemperature c) s = .next (settle s u) ∧ u.sec.locked = true ∧ u.sec.debugOpen = false ∧ u.sec.tempRun = 2 ∧
      u.sec.tamperHeld = s.sec.tamperHeld ||| 2 ^ 26 ∧ u.sec.erased = s.sec.erased ∧ u.sec.logKey = s.sec.logKey ∧ u.mode = s.mode ∧ u.axes = s.axes) ∧
  (∀ (s : State) (c : Q), (c < -55 ∨ 165 < c) → s.sec.tempRun = 0 →
    exec (.tamperTemperature c) s = .next (settle s { s with sec := { s.sec with tempRun := 1 } })) ∧
  (∀ (s : State) (c : Q), -55 ≤ c → c ≤ 165 → exec (.tamperTemperature c) s = .next (settle s { s with sec := { s.sec with tempRun := 0 } })) ∧
  (∀ (s : State) (clock : Bool), s.mode ≠ .sleep → s.power.inReset = false →
    ∃ u, exec (.tamperGlitch clock) s = .next (settle s u) ∧ u.sec.suspended = true ∧ u.sec.glitchReset = true ∧ (∀ k : Fin 3, u.sec.nonces[k] = none) ∧
      u.sec.glitchTotal = satInc 8 s.sec.glitchTotal ∧ u.sec.glitchTimes = s.clk.rtc :: recentGlitches s ∧
      u.sec.locked = (s.sec.locked || decide (2 ≤ (recentGlitches s).length)) ∧ u.sec.erased = s.sec.erased ∧ u.sec.logKey = s.sec.logKey ∧
      ((s.mode = .idle ∨ s.mode = .run ∨ s.mode = .service) → u.mode = .safe) ∧
      ∀ n, axPresent s n = true → bitAt (u.axis n).trip.src 21 = true ∧ evTamperGlitch ∈ (u.axis n).trip.fwCauses) ∧
  (∀ (s : State), s.sec.glitchReset = true →
      (∀ n, axPresent s n = true → (s.axis n).core.st = .off ∨ ((s.axis n).core.st = .axisSafe ∧ ((s.axis n).core.sub = .freewheel ∨ (s.axis n).core.discharged = true))) →
    ∃ t, exec .glitchReset s = .next t ∧ t.boot.phase = 1 ∧ t.power.inReset = false ∧ t.boot.wakeCause = s.power.wakeCause.getD 6 ∧
      t.sec.fuses = s.sec.fuses ∧ t.sec.life = s.sec.life) ∧
  (∀ (s : State) (n : Fin 4), s.sec.glitchReset = true → axPresent s n = true → isRun (s.axis n).core.st = true →
    exec .glitchReset s = .next s)

/-- A nonce issued by SEC.CHALLENGE takes the place of the one of its purpose, and the other two stay (R525). -/
def Obligations.ChallengeReplacesTheNonceOfItsPurpose : Prop :=
  (∀ (s : State) (slot : Nat) (j : Job) (k : Fin 3), Ready s slot 0x0901 j → j.u 0 1 = k.val →
    ∃ u bs, exec (.secChallenge slot) s = .next (settle s (respond u j 0 bs)) ∧ bs.length = 16 ∧
      u.sec.nonces[k] = some ⟨bs, s.clk.now⟩ ∧ (∀ m : Fin 3, m ≠ k → u.sec.nonces[m] = s.sec.nonces[m]) ∧ u.host = s.host ∧ u.axes = s.axes) ∧
  (∀ (s : State) (slot : Nat) (j : Job), Ready s slot 0x0901 j → 3 ≤ j.u 0 1 →
    exec (.secChallenge slot) s = .next (settle s (badParameter s j)))

/-- A signed security command uses its nonce up; without one, or with a signature that fails, it is answered with AUTH_REQUIRED. SEC.UNLOCK permits SERVICE,
opens debug in it, or returns the device to the field with the return key; SEC.CLEAR_LOCK clears LOCK and its counts and replaces an erased log
key, unless a source is active; SEC.CERT is refused while LOCK holds and installs a certificate that passes; SEC.STATUS answers its two words
(R515 to R517, R523, R524, R539 to R542). -/
def Obligations.SecurityCommandsNeedTheirSignature : Prop :=
  (∀ (s : State) (slot : Nat) (j : Job), Ready s slot 0x0902 j → nonceOf s 0 = none → exec (.secUnlock slot) s = .next (settle s (authRequired s j))) ∧
  (∀ (s : State) (slot : Nat) (j : Job) (nonce d : List Byte), Ready s slot 0x0902 j → nonceOf s 0 = some nonce → d = authDigest s nonce 0 →
    ∃ u status, exec (.secUnlock slot) s = .next (settle s (respond u j status [])) ∧ u.sec.nonces[(0 : Fin 3)] = none ∧ u.mode = s.mode ∧
      (if s.sec.life = .production ∧ s.mode = .service ∧ ((ecdsaKeys d (slice j.payload 0 64)).any fun k => sha256 k == s.sec.fuses.returnKeyHash) = true then
        status = 0 ∧ u.sec.life = .fieldReturn ∧ u.sec.logKey = none ∧ u.sec.erased = true ∧ u.power.resetDue = some 7
       else u.sec.life = s.sec.life ∧
        if ecdsaVerify (authKey s) d (slice j.payload 0 64) = false then status = evAuthRequired ∧ u.sec.authFails = satInc 8 s.sec.authFails ∧ (u.sec.debugOpen = true → s.sec.debugOpen = true)
        else if s.mode ≠ .service ∧ serviceLife s.sec.life = false then status = evAuthRequired ∧ u.sec.permitUntil = s.sec.permitUntil ∧ u.sec.debugOpen = s.sec.debugOpen
        else if s.mode ≠ .service then status = 0 ∧ u.sec.permitUntil = some (s.clk.now + 1000000000) ∧ u.sec.debugOpen = s.sec.debugOpen
        else if s.sec.life = .development ∨ s.sec.life = .fieldReturn then status = 0 ∧ u.sec.debugOpen = true
        else status = evAuthRequired ∧ u.sec.debugOpen = s.sec.debugOpen)) ∧
  (∀ (s : State) (slot : Nat) (j : Job), Ready s slot 0x0903 j → nonceOf s 1 = none →
    ∃ u, exec (.secClearLock slot) s = .next (settle s (authRequired u j)) ∧ u.sec.locked = s.sec.locked ∧ u.sec.tamperHeld = s.sec.tamperHeld) ∧
  (∀ (s : State) (slot : Nat) (j : Job) (nonce : List Byte), Ready s slot 0x0903 j → nonceOf s 1 = some nonce →
    ∃ u status p, exec (.secClearLock slot) s = .next (settle s (respond u j status p)) ∧ u.sec.nonces[(1 : Fin 3)] = none ∧ u.mode = s.mode ∧
      u.axes = s.axes ∧ u.sec.life = s.sec.life ∧
      (if ecdsaVerify (authKey s) (authDigest s nonce 1) (slice j.payload 0 64) = false then
        status = evAuthRequired ∧ (s.sec.locked = true → u.sec.locked = true) ∧ u.sec.erased = s.sec.erased
       else if meshActive s || encActive s || tempActive s then
        status = evClearRefusedSourceActive ∧ u.sec.locked = s.sec.locked ∧ u.sec.tamperHeld = s.sec.tamperHeld ∧ u.sec.erased = s.sec.erased
       else status = 0 ∧ u.sec.locked = false ∧ u.sec.tamperHeld = 0 ∧ u.sec.glitchTimes = [] ∧ u.sec.authTimes = [] ∧ u.sec.erased = false ∧
        (if s.sec.erased then u.sec.logKey.isSome = true ∧ u.sec.canary = true else u.sec.logKey = s.sec.logKey))) ∧
  (∀ (s : State) (slot : Nat) (j : Job), Ready s slot 0x0904 j → s.sec.locked = true → exec (.secCert slot) s = .next (settle s (refuse s j rsLocked))) ∧
  (∀ (s : State) (slot : Nat) (j : Job), Ready s slot 0x0904 j → s.sec.locked = false → nonceOf s 2 ≠ some (slice j.payload 24 16) →
    exec (.secCert slot) s = .next (settle s (authRequired s j))) ∧
  (∀ (s : State) (slot : Nat) (j : Job) (c : List Byte), Ready s slot 0x0904 j → s.sec.locked = false → c = j.payload →
      nonceOf s 2 = some (slice c 24 16) →
    ∃ u status, exec (.secCert slot) s = .next (settle s (respond u j status [])) ∧ u.sec.nonces[(2 : Fin 3)] = none ∧ s.sec.certFloor ≤ u.sec.certFloor ∧
      (status ≠ 0 → u.sec.cert = s.sec.cert ∧ u.sec.certFloor = s.sec.certFloor) ∧
      (status = 0 → u.sec.cert = some c ∧ u.sec.certFloor = certSerial c ∧ u.sec.certMissing = false ∧ certShape s c = true ∧
        certSigned s (s.cfg.active.getD []) c = true ∧ (if u.sec.certIsB then u.sec.certB = c else u.sec.certA = c)) ∧
      (certSigned s (s.cfg.active.getD []) c = false → status = evAuthRequired) ∧
      (certSigned s (s.cfg.active.getD []) c = true → certSerial c ≤ s.sec.certFloor → status = evBadParameter)) ∧
  (∀ (s : State) (slot : Nat) (j : Job), Ready s slot 0x0905 j →
    exec (.secStatus slot) s = .next (settle s (respond s j 0 (leBytes 4 (regLifecycle s) ++ leBytes 4 (tamperWord s)))))

/-- Fuses advance the life cycle through the open debug port alone: to PRODUCTION from DEVELOPMENT with the keys fused, and to SCRAPPED, which blows
the identity key; both close the port. The loss of VBAT empties the staging RAM and the key register and sets the RTC to 0, but keeps the
fuses, the life cycle and the next INDEX; the crystal switch is noted (R509, R510, R527, R562). -/
def Obligations.FusesAndTheBatteryKeepWhatTheyShould : Prop :=
  (∀ (s : State), s.sec.debugOpen = true → (s.sec.life = .development ∨ s.sec.life = .fieldReturn) →
    ∃ u, exec (.lifecycleFuseWrite true) s = .next (settle s u) ∧ u.sec.life = .scrapped ∧ u.sec.debugOpen = false ∧
      u.sec.fuses = { s.sec.fuses with identityKey := 2 ^ 256 - 1 } ∧ u.axes = s.axes ∧ u.mode = s.mode) ∧
  (∀ (s : State), s.sec.debugOpen = true → s.sec.life = .development → productionKeys s = true →
    ∃ u, exec (.lifecycleFuseWrite false) s = .next (settle s u) ∧ u.sec.life = .production ∧ u.sec.debugOpen = false ∧
      u.sec.fuses = s.sec.fuses ∧ u.axes = s.axes ∧ u.mode = s.mode) ∧
  (∀ (s : State) (scrapped : Bool), s.sec.debugOpen = false → exec (.lifecycleFuseWrite scrapped) s = .next s) ∧
  (∀ (s : State), exec .x32CrystalSwitch s = .next (settle s { s with power := { s.power with crystal := true } })) ∧
  (∀ (s : State),
    ∃ u, exec .vbatLoss s = .next (settle s u) ∧ u.log.staged = [] ∧ u.log.next = s.log.next ∧ u.log.region = s.log.region ∧ u.sec.logKey = none ∧
      u.sec.canary = false ∧ u.sec.certFloor = 0 ∧ u.sec.tamperHeld = 0 ∧ u.sec.locked = false ∧ u.clk.rtc = 0 ∧ u.power.crystal = false ∧
      u.sec.fuses = s.sec.fuses ∧ u.sec.life = s.sec.life ∧ u.axes = s.axes ∧ u.cfg = s.cfg)

/-- A CAN frame of a disabled format is a protocol exception; one whose filter stores nothing changes no slot; one for a free buffer is stored at
its slot with its header and sets REQ. A VALID SAFETY buffer stays VALID on a bad CRC, takes a counter step of 1 to the limit and is VALID no
more past it; one that takes no frame within its TIMEOUT falls back and asks its axes for SS1. A write to an absent controller is an access
fault and nothing more (R4, R465 to R468, R476 to R478). -/
def Obligations.CanFramesAreFilteredStoredAndChecked : Prop :=
  (∀ (s : State) (n : Fin 4) (f : CanFrame) (taken : Nat), canListens s n = true → (s.canCtl n).pexc = false →
      ((f.format = 1 ∧ canFlag s n 0 = false) ∨ (f.format = 2 ∧ canXl s n = false)) →
    ∃ u, exec (.canRxFrame n f taken) s = .next (settle s u) ∧ (u.canCtl n).pexc = true ∧ (u.canCtl n).pexcs = satInc 8 (s.canCtl n).pexcs ∧
      (u.canCtl n).descs = (s.canCtl n).descs ∧ u.can.ram = s.can.ram ∧ u.axes = s.axes) ∧
  (∀ (s : State) (n : Fin 4) (f : CanFrame) (taken : Nat), canListens s n = true → (s.canCtl n).pexc = false →
      (f.format = 1 → canFlag s n 0 = true) → (f.format = 2 → canXl s n = true) → (canFilter s n f).action = 0 →
    ∃ u, exec (.canRxFrame n f taken) s = .next (settle s u) ∧ u.can.ram = s.can.ram ∧ (u.canCtl n).descs = (s.canCtl n).descs ∧
      (u.canCtl n).fifos = (s.canCtl n).fifos ∧ (u.canCtl n).rec_ = (if 127 < (s.canCtl n).rec_ then 127 else (s.canCtl n).rec_ - 1) ∧ u.axes = s.axes) ∧
  (∀ (s : State) (n : Fin 4) (f : CanFrame) (taken : Nat) (d : CanDesc), canListens s n = true → (s.canCtl n).pexc = false →
      (f.format = 1 → canFlag s n 0 = true) → f.format ≠ 2 → (canFilter s n f).action = 1 → canDesc s n (canFilter s n f).target = some d →
      d.lock = false → d.req = false →
    ∃ u, exec (.canRxFrame n f taken) s = .next (settle s u) ∧
      u.can.ram = cellsWrite s.can.ram (slotBase d.slot) (slotImage (timed s n f) (canFilter s n f).index) ∧
      ((canDesc u n d.buf).map (·.req)) = some true ∧ ((canDesc u n d.buf).map (·.lost)) = some d.lost ∧
      (∀ b, b ≠ d.buf → canDesc u n b = canDesc s n b) ∧
      (bufFlag s n d.buf 0 = false → (canDesc u n d.buf).map (·.valid) = some d.valid ∧ u.axes = s.axes) ∧
      (bufFlag s n d.buf 0 = true → pairBTasksWork s = true → d.valid = true → bufU s n d.buf 10 2 ≤ f.data.length → fieldU f.data 0 2 = e2eCrc s n d.buf f.data →
        (let delta := (fieldU f.data 2 1 + 256 - d.counter) % 256
         (1 ≤ delta → delta ≤ canU s n 27 1 →
            (canDesc u n d.buf).map (fun x => (x.valid, x.counter)) = some (true, fieldU f.data 2 1)) ∧
         (1 ≤ delta → canU s n 27 1 < delta → (canDesc u n d.buf).map (fun x => (x.valid, x.okRun)) = some (false, 0) ∧
            (u.canCtl n).e2eFails = satInc 8 (s.canCtl n).e2eFails))) ∧
      (bufFlag s n d.buf 0 = true → pairBTasksWork s = true → d.valid = true → fieldU f.data 0 2 ≠ e2eCrc s n d.buf f.data →
        (canDesc u n d.buf).map (·.valid) = some true ∧ (u.canCtl n).e2eFails = satInc 8 (s.canCtl n).e2eFails ∧ u.axes = s.axes)) ∧
  (∀ (s : State) (n : Fin 4) (b : Nat) (d : CanDesc), canDesc s n b = some d → bufKind s n b = 2 → bufFlag s n b 0 = true → d.timing = true →
      pairBTasksWork s = true → (refGroup s n b = none ∨ s.ring.role = .master) →
      bufLifetime s n b ≠ 0 → canFlag s n 6 = false → bufLifetime s n b ≤ (s.clk.drive.toNat / 100 % 2 ^ 32 + 2 ^ 32 - d.acceptedAt) % 2 ^ 32 →
    ∃ u, exec (.e2eTimeout n b) s = .next (settle s u) ∧ (canDesc u n b).map (fun x => (x.valid, x.okRun, x.timing)) = some (false, 0, false) ∧
      (u.canCtl n).e2eTimeouts = satInc 8 (s.canCtl n).e2eTimeouts ∧ u.can.ram = s.can.ram ∧
      (refGroup s n b = none → ∀ m, bufAxis s n b m = true → axPresent s m = true → isRun (s.axis m).core.st = true →
        ((s.axis m).obs.inUse = false ∨ (s.axis m).obs.st ≠ .recapturing) → (u.axis m).core.ss1Asked = true)) ∧
  (∀ (s : State) (n : Fin 4) (b clear : Nat) (d : CanDesc) (lock : Bool), canPresent s n = true → bitAt s.clk.lost 1 = false → bufKind s n b = 2 → canDesc s n b = some d →
    ∃ u, exec (.rxLock n ⟨b, clear⟩ lock) s = .next (settle s u) ∧ u.can.ram = s.can.ram ∧ (∀ c, c ≠ b → canDesc u n c = canDesc s n c) ∧
      (canDesc u n b).map (·.lock) = some lock ∧
      (lock = false → d.lock = true → d.shadowFull = true →
        (canDesc u n b).map (fun x => (x.slot, x.shadow, x.req, x.shadowFull)) = some (d.shadow, d.slot, true, false)) ∧
      ((lock = true ∨ d.shadowFull = false) → (canDesc u n b).map (fun x => (x.slot, x.shadow, x.req, x.shadowFull)) = some (d.slot, d.shadow, d.req && !bitAt clear 29, d.shadowFull))) ∧
  (∀ (s : State) (n : Fin 4) (w : DescWrite) (lock sending : Bool), canPresent s n = false → bitAt s.clk.lost 1 = false →
    ∀ c ∈ [Instr.rxLock n w lock, .txreq n w, .cancelReq n w sending],
      ∃ t, exec c s = .next t ∧ t.can = s.can ∧ t.rig.accessFaults = satInc 16 s.rig.accessFaults ∧ t.rig.lastReq = 0)

/-- TXREQ makes a TX buffer pend and changes nothing of another, with its header and, where it is protected, the next counter in its slot; a write
of 1 clears SENT, EXPIRED and CANCELLED, and NEW; CANCEL_REQ and the lifetime withdraw it at once, or at the end of an attempt that is
being sent; a frame that was the head at its start of arbitration and is sent ends with SENT, its times in the slot header and TEC one less, and one
that was not is no end of it. A response of the host transport leaves its queue when it is sent or at the end of its lifetime (R79, R470 to R472;
buffer number 256 stands for it, log entry 208). -/
def Obligations.CanBuffersPendUntilSentCancelledOrExpired : Prop :=
  (∀ (s : State) (n : Fin 4) (b clear : Nat) (d : CanDesc), canPresent s n = true → bitAt s.clk.lost 1 = false → bufKind s n b = 1 → canDesc s n b = some d → d.req = false →
    ∃ u, exec (.txreq n ⟨b, clear⟩) s = .next (settle s u) ∧ (canDesc u n b).map (fun x => (x.req, x.cancelDue, x.expireDue)) = some (true, false, false) ∧
      (canFlag s n 6 = false → (canDesc u n b).map (·.enq) = some (s.clk.drive.toNat / 100 % 2 ^ 32)) ∧
      (canDesc u n b).map (fun x => (x.sent, x.expired, x.cancelled)) = some (d.sent && !bitAt clear 26, d.expired && !bitAt clear 25, d.cancelled && !bitAt clear 24) ∧
      (bufFlag s n b 0 = false → u.can.ram = cellsWrite s.can.ram (slotBase d.slot) (txHeader s n b)) ∧
      (bufFlag s n b 0 = true → (canDesc u n b).map (·.counter) = some ((d.counter + 1) % 256) ∧
        cellRead u.can.ram (slotBase d.slot + 26) = BitVec.ofNat 8 (d.counter + 1)) ∧
      (∀ a, a < slotBase d.slot ∨ slotBase d.slot + 27 ≤ a → cellRead u.can.ram a = cellRead s.can.ram a) ∧
      (∀ c, c ≠ b → canDesc u n c = canDesc s n c) ∧ u.axes = s.axes ∧ u.host = s.host ∧ u.log = s.log) ∧
  (∀ (s : State) (n : Fin 4) (b clear : Nat) (d : CanDesc), canPresent s n = true → bitAt s.clk.lost 1 = false → bufKind s n b = 1 → canDesc s n b = some d → d.req = true →
    exec (.txreq n ⟨b, clear⟩) s = .next (settle s (s.setDesc n b (clearFlags ⟨b, clear⟩)))) ∧
  (∀ (s : State) (n : Fin 4) (b clear : Nat), canPresent s n = true → bitAt s.clk.lost 1 = false → canPending s n b = true →
    ∃ u, exec (.cancelReq n ⟨b, clear⟩ false) s = .next (settle s u) ∧ (canDesc u n b).map (fun x => (x.req, x.cancelled)) = some (false, true) ∧
      (u.canCtl n).txCancelled = satInc 16 (s.canCtl n).txCancelled ∧ (∀ c, c ≠ b → canDesc u n c = canDesc s n c) ∧ u.can.ram = s.can.ram) ∧
  (∀ (s : State) (n : Fin 4) (b clear : Nat), canPresent s n = true → bitAt s.clk.lost 1 = false → canPending s n b = true →
    ∃ u, exec (.cancelReq n ⟨b, clear⟩ true) s = .next (settle s u) ∧ (canDesc u n b).map (fun x => (x.req, x.cancelDue)) = some (true, true) ∧
      (u.canCtl n).txCancelled = (s.canCtl n).txCancelled ∧ (∀ c, c ≠ b → canDesc u n c = canDesc s n c) ∧ u.can.ram = s.can.ram) ∧
  (∀ (s : State) (n : Fin 4) (b clear : Nat) (sending : Bool), canPresent s n = true → bitAt s.clk.lost 1 = false → bufKind s n b = 1 → canPending s n b = false →
    exec (.cancelReq n ⟨b, clear⟩ sending) s = .next (settle s (s.setDesc n b (clearFlags ⟨b, clear⟩)))) ∧
  (∀ (s : State) (n : Fin 4) (b stamp sof : Nat) (d : CanDesc), canListens s n = true → canTalks s n = true → canFlag s n 4 = false → b < 256 →
      canPending s n b = true → canDesc s n b = some d → canHead s n b (min sof s.clk.drive.toNat) = true →
      (s.power.bindOff = false ∨ sof ≤ s.power.bindAt) →
    ∃ u, exec (.canTxComplete n b stamp sof) s = .next (settle s u) ∧
      (canDesc u n b).map (fun x => (x.req, x.sent, x.cancelDue, x.expireDue)) = some (false, true, false, false) ∧
      u.can.ram = cellsWrite s.can.ram (slotBase d.slot + 16) (leBytes 4 (sofTimes s n stamp sof).1 ++ leBytes 4 (sofTimes s n stamp sof).2) ∧ (u.canCtl n).tec = (s.canCtl n).tec - 1 ∧
      (∀ c, c ≠ b → canDesc u n c = canDesc s n c) ∧ u.axes = s.axes) ∧
  (∀ (s : State) (n : Fin 4) (b stamp sof : Nat), b < 256 → (canTalks s n = false ∨ canHead s n b (min sof s.clk.drive.toNat) = false) →
    exec (.canTxComplete n b stamp sof) s = .next s) ∧
  (∀ (s : State) (n : Fin 4) (stamp sof : Nat) (x : HostTx) (rest : List HostTx), canListens s n = true → canTalks s n = true → canFlag s n 4 = false →
      hostCan s = some n → s.host.canOut = x :: rest →
    ∃ u, exec (.canTxComplete n 256 stamp sof) s = .next (settle s u) ∧ u.host.canOut = rest ∧ (u.canCtl n).tec = (s.canCtl n).tec - 1 ∧
      (u.canCtl n).descs = (s.canCtl n).descs ∧ u.can.ram = s.can.ram ∧ u.axes = s.axes) ∧
  (∀ (s : State) (n : Fin 4) (b : Nat) (d : CanDesc) (sending : Bool), b < 256 → canPending s n b = true → canDesc s n b = some d → bufLifetime s n b ≠ 0 →
      canFlag s n 6 = false → bufLifetime s n b ≤ (s.clk.drive.toNat / 100 % 2 ^ 32 + 2 ^ 32 - d.enq) % 2 ^ 32 →
    ∃ u, exec (.txExpired n b sending) s = .next (settle s u) ∧ u.can.ram = s.can.ram ∧ (∀ c, c ≠ b → canDesc u n c = canDesc s n c) ∧
      (if sending then (canDesc u n b).map (fun x => (x.req, x.expireDue)) = some (true, true) ∧ (u.canCtl n).txExpired = (s.canCtl n).txExpired
       else (canDesc u n b).map (fun x => (x.req, x.expired)) = some (false, true) ∧ (u.canCtl n).txExpired = satInc 16 (s.canCtl n).txExpired)) ∧
  (∀ (s : State) (n : Fin 4) (x : HostTx) (rest : List HostTx) (sending : Bool), hostCan s = some n → s.host.canOut = x :: rest → hostU s 20 4 ≠ 0 →
      canFlag s n 6 = false → hostU s 20 4 ≤ (s.clk.drive.toNat / 100 % 2 ^ 32 + 2 ^ 32 - x.enq) % 2 ^ 32 →
    ∃ u, exec (.txExpired n 256 sending) s = .next (settle s u) ∧ u.can.ram = s.can.ram ∧ (u.canCtl n).descs = (s.canCtl n).descs ∧
      u.host.canOut = (if sending then { x with due := true } :: rest else rest) ∧
      (u.canCtl n).txExpired = (if sending then (s.canCtl n).txExpired else satInc 16 (s.canCtl n).txExpired)) ∧
  (∀ (s : State) (n : Fin 4) (b : Nat) (d : CanDesc) (sending : Bool), b < 256 → canDesc s n b = some d → canFlag s n 6 = false →
      (s.clk.drive.toNat / 100 % 2 ^ 32 + 2 ^ 32 - d.enq) % 2 ^ 32 < bufLifetime s n b →
    exec (.txExpired n b sending) s = .next s)

/-- A bus error moves TEC or REC as ISO 11898-1 has it, and a TEC above 255 is bus-off; the recovery clears both counts; 11 recessive bits put a
controller on the bus; CAN.STATUS, CAN.RECOVER and CAN.SELFTEST answer; the external test holds the claims of its balls until its end, and not of
a controller that failed before; a ball of another owner is busy; a segment set that stays incomplete for 10 ms is discarded (R77, R78, R110,
R473 to R475, R479, and log entry 38 for the counting rules). -/
def Obligations.CanErrorsRecoveryAndCommands : Prop :=
  (∀ (s : State) (n : Fin 4) (first : Bool) (kind buf : Nat), canListens s n = true → canFlag s n 4 = false → kind ≠ 3 →
    ∃ u, exec (.canBusError n true first kind buf) s = .next (settle s u) ∧ (u.canCtl n).tec = (s.canCtl n).tec + 8 ∧
      (u.canCtl n).busOff = decide (255 < (s.canCtl n).tec + 8) ∧ (u.canCtl n).lastError = kind ∧ u.can.ram = s.can.ram ∧ u.axes = s.axes ∧
      (255 < (s.canCtl n).tec + 8 → (u.canCtl n).busOffs = satInc 16 (s.canCtl n).busOffs ∧ (u.canCtl n).waitHost = canFlag s n 5 ∧
        (u.canCtl n).recovering = !canFlag s n 5)) ∧
  (∀ (s : State) (n : Fin 4) (first : Bool) (kind buf : Nat), canListens s n = true → canFlag s n 4 = false → (s.canCtl n).tec ≤ 255 →
    ∃ u, exec (.canBusError n false first kind buf) s = .next (settle s u) ∧ (u.canCtl n).tec = (s.canCtl n).tec ∧
      (u.canCtl n).rec_ = min ((s.canCtl n).rec_ + (if first then 8 else 1)) 65535 ∧ (u.canCtl n).busOff = false ∧ (u.canCtl n).lastError = kind ∧
      (u.canCtl n).descs = (s.canCtl n).descs ∧ u.can.ram = s.can.ram) ∧
  (∀ (s : State) (n : Fin 4), (s.canCtl n).busOff = true → (s.canCtl n).recovering = true → bitAt s.clk.lost 4 = false →
    ∃ u, exec (.canRecovered n) s = .next (settle s u) ∧ (u.canCtl n).busOff = false ∧ (u.canCtl n).tec = 0 ∧ (u.canCtl n).rec_ = 0 ∧
      (u.canCtl n).recovering = false ∧ (u.canCtl n).descs = (s.canCtl n).descs) ∧
  (∀ (s : State) (n : Fin 4), (s.canCtl n).recovering = false → exec (.canRecovered n) s = .next s) ∧
  (∀ (s : State) (n : Fin 4), canRuns s n = true → (s.canCtl n).busOff = false →
    ∃ u, exec (.busIntegration n) s = .next (settle s u) ∧ (u.canCtl n).link = .online ∧ (u.canCtl n).pexc = false ∧ (u.canCtl n).stopped = false ∧
      (u.canCtl n).test = 0 ∧ (u.canCtl n).descs = (s.canCtl n).descs ∧ (∀ k ∈ u.cfg.claims, k ∈ s.cfg.claims ∧ ¬(k.function = 7 ∧ k.owner = n.val))) ∧
  (∀ (s : State) (slot : Nat) (j : Job) (n : Fin 4), Ready s slot 0x0601 j → j.u 0 1 = n.val →
    exec (.canStatus slot) s = .next (settle s (respond s j 0 (leBytes 2 (if busOffNow s n then 2 else if canPassive (s.canCtl n) then 1 else 0) ++
      leBytes 2 (min (s.canCtl n).tec 65535) ++ leBytes 2 (s.canCtl n).rec_ ++ [0, 0] ++ leBytes 4 (s.canCtl n).txExpired)))) ∧
  (∀ (s : State) (slot : Nat) (j : Job) (n : Fin 4), Ready s slot 0x0602 j → j.u 0 1 = n.val → (s.canCtl n).busOff = true → canFlag s n 5 = true →
    ∃ u, exec (.canRecover slot) s = .next (settle s (respond u j 0 [])) ∧ (u.canCtl n).recovering = true ∧ (u.canCtl n).waitHost = false ∧
      (u.canCtl n).busOff = true) ∧
  (∀ (s : State) (slot : Nat) (j : Job) (n : Fin 4), Ready s slot 0x0602 j → j.u 0 1 = n.val → ((s.canCtl n).busOff = false ∨ canFlag s n 5 = false) →
    exec (.canRecover slot) s = .next (settle s (badParameter s j))) ∧
  (∀ (s : State) (slot : Nat) (j : Job) (n : Fin 4) (good : Bool), Ready s slot 0x0603 j → j.u 0 1 = n.val → j.u 1 1 = 0 → cfgHas s secCan n.val = true →
      ((s.canCtl n).failed = false ∨ good = false) →
    ∃ u, exec (.canSelftestInternal slot good) s = .next (settle s (respond u j 0 [if good then 0 else 1])) ∧ (u.canCtl n).failed = ((s.canCtl n).failed || !good) ∧
      (u.canCtl n).link = (if good then .integrating else .offline) ∧ (u.canCtl n).test = (if good then 1 else 0) ∧ u.cfg = s.cfg) ∧
  (∀ (s : State) (slot : Nat) (j : Job) (n : Fin 4) (good : Bool), Ready s slot 0x0603 j → j.u 0 1 = n.val → j.u 1 1 = 0 → cfgHas s secCan n.val = false →
    exec (.canSelftestInternal slot good) s = .next (settle s (respond s j 0 [2]))) ∧
  (∀ (s : State) (slot : Nat) (j : Job) (n : Fin 4) (good : Bool), Ready s slot 0x0603 j → j.u 0 1 = n.val → j.u 1 1 = 1 → cfgHas s secCan n.val = true →
      ((s.canCtl n).failed = false ∨ good = false) →
      (∀ r ∈ canBalls n, ∀ e, ownerOf s r = some e → e.function = 7 ∧ e.inst = n.val) →
    ∃ u, exec (.canSelftestExternal slot good) s = .next (settle s (respond u j 0 [if good then 0 else 1])) ∧
      (u.canCtl n).test = (if good then 2 else 0) ∧ u.cfg.claims = (if good then s.cfg.claims ++ (canBalls n).map fun r => ⟨r, 0x07, n.val⟩ else s.cfg.claims)) ∧
  (∀ (s : State) (slot : Nat) (j : Job) (n : Fin 4), Ready s slot 0x0603 j → j.u 0 1 = n.val → j.u 1 1 = 1 → cfgHas s secCan n.val = true →
      (s.canCtl n).failed = true → (∀ r ∈ canBalls n, ∀ e, ownerOf s r = some e → e.function = 7 ∧ e.inst = n.val) →
    exec (.canSelftestExternal slot true) s = .next (settle s (respond s j 0 [0]))) ∧
  (∀ (s : State) (slot : Nat) (j : Job) (n : Fin 4) (good : Bool) (e : Owned), Ready s slot 0x0603 j → j.u 0 1 = n.val → j.u 1 1 = 1 →
      ownerOf s (0x01000000 + 19 * 32 + 13 + 2 * n.val) = some e → (e.function ≠ 7 ∨ e.inst ≠ n.val) →
    exec (.canSelftestExternal slot good) s = .next (settle s (respond s j evResourceBusy (leBytes 4 e.resource ++
      [BitVec.ofNat 8 e.function, BitVec.ofNat 8 e.inst])))) ∧
  (∀ (s : State) (r : Reassembly), s.host.reassembly = some r →
    exec .segmentTimeout s = .next (if s.clk.now < r.started + 1000000 then s else settle s { s with host := { s.host with reassembly := none } }))

/-- A port trains, rises once its delay is measured and 1 ms has passed, and falls; a delay request is answered; a frame with a bad CRC is counted and a repeated one
is discarded. The loss of the link leaves a master its role, and a follower that sees nobody is ISOLATED with its PWM PLL on XIN (R487, R488, R490, R505). -/
def Obligations.HalyardPortsTrainRiseAndFall : Prop :=
  (∀ (s : State) (p : Fin 2), portRuns s p = true → (s.port p).st = .down →
    ∃ u, exec (.linkTraining p) s = .next (settle s u) ∧ (u.port p).st = .training ∧ (u.port p).measured = false ∧ (u.port p).trainedAt = s.clk.now ∧ (∀ q, q ≠ p → u.port q = s.port q) ∧
      u.axes = s.axes) ∧
  (∀ (s : State) (p : Fin 2), portRuns s p = true → (s.port p).st = .training → (s.port p).measured = true →
      (s.port p).trainedAt + 100000 ≤ s.clk.now →
    ∃ u, exec (.linkUp p) s = .next (settle s u) ∧ (u.port p).st = .up ∧ (∀ q, q ≠ p → u.port q = s.port q) ∧ u.ring.role = s.ring.role ∧
      u.ring.closed = ((u.port 0).st == .up && (u.port 1).st == .up && !bitAt (ringU s 0 1) 0 && ringMember s) ∧ u.axes = s.axes) ∧
  (∀ (s : State) (p : Fin 2), ((s.port p).measured = false ∨ s.clk.now < (s.port p).trainedAt + 100000) → exec (.linkUp p) s = .next s) ∧
  (∀ (s : State) (p : Fin 2) (reach : Nat), portRuns s p = true → (s.port p).st ≠ .down → (ringMember s = false ∨ s.ring.role = .master) →
    ∃ u, exec (.linkDown p reach) s = .next (settle s u) ∧ (u.port p).st = .down ∧ (u.port p).measured = false ∧
      (u.port p).downs = satInc 16 (s.port p).downs ∧ u.ring.role = s.ring.role ∧ (∀ q, q ≠ p → u.port q = s.port q) ∧
      ((s.port p).st = .up → u.ring.closed = false) ∧ u.axes = s.axes) ∧
  (∀ (s : State) (p : Fin 2), portRuns s p = true → (s.port p).st = .up → s.ring.role = .follower → 2 ≤ ringDevices s →
    ∃ u, exec (.linkDown p 0) s = .next (settle s u) ∧ (u.port p).st = .down ∧ u.ring.role = .isolated ∧ u.ring.tack = none ∧ u.ring.closed = false ∧
      u.ring.pllPort = none ∧
      u.axes = s.axes) ∧
  (∀ (s : State) (p : Fin 2) (h : FrameHead), portRuns s p = true → (s.port p).st ≠ .down → h.crcOk = true → driversOn s = true →
    ∃ u b, exec (.delayReq p h) s = .next (settle s u) ∧ b.length = 8 ∧ u.ring.seq = (s.ring.seq + 1) % 65536 ∧
      u.ring.sent = s.ring.sent ++ [(p.val, 3, frameBytes s.ring.pos 0 s.ring.seq (leBytes 8 (s.clk.drive.toNat * 40) ++ b))] ∧
      u.ring.role = s.ring.role ∧ u.axes = s.axes) ∧
  (∀ (s : State) (p : Fin 2) (h : FrameHead) (delay : Nat), portRuns s p = true → (s.port p).st ≠ .down → h.crcOk = true →
    ∃ u, exec (.delayRsp p h delay) s = .next (settle s u) ∧ (u.port p).delay = delay / 2 % 65536 ∧ (u.port p).measured = true ∧
      (u.port p).st = (s.port p).st ∧ u.axes = s.axes) ∧
  (∀ (s : State) (p : Fin 2) (h : FrameHead) (payload : List Byte), hears s p h = true →
    ∃ u, exec (.serviceFrame p h payload) s = .next (settle s u) ∧ u.ring.frames = ((h.src, h.seq) :: s.ring.frames).take 256 ∧
      (h.src < 8 → (u.member h.src).heardAt = some s.clk.now) ∧ u.ring.role = s.ring.role ∧ u.ring.groups = s.ring.groups ∧ u.axes = s.axes ∧
      u.host = s.host ∧ u.cfg = s.cfg) ∧
  (∀ (s : State) (p : Fin 2) (h : FrameHead) (payload : List Byte), unitPresent s (14 + p.val) = true → portUp s p = true → bitAt s.clk.lost 6 = false →
      h.crcOk = false →
    ∃ u, exec (.serviceFrame p h payload) s = .next (settle s u) ∧ (u.port p).crcErrors = satInc 16 (s.port p).crcErrors ∧
      u.ring.frames = s.ring.frames ∧ u.ring.members = s.ring.members ∧ u.axes = s.axes) ∧
  (∀ (s : State) (p : Fin 2) (h : FrameHead) (payload : List Byte), h.crcOk = true → (7 ≤ h.hops ∨ (h.src, h.seq) ∈ s.ring.frames) →
    exec (.serviceFrame p h payload) s = .next (settle s s))

/-- A TRIP ordered set is forwarded, and a rising origin bit of another device trips the group axis with source HALYARD; a SYNC frame gives a
follower whose drive time runs the master's drive time, corrected by the delays of the path, its position and EPOCH, and the port that its PWM PLL locks to; it completes
a join of a device whose sets do not differ and whose digest is the master's, waits for that digest, and ends another (R97, R486, R490, R497, R503). -/
def Obligations.RingTripsAndTheTimebaseReachTheDevice : Prop :=
  (∀ (s : State) (p : Fin 2) (source mask : Nat), portUp s p = true → bitAt s.clk.lost 6 = false → ringMember s = true → source ≠ s.ring.pos → source < 8 →
    ∃ u, exec (.tripOrderedSet p source mask) s = .next (settle s u) ∧ (u.member source).trips = mask % 16 ∧
      (u.member source).heardAt = some s.clk.now ∧ (∀ g : Fin 4, bitAt mask g.val = true → (u.member source).tripAt[g] = some s.clk.now) ∧
      (∀ q, q ≠ p → portUp s q = true → driversOn s = true → u.ring.sent = s.ring.sent ++ [(q.val, 0, [BitVec.ofNat 8 (32 * source + mask % 16)])]) ∧
      (∀ g n, grpAxis s g = some n → axPresent s n = true → bitAt mask g.val = true → bitAt (s.member source).trips g.val = false →
        bitAt (u.axis n).trip.src bitHalyard = true) ∧
      ((∀ g : Fin 4, bitAt mask g.val = true → bitAt (s.member source).trips g.val = true) → u.axes = s.axes)) ∧
  (∀ (s : State) (p : Fin 2) (source mask : Nat), (source = s.ring.pos ∨ ringMember s = false) → exec (.tripOrderedSet p source mask) s = .next s) ∧
  (∀ (s : State) (p : Fin 2) (h : FrameHead) (f : SyncFrame), hears s p h = true → s.ring.role = .follower → s.clk.driveRuns = true →
    ∃ u, exec (.sync p h f) s = .next (settle s u) ∧ u.clk = { s.clk with drive := BitVec.ofNat 64 (f.time + (f.path + (s.port p).delay) / 40) } ∧
      u.ring.pos = (if p = 1 then f.master % 8 + (h.hops + 1) else f.master % 8 + 8 * max 1 (ringDevices s) - (h.hops + 1)) % max 1 (ringDevices s) ∧ u.ring.masterPos = f.master % 8 ∧ u.ring.epoch = f.epoch ∧
      u.ring.role = .follower ∧ (u.port p).syncHops = some h.hops ∧ u.ring.pllPort = nearPort u ∧ u.axes = s.axes) ∧
  (∀ (s : State) (p : Fin 2) (h : FrameHead) (f : SyncFrame), hears s p h = true → s.clk.driveRuns = false →
    ∃ u, exec (.sync p h f) s = .next (settle s u) ∧ u.clk = s.clk) ∧
  (∀ (s : State) (p : Fin 2) (h : FrameHead) (f : SyncFrame), hears s p h = true → s.ring.role = .joining → s.cfg.diff ≠ .same →
    ∃ u, exec (.sync p h f) s = .next (settle s u) ∧ u.clk = s.clk ∧ u.ring.role = .none ∧ u.ring.best = none ∧ u.axes = s.axes) ∧
  (∀ (s : State) (p : Fin 2) (h : FrameHead) (f : SyncFrame), hears s p h = true → s.ring.role = .joining → s.cfg.diff = .same → s.clk.driveRuns = true →
      (s.member (f.master % 8)).digest ≠ [] → (s.member (f.master % 8)).digest = (ownDigest s).2 →
    ∃ u, exec (.sync p h f) s = .next (settle s u) ∧ u.clk.drive = BitVec.ofNat 64 (f.time + (f.path + (s.port p).delay) / 40) ∧
      u.ring.role = .follower ∧ u.ring.masterPos = f.master % 8 ∧ u.ring.epoch = f.epoch ∧ u.ring.best = none) ∧
  (∀ (s : State) (p : Fin 2) (h : FrameHead) (f : SyncFrame), hears s p h = true → s.ring.role = .joining → s.cfg.diff = .same →
      (s.member (f.master % 8)).digest ≠ (ownDigest s).2 →
    ∃ u, exec (.sync p h f) s = .next (settle s u) ∧ u.clk = s.clk ∧
      u.ring.role = (if (s.member (f.master % 8)).digest = [] then .joining else .none) ∧ u.axes = s.axes) ∧
  (∀ (s : State) (p : Fin 2) (h : FrameHead) (f : SyncFrame), hears s p h = true → s.ring.role = .master →
    ∃ u, exec (.sync p h f) s = .next (settle s u) ∧ u.clk = s.clk ∧ u.ring.pos = s.ring.pos ∧ u.ring.epoch = s.ring.epoch ∧ u.ring.role = .master)

/-- The master's digest marks a follower DIVERGENT at the second difference in a row and asks its running single axes for SS1, and three matches clear
it; a SHARE frame of the master gives the group reference, and without one for SHARE_TIMEOUT, or at the master without a VALID reference, it is stale (R493, R494, R498, R499). -/
def Obligations.DigestsDivergeAndSharesGoStale : Prop :=
  (∀ (s : State) (p : Fin 2) (h : FrameHead) (gen : Nat) (dig : List Byte) (div : Bool), hears s p h = true → h.src < 8 →
    ∃ u, exec (.digest p h gen dig div) s = .next (settle s u) ∧
      ((u.member h.src).generation, (u.member h.src).digest, (u.member h.src).divergent, (u.member h.src).inStep) = (gen, dig, div, true) ∧
      ((s.ring.role ≠ .follower ∨ h.src ≠ s.ring.masterPos ∨ pairBTasksWork s = false) →
        u.ring.divergent = s.ring.divergent ∧ u.ring.differs = s.ring.differs ∧ u.ring.matched = s.ring.matched ∧ u.axes = s.axes) ∧
      (s.ring.role = .follower → h.src = s.ring.masterPos → pairBTasksWork s = true → dig = (ownDigest s).2 →
        u.ring.differs = 0 ∧ u.ring.matched = min 3 (s.ring.matched + 1) ∧ u.ring.divergent = (s.ring.divergent && decide (s.ring.matched < 2)) ∧ u.axes = s.axes) ∧
      (s.ring.role = .follower → h.src = s.ring.masterPos → pairBTasksWork s = true → dig ≠ (ownDigest s).2 → s.ring.announced = none →
        u.ring.differs = min 2 (s.ring.differs + 1) ∧ u.ring.matched = 0 ∧ u.ring.divergent = (s.ring.divergent || decide (1 ≤ s.ring.differs)) ∧
        (1 ≤ s.ring.differs → s.ring.divergent = false → ∀ n, axPresent s n = true → grpOf s n = none → isRun (s.axis n).core.st = true →
          ((s.axis n).obs.inUse = false ∨ (s.axis n).obs.st ≠ .recapturing) → (u.axis n).core.ss1Asked = true))) ∧
  (∀ (s : State) (p : Fin 2) (h : FrameHead) (f : ShareFrame), hears s p h = true → h.src < 8 → ringMember s = true →
    ∃ u, exec (.share p h f) s = .next (settle s u) ∧ bitAt (u.member h.src).run f.group.val = f.run ∧ bitAt (u.member h.src).asc f.group.val = f.asc ∧
      (u.member h.src).id[f.group] = f.id ∧ (u.member h.src).iq[f.group] = f.iq ∧ u.axes = s.axes ∧ (∀ g, g ≠ f.group → u.group g = s.group g) ∧
      (∀ r, s.ring.role = .follower → h.src = s.ring.masterPos → f.reference = some r →
        (u.group f.group).reference = r ∧ (u.group f.group).sharedAt = s.clk.now ∧ (u.group f.group).stale = false) ∧
      ((s.ring.role = .master ∨ h.src ≠ s.ring.masterPos ∨ f.reference = none) → u.group f.group = s.group f.group)) ∧
  (∀ (s : State) (g : Fin 4), s.ring.role = .follower → (grpAxis s g).isSome = true → (s.group g).stale = false →
      (s.group g).sharedAt + ticksOf (grpF s g 20) ≤ s.clk.now →
    ∃ u, exec .shareStale s = .next (settle s u) ∧ (u.group g).stale = true ∧ (u.group g).reference = (s.group g).reference ∧ u.axes = s.axes) ∧
  (∀ (s : State) (g : Fin 4), s.ring.role = .master → (grpAxis s g).isSome = true → (s.group g).stale = false → refValid s g = false →
    ∃ u, exec .shareStale s = .next (settle s u) ∧ (u.group g).stale = true ∧ (u.group g).reference = (s.group g).reference ∧ u.axes = s.axes) ∧
  (∀ (s : State), (∀ g, (grpAxis s g) = none ∨ (s.group g).stale = true) → exec .shareStale s = .next s)

/-- A ring tack: a follower that has the set answers 0 and waits for its Ts; the master commits once every follower in step has answered 0, for a ring
period at least four away, and aborts at any other answer or a missing one after 20 ms; a follower drops its tack at an abort or after 40 ms
without a commit (R500 to R502). -/
def Obligations.RingTacksCommitOnAllOrAbort : Prop :=
  (∀ (s : State) (p : Fin 2) (h : FrameHead) (gen : Nat) (dig : List Byte), hears s p h = true → s.ring.role = .follower → h.src = s.ring.masterPos →
      pairBTasksWork s = true →
    ∃ u, exec (.tackPrepare p h gen dig) s = .next (settle s u) ∧ u.cfg.active = s.cfg.active ∧ u.cfg.shadow = s.cfg.shadow ∧ u.axes = s.axes ∧
      u.ring.announced = some (gen, dig) ∧
      (driversOn s = true → ∀ q ∈ upPorts s, (q, 7, frameBytes s.ring.pos 0 s.ring.seq [BitVec.ofNat 8 (followerReason s gen dig)]) ∈ u.ring.sent) ∧
      (if followerReason s gen dig = 0 then u.cfg.tack = some ⟨2 ^ 64, 0, true⟩ ∧ u.ring.tack = some ⟨[], 0, s.clk.now, false⟩ else u.cfg.tack = s.cfg.tack)) ∧
  (∀ (s : State) (p : Fin 2) (h : FrameHead) (gen : Nat) (dig : List Byte), hears s p h = true → s.ring.role = .follower → h.src = s.ring.masterPos →
      s.cfg.shadow.map imgDigest ≠ some dig →
    ∃ u, exec (.tackPrepare p h gen dig) s = .next (settle s u) ∧ u.cfg = s.cfg ∧ u.ring.tack = s.ring.tack) ∧
  (∀ (s : State) (p : Fin 2) (h : FrameHead) (reason : Nat), hears s p h = true → s.ring.role = .master → uncommitted s = true → pairBTasksWork s = true → reason ≠ 0 →
    ∃ u, exec (.tackAck p h reason) s = .next (settle s u) ∧ u.cfg.tack = none ∧ u.ring.tack = none ∧ u.cfg.active = s.cfg.active ∧ u.cfg.shadow = s.cfg.shadow) ∧
  (∀ (s : State) (p : Fin 2) (h : FrameHead) (r : RingTack) (c : Nat), hears s p h = true → s.ring.role = .master → uncommitted s = true → pairBTasksWork s = true →
      s.ring.tack = some r → (∀ k ∈ othersInStep s, k = h.src ∨ k ∈ r.acked) →
      c = (s.clk.drive.toNat - s.ring.epoch + 4 * ringPeriod s + ringPeriod s - 1) / ringPeriod s →
    ∃ u, exec (.tackAck p h 0) s = .next (settle s u) ∧ u.cfg.tack = some ⟨s.ring.epoch + c * ringPeriod s, c, true⟩ ∧
      u.ring.tack = some { r with acked := r.acked ++ [h.src], committed := true } ∧ u.cfg.active = s.cfg.active ∧
      (s.ring.epoch ≤ s.clk.drive.toNat → s.clk.drive.toNat + 4 * ringPeriod s ≤ s.ring.epoch + c * ringPeriod s)) ∧
  (∀ (s : State) (p : Fin 2) (h : FrameHead) (r : RingTack) (k : Nat), hears s p h = true → s.ring.role = .master → uncommitted s = true → pairBTasksWork s = true →
      s.ring.tack = some r → k ∈ othersInStep s → k ≠ h.src → k ∉ r.acked →
    ∃ u, exec (.tackAck p h 0) s = .next (settle s u) ∧ u.cfg = s.cfg ∧ u.ring.tack = some { r with acked := r.acked ++ [h.src] }) ∧
  (∀ (s : State) (p : Fin 2) (h : FrameHead) (carrier : Nat), hears s p h = true → s.ring.role = .follower → h.src = s.ring.masterPos → uncommitted s = true →
      pairBTasksWork s = true →
    ∃ u, exec (.tackCommit p h carrier) s = .next (settle s u) ∧ u.cfg.tack = some ⟨s.ring.epoch + carrier * ringPeriod s, carrier, true⟩ ∧
      u.ring.tack.map (·.committed) = some true ∧ u.cfg.active = s.cfg.active) ∧
  (∀ (s : State) (p : Fin 2) (h : FrameHead), hears s p h = true → s.ring.role = .follower → h.src = s.ring.masterPos → uncommitted s = true →
      pairBTasksWork s = true →
    ∃ u, exec (.tackAbort p h) s = .next (settle s u) ∧ u.cfg.tack = none ∧ u.ring.tack = none ∧ u.cfg.active = s.cfg.active ∧ u.cfg.shadow = s.cfg.shadow) ∧
  (∀ (s : State) (r : RingTack) (k : Nat), s.ring.tack = some r → s.ring.role = .master → uncommitted s = true → pairBTasksWork s = true → r.since + 2000000 ≤ s.clk.now →
      k ∈ othersInStep s → k ∉ r.acked →
    ∃ u, exec .ringTackTimeout s = .next (settle s u) ∧ u.cfg.tack = none ∧ u.ring.tack = none ∧ u.cfg.active = s.cfg.active) ∧
  (∀ (s : State) (r : RingTack), s.ring.tack = some r → s.clk.now < r.since + 2000000 → exec .ringTackTimeout s = .next s) ∧
  (∀ (s : State) (r : RingTack), s.ring.tack = some r → s.ring.role = .follower → uncommitted s = true → pairBTasksWork s = true →
    exec .followerTackDrop s = .next (if s.clk.now < r.since + 4000000 then s
      else settle s { s with cfg := { s.cfg with tack := none }, ring := { s.ring with tack := none } }))

/-- The best bid becomes master and sets EPOCH, which moves no axis but those whose carrier follows the ring, and a loser waits for the winner's SYNC; another joins and is in step, or leaves and is not; LINK.JOIN is refused with its reason or begins;
LINK.LEAVE leaves at once where the group axes are OFF, and else when they are; LINK.STATUS answers the ring as this device sees it (R489, R503,
R504). -/
def Obligations.DevicesAreElectedJoinAndLeave : Prop :=
  (∀ (s : State) (p : Fin 2) (h : FrameHead) (priority uid : Nat), hears s p h = true → s.ring.role = .joining → s.ring.best = none →
      betterBid (ownBid s) (priority, uid) = ownBid s →
    ∃ u, exec (.elect p h priority uid true) s = .next (settle s u) ∧ u.ring.role = .master ∧ u.ring.pos = 0 ∧ u.ring.masterPos = 0 ∧
      u.ring.epoch = s.clk.drive.toNat / ringPeriod s * ringPeriod s ∧ u.ring.best = none ∧
      ∀ n, (onRing s 5 n = false → u.axis n = s.axis n) ∧ (u.axis n).core = (s.axis n).core ∧ (u.axis n).trip = (s.axis n).trip) ∧
  (∀ (s : State) (p : Fin 2) (h : FrameHead) (priority uid : Nat), hears s p h = true → s.ring.role = .joining → s.ring.best = none →
      betterBid (ownBid s) (priority, uid) ≠ ownBid s →
    ∃ u, exec (.elect p h priority uid true) s = .next (settle s u) ∧ u.ring.role = .joining ∧ u.ring.best = none ∧ u.ring.awaited = true ∧ u.axes = s.axes) ∧
  (∀ (s : State) (p : Fin 2) (h : FrameHead) (priority uid : Nat), hears s p h = true → s.ring.role = .joining →
    ∃ u b, exec (.elect p h priority uid false) s = .next (settle s u) ∧ u.ring.role = .joining ∧ u.ring.best = some b ∧ betterBid b (priority, uid) = b) ∧
  (∀ (s : State) (p : Fin 2) (h : FrameHead) (uid : Nat), hears s p h = true → ringMember s = true → uid ≠ s.sec.fuses.uid → h.src < 8 →
    ∃ u, exec (.join p h uid) s = .next (settle s u) ∧ (u.member h.src).inStep = true ∧ (u.member h.src).divergent = false ∧ u.ring.role = s.ring.role ∧
      u.axes = s.axes) ∧
  (∀ (s : State) (p : Fin 2) (h : FrameHead), hears s p h = true → s.ring.role = .master → h.src < 8 →
    ∃ u, exec (.leave p h) s = .next (settle s u) ∧ (u.member h.src).inStep = false ∧ u.ring.role = .master ∧ u.axes = s.axes) ∧
  (∀ (s : State) (slot : Nat) (j : Job), Ready s slot 0x0701 j →
    exec (.linkStatus slot) s = .next (settle s (respond s j 0 ([BitVec.ofNat 8 (ringSeen s), BitVec.ofNat 8 s.ring.pos, BitVec.ofNat 8 s.ring.masterPos, 0] ++
      (List.range 8).map fun k => BitVec.ofNat 8 (positionState s k))))) ∧
  (∀ (s : State) (slot r : Nat) (j : Job), Ready s slot 0x0702 j → joinReason s = some r →
    exec (.linkJoin slot) s = .next (settle s (respond s j evJoinRefused (leBytes 2 r)))) ∧
  (∀ (s : State) (slot : Nat) (j : Job), Ready s slot 0x0702 j → joinReason s = none →
    ∃ u, exec (.linkJoin slot) s = .next (settle s u) ∧ u.ring.role = .joining ∧ (u.ring.best.isSome = !masterHeard s ∨ s.ring.best.isSome = true) ∧
      u.host = (markStarted s slot).host ∧ u.axes = s.axes) ∧
  (∀ (s : State) (slot : Nat) (j : Job), Ready s slot 0x0703 j → groupAxesOff s = true → ringMember s = true →
    ∃ u, exec (.linkLeave slot) s = .next (settle s (respond u j 0 [])) ∧ u.ring.role = .none ∧ u.ring.leaving = false ∧ u.ring.tack = none ∧
      u.axes = s.axes) ∧
  (∀ (s : State) (slot : Nat) (j : Job), Ready s slot 0x0703 j → groupAxesOff s = false →
    exec (.linkLeave slot) s = .next (settle s (respond { s with ring := { s.ring with leaving := true } } j 0 [])))

/-- Commands are taken first in, first out, and each is run on the state with the rest of the queue. An empty queue lets 10 ns pass (the model's
own choice, log entry 1): drive time counts while it runs, and the parts that only commands change stand. -/
def Obligations.StepRunsTheFrontCommand : Prop :=
  (∀ (s : State) (c : Instr) (rest : List Instr), s.pending = c :: rest → step s = exec c { s with pending := rest }) ∧
  (∀ (s : State), s.pending = [] → ∃ t, step s = .next t ∧ t.pending = [] ∧ t.clk.now = s.clk.now + 1 ∧
    t.clk.drive = (if s.clk.driveRuns then s.clk.drive + 1 else s.clk.drive) ∧ t.clk.lost = s.clk.lost ∧
    ∀ p ∈ [Part.firmware, .boot, .power, .security, .backstay, .errorCounters, .can, .switchLatches], Same s t p)

/-- Every command has an effect or leaves the state alone: none faults and none is refused, whatever its operands and the state; it leaves the
waiting commands as they are; and each of ten parts of the block is changed only by the commands named for it, and by an entry into
reset. -/
def Obligations.EveryCommandRunsAndKeepsTheOtherParts : Prop :=
  ∀ (c : Instr) (s : State), ∃ t, exec c s = .next t ∧ t.pending = s.pending ∧ ∀ p, mayChange p c = false → Same s t p

/-- After reset the block is in BOOT at phase 0 and held in reset, with every axis OFF and no trip, no event and no response, the attention
masks all set, nothing waiting, and empty memories in their canonical form (Tables 3.7, 3.8, 3.13). -/
def Obligations.ResetLeavesTheStatedValues : Prop :=
  State.reset.mode = .boot ∧ State.reset.power.inReset = true ∧ State.reset.boot.phase = 0 ∧ State.reset.pending = [] ∧
  regMode State.reset % 256 = modeCode .boot ∧ State.reset.host.done = 0 ∧ State.reset.host.events = [] ∧ State.reset.host.maskDone = 0xFFFF ∧
  (∀ n, (State.reset.axis n).core.st = .off ∧ (State.reset.axis n).trip.src = 0) ∧
  MemoriesCanonical State.reset ∧ HaltCodeLegal State.reset

/-- The mailbox RAM and the CAN message RAM keep their canonical form over every step from every state that has it. -/
def Obligations.EveryStepKeepsTheMemoriesCanonical : Prop :=
  ∀ (s t : State), MemoriesCanonical s → step s = .next t → MemoriesCanonical t

/-- BOOTSTAT.HALT_CODE holds one of the six codes while HALT is set and 0 while it is clear, after every step from every state in which it
does (R584). -/
def Obligations.HaltCodeHoldsOnlyItsSixCodes : Prop :=
  (∀ (s t : State), HaltCodeLegal s → step s = .next t → HaltCodeLegal t) ∧
  ∀ c, c ∈ haltCodes ↔ c = 0x0102 ∨ c = 0x0104 ∨ c = 0x0105 ∨ c = 0x0106 ∨ c = 0x080B ∨ c = 0x0E01

/-- Out of reset, SAFE is left only by SAFE.CLEAR or an entry into reset, and a latched trip source stays latched but for SAFE.CLEAR_TRIP and an
entry into reset, over every step from every state (Tables 2.1 and 6.4). -/
def Obligations.SafeAndTripsEndOnlyByTheirClears : Prop :=
  (∀ (s t : State), s.mode = .safe → s.power.inReset = false → step s = .next t → t.mode ≠ .safe →
    ∃ c rest, s.pending = c :: rest ∧ (entersReset c = true ∨ ∃ slot, c = .safeClear slot)) ∧
  (∀ (s t : State) (n : Fin 4) (b : Nat), bitAt (s.axis n).trip.src b = true → step s = .next t → bitAt (t.axis n).trip.src b = false →
    ∃ c rest, s.pending = c :: rest ∧ (entersReset c = true ∨ ∃ slot clocks supplies, c = .safeClearTrip slot clocks supplies))

/-- What no step takes back: the life cycle never returns to an earlier state, the UID stands, FW_FLOOR, the next INDEX of the log and the exported
index never fall, model time never runs back, and no free value is drawn twice (R509, R513, R527, R537; the counter of free values and
model time are the model's own, log entries 1 and 5). -/
def Obligations.HistoryIsNeverTakenBack : Prop :=
  ∀ (s t : State), step s = .next t →
    lifeRank s.sec.life ≤ lifeRank t.sec.life ∧ t.sec.fuses.uid = s.sec.fuses.uid ∧ s.sec.fuses.fwFloor ≤ t.sec.fuses.fwFloor ∧
    s.log.next ≤ t.log.next ∧ s.log.exported ≤ t.log.exported ∧ s.clk.now ≤ t.clk.now ∧ s.free ≤ t.free
end

