-- ==== Sys2Proof/Laws/Commands.lean ====
section
/-! SUPPORT. What a mailbox command does where it is accepted, and where it is not. -/
namespace Sys2Proof.Machine
open Sys2Proof

/-- The five parts of an accepted command. -/
theorem ready_parts {s : State} {slot code : Nat} {j : Job} (h : Ready s slot code j) :
    nextJob s = some j ∧ j.slot = slot ∧ j.code = code ∧ (∀ u, unitOf j = some u → unitPresent s u = true) ∧ modeReason s j = none := by
  simp only [Ready, ready, Bool.and_eq_true, decide_eq_true_eq, beq_iff_eq, Option.isNone_iff_eq_none] at h
  obtain ⟨⟨⟨⟨h1, h2⟩, h3⟩, h4⟩, h5⟩ := h
  exact ⟨h1, h2, h3, fun u hu => by rw [hu] at h4; exact h4, h5⟩

/-- An accepted command has the effect of its body, and the state settles. -/
theorem command_ready {s : State} {slot code : Nat} {j : Job} (h : Ready s slot code j) (body : State → Job → State) :
    command s slot code body = .next (settle s (body s j)) := by
  obtain ⟨h1, h2, h3, h4, h5⟩ := ready_parts h
  have g : gate s j body = body s j := by
    unfold gate
    split
    · rename_i u hu
      rw [h4 u hu, h5]
      rfl
    · rw [h5]
  unfold command
  rw [h1]
  simp only [h2, h3, and_self, if_true, finish, g]

/-- A command whose slot and code are not those of the next one to start changes nothing. -/
theorem command_idle {s : State} {slot code : Nat} (h : ∀ j, nextJob s = some j → ¬(j.slot = slot ∧ j.code = code)) (body : State → Job → State) :
    command s slot code body = .next s := by
  unfold command
  split
  · rename_i j hj
    rw [if_neg (h j hj)]
  · rfl

/-- A command always answers a next state. -/
theorem command_next (s : State) (slot code : Nat) (body : State → Job → State) : ∃ t, command s slot code body = .next t := by
  unfold command
  split
  · split
    · exact ⟨_, rfl⟩
    · exact ⟨_, rfl⟩
  · exact ⟨_, rfl⟩

end Sys2Proof.Machine
end

