-- ==== Sys2Proof/Laws/Operations.lean ====
section
/-! SUPPORT. What the shared operations can change, said once for each: records change the log alone, events the host interface and the
log, answers the host interface and the count of free values too, trips and safe states the axes and the safe outputs, frames sent the ring. -/
namespace Sys2Proof.Machine
open Sys2Proof

/-- The log may differ, and nothing else. -/
def ChangesLog (s t : State) : Prop := ∃ l, t = { s with log := l }
/-- The host interface and the log may differ, and nothing else. -/
def ChangesReports (s t : State) : Prop := ∃ h l, t = { s with host := h, log := l }
/-- The host interface, the log and the count of free values may differ, and nothing else. -/
def ChangesAnswers (s t : State) : Prop := ∃ h l k, t = { s with host := h, log := l, free := k }
/-- The axes and the safe outputs may differ, and nothing else. -/
def ChangesAxes (s t : State) : Prop := ∃ a o, t = { s with axes := a, so := o }

theorem ChangesLog.refl (s : State) : ChangesLog s s := ⟨_, rfl⟩
theorem ChangesReports.refl (s : State) : ChangesReports s s := ⟨_, _, rfl⟩
theorem ChangesAnswers.refl (s : State) : ChangesAnswers s s := ⟨_, _, _, rfl⟩
theorem ChangesAxes.refl (s : State) : ChangesAxes s s := ⟨_, _, rfl⟩

theorem ChangesLog.trans {a b c : State} : ChangesLog a b → ChangesLog b c → ChangesLog a c := by
  rintro ⟨_, rfl⟩ ⟨_, rfl⟩
  exact ⟨_, rfl⟩
theorem ChangesReports.trans {a b c : State} : ChangesReports a b → ChangesReports b c → ChangesReports a c := by
  rintro ⟨_, _, rfl⟩ ⟨_, _, rfl⟩
  exact ⟨_, _, rfl⟩
theorem ChangesAnswers.trans {a b c : State} : ChangesAnswers a b → ChangesAnswers b c → ChangesAnswers a c := by
  rintro ⟨_, _, _, rfl⟩ ⟨_, _, _, rfl⟩
  exact ⟨_, _, _, rfl⟩
theorem ChangesAxes.trans {a b c : State} : ChangesAxes a b → ChangesAxes b c → ChangesAxes a c := by
  rintro ⟨_, _, rfl⟩ ⟨_, _, rfl⟩
  exact ⟨_, _, rfl⟩

theorem ChangesLog.reports {a b : State} : ChangesLog a b → ChangesReports a b := by
  rintro ⟨_, rfl⟩
  exact ⟨_, _, rfl⟩
theorem ChangesReports.answers {a b : State} : ChangesReports a b → ChangesAnswers a b := by
  rintro ⟨_, _, rfl⟩
  exact ⟨_, _, _, rfl⟩

theorem ChangesLog.ite {a b c : State} {p : Prop} [Decidable p] (h : ChangesLog a b) (k : ChangesLog a c) : ChangesLog a (if p then b else c) := by
  split <;> assumption
theorem ChangesReports.ite {a b c : State} {p : Prop} [Decidable p] (h : ChangesReports a b) (k : ChangesReports a c) :
    ChangesReports a (if p then b else c) := by
  split <;> assumption
theorem ChangesAxes.ite {a b c : State} {p : Prop} [Decidable p] (h : ChangesAxes a b) (k : ChangesAxes a c) : ChangesAxes a (if p then b else c) := by
  split <;> assumption

theorem ChangesLog.foldl {α : Type} (f : State → α → State) (h : ∀ s a, ChangesLog s (f s a)) : ∀ (l : List α) (s : State), ChangesLog s (l.foldl f s)
  | [], s => .refl s
  | a :: l, s => (h s a).trans (ChangesLog.foldl f h l _)
theorem ChangesAxes.foldl {α : Type} (f : State → α → State) (h : ∀ s a, ChangesAxes s (f s a)) : ∀ (l : List α) (s : State), ChangesAxes s (l.foldl f s)
  | [], s => .refl s
  | a :: l, s => (h s a).trans (ChangesAxes.foldl f h l _)

/-! ## Records -/

theorem logAppend_log (s : State) (d : LogDraft) : ChangesLog s (logAppend s d) := ⟨_, rfl⟩

theorem logCommit_log (s : State) (d : LogDraft) : ChangesLog s (logCommit s d) := .ite ⟨_, rfl⟩ ⟨_, rfl⟩

theorem logGenesis_log (s : State) : ChangesLog s (logGenesis s) := .ite ⟨_, rfl⟩ (.refl s)

theorem logOpen_log (s : State) : ChangesLog s (logOpen s) := by
  unfold logOpen
  split
  · exact .refl s
  · exact ⟨_, rfl⟩

theorem logFull_log (s : State) : ChangesLog s (logFull s) := .ite ⟨_, rfl⟩ (.refl s)

theorem logWriteNow_log (s : State) (d : LogDraft) : ChangesLog s (logWriteNow s d) := by
  have h := (logGenesis_log s).trans (logOpen_log _)
  unfold logWriteNow
  dsimp only
  refine .ite ⟨_, rfl⟩ (.ite (.ite ?_ ?_) (h.trans ((logCommit_log _ _).trans (logFull_log _))))
  · exact (h.trans ((logCommit_log _ _).trans (logFull_log _))).trans ⟨_, rfl⟩
  · exact (h.trans ((logCommit_log _ _).trans (logFull_log _))).trans ((logCommit_log _ _).trans (logFull_log _))

theorem logWrite_log (s : State) (d : LogDraft) : ChangesLog s (logWrite s d) := .ite ⟨_, rfl⟩ (logWriteNow_log s d)

/-- A record changes the log alone. -/
theorem logRec_log (s : State) (type severity unit : Nat) (body : List Byte) : ChangesLog s (logRec s type severity unit body) := logWrite_log s _

theorem logDrain_log (s : State) : ChangesLog s (logDrain s) :=
  ChangesLog.trans (b := { s with log := { s.log with waiting := [] } }) ⟨_, rfl⟩ (ChangesLog.foldl _ logWrite_log _ _)

theorem logIdSig_log (s : State) : ChangesLog s (logIdSig s) := logRec_log _ _ _ _ _

/-- A checkpoint changes the log alone. -/
theorem logCheckpoint_log (s : State) : ChangesLog s (logCheckpoint s) := by
  unfold logCheckpoint
  split
  · exact ⟨_, rfl⟩
  · dsimp only
    exact .ite ⟨_, rfl⟩ (ChangesLog.trans ⟨_, rfl⟩ (logDrain_log _))

theorem counterRecords_log (s : State) : ChangesLog s (counterRecords s) :=
  ChangesLog.foldl _ (fun t _ => .ite (logRec_log t _ _ _ _) (.refl t)) _ _

/-! ## Events -/

theorem queueEvent_reports (s : State) (e : EventEntry) : ChangesReports s (queueEvent s e) := by
  have go (h : HostPart) (body : List Byte) : ChangesReports s (logRec { s with host := h } 0x0010 sevWarn 0xFF body) :=
    ChangesReports.trans (b := { s with host := h }) ⟨_, _, rfl⟩ (logRec_log _ _ _ _ _).reports
  unfold queueEvent
  dsimp only
  repeat' split
  all_goals first
    | exact ⟨_, _, rfl⟩
    | exact go _ _

theorem raiseSev_reports (s : State) (code severity unit data : Nat) (extra : List Byte) (logged : Bool) :
    ChangesReports s (raiseSev s code severity unit data extra logged) := by
  unfold raiseSev
  dsimp only
  refine .ite (.refl s) (.ite ?_ ?_)
  · exact (ChangesReports.ite (queueEvent_reports _ _) (.refl s)).trans (logRec_log _ _ _ _ _).reports
  · exact .ite (queueEvent_reports _ _) (.refl s)

/-- An event changes the host interface and the log, and nothing else. -/
theorem raise_reports (s : State) (code unit data : Nat) : ChangesReports s (raise s code unit data) := by
  unfold raise
  split
  · exact raiseSev_reports _ _ _ _ _ _ _
  · exact .refl s

theorem raiseLogged_reports (s : State) (code unit data : Nat) (extra : List Byte) : ChangesReports s (raiseLogged s code unit data extra) := by
  unfold raiseLogged
  split
  · exact raiseSev_reports _ _ _ _ _ _ _
  · exact .refl s

theorem raiseAxis_reports (s : State) (code : Nat) (n : Fin 4) (low : Nat) : ChangesReports s (raiseAxis s code n low) := raise_reports _ _ _ _

theorem raiseLimited_reports (s : State) (code inst unit rest : Nat) : ChangesReports s (raiseLimited s code inst unit rest) := by
  unfold raiseLimited
  split
  · exact ⟨_, _, rfl⟩
  · have h := raiseLogged_reports s code unit (limitedData code rest 1) (limitedExtra code 1)
    have k := ChangesReports.ite (p := severityOf code = some sevInfo) (raise_reports s code unit (limitedData code rest 1)) h
    exact k.trans ⟨_, _, rfl⟩

/-! ## Answers -/

/-- A CAN time stamp may use up a free value, and changes nothing else. -/
theorem canStamp_free (s : State) (n : Fin 4) : ∃ v k, canStamp s n = (v, { s with free := k }) := by
  unfold canStamp drawNat
  split <;> exact ⟨_, _, rfl⟩

/-- A frame handed to a CAN controller is queued there, and a time stamp in bit times is a free value. -/
theorem sendHost_answers (s : State) (proto : Nat) (frame : List Byte) : ChangesAnswers s (sendHost s proto frame) := by
  unfold sendHost
  split
  · exact .refl s
  · rename_i n _
    obtain ⟨v, k, e⟩ := canStamp_free s n
    rw [e]
    exact ⟨_, _, _, rfl⟩

theorem deliver_answers (s : State) (slot : Nat) (frame : List Byte) : ChangesAnswers s (deliver s slot frame) := by
  unfold deliver
  split
  · exact ⟨_, _, _, rfl⟩
  · exact (sendHost_answers s _ _).trans ⟨_, _, _, rfl⟩

/-- An answer changes the host interface and the count of free values, and nothing else of what a command acts on. -/
theorem respond_answers (s : State) (j : Job) (status : Nat) (payload : List Byte) : ChangesAnswers s (respond s j status payload) := by
  unfold respond
  dsimp only
  refine ChangesAnswers.trans ?_ (deliver_answers _ _ _)
  exact ⟨_, _, _, rfl⟩

theorem badParameter_answers (s : State) (j : Job) : ChangesAnswers s (badParameter s j) := respond_answers _ _ _ _
theorem refuse_answers (s : State) (j : Job) (reason : Nat) : ChangesAnswers s (refuse s j reason) := respond_answers _ _ _ _
theorem authRequired_answers (s : State) (j : Job) : ChangesAnswers s (authRequired s j) := (raise_reports _ _ _ _).answers.trans (respond_answers _ _ _ _)

/-! ## Frames sent by Halyard -/

/-- A frame sent changes the ring alone. -/
theorem ringSend_ring (s : State) (type : Nat) (payload : List Byte) : ∃ r, ringSend s type payload = { s with ring := r } := by
  unfold ringSend portsSend linkSend
  dsimp only
  split <;> exact ⟨_, rfl⟩

/-! ## Trips and safe states -/

theorem setAxis_axes (s : State) (n : Fin 4) (f : Axis → Axis) : ChangesAxes s (s.setAxis n f) := ⟨_, _, rfl⟩

theorem forAxes_axes (s : State) (p : State → Fin 4 → Bool) (f : State → Fin 4 → State) (h : ∀ s n, ChangesAxes s (f s n)) : ChangesAxes s (s.forAxes p f) :=
  ChangesAxes.foldl _ (fun t n => .ite (h t n) (.refl t)) _ _

theorem captureTrip_axes (s : State) (n : Fin 4) : ChangesAxes s (captureTrip s n) := .ite (.refl s) (setAxis_axes _ _ _)

theorem brakeOff_axes (s : State) (n : Fin 4) : ChangesAxes s (brakeOff s n) := by
  unfold brakeOff
  dsimp only
  repeat' split
  all_goals exact ⟨_, _, rfl⟩

theorem enterAxisSafe_axes (s : State) (n : Fin 4) (sub : SafeSub) : ChangesAxes s (enterAxisSafe s n sub) := (setAxis_axes s n _).trans (brakeOff_axes _ _)

theorem axisOff_axes (s : State) (n : Fin 4) : ChangesAxes s (axisOff s n) := (setAxis_axes s n _).trans (brakeOff_axes _ _)

theorem tripOne_axes (s : State) (n : Fin 4) (bit : Nat) : ChangesAxes s (tripOne s n bit) := by
  have h (f : Axis → Axis) : ChangesAxes s (captureTrip (s.setAxis n f) n) := (setAxis_axes s n f).trans (captureTrip_axes _ n)
  unfold tripOne
  dsimp only
  exact .ite (.refl s) (.ite (h _) (.ite (.ite ((h _).trans (enterAxisSafe_axes _ _ _)) (.ite ((h _).trans (setAxis_axes _ _ _)) (h _)))
    ((h _).trans (enterAxisSafe_axes _ _ _))))

/-- A latched trip changes the axes and their brakes, and nothing else. -/
theorem latchTrip_axes (s : State) (n : Fin 4) (bit : Nat) : ChangesAxes s (latchTrip s n bit) :=
  (tripOne_axes s n bit).trans (ChangesAxes.foldl _ (fun t m => tripOne_axes t m _) _ _)

theorem firmwareTrip_axes (s : State) (n : Fin 4) (cause : Nat) : ChangesAxes s (firmwareTrip s n cause) := (setAxis_axes s n _).trans (latchTrip_axes _ _ _)

theorem tripAll_axes (s : State) (bit : Nat) : ChangesAxes s (tripAll s bit) := forAxes_axes _ _ _ fun t n => tripOne_axes t n bit

theorem firmwareTripAll_axes (s : State) (cause : Nat) : ChangesAxes s (firmwareTripAll s cause) := forAxes_axes _ _ _ fun t n => firmwareTrip_axes t n cause

theorem axisToSafe_axes (s : State) (n : Fin 4) : ChangesAxes s (axisToSafe s n) := by
  unfold axisToSafe
  dsimp only
  split
  · exact .refl s
  · exact enterAxisSafe_axes _ _ _
  · exact enterAxisSafe_axes _ _ _

theorem requestSs1_axes (s : State) (n : Fin 4) : ChangesAxes s (requestSs1 s n) := by
  unfold requestSs1
  dsimp only
  repeat' split
  all_goals first
    | exact ⟨_, _, rfl⟩
    | exact axisOff_axes _ _

/-- The mode of a state that latches SAFE: SAFE from IDLE, RUN and SERVICE, and as it was otherwise. -/
theorem latchSafe_mode (s : State) : (latchSafe s).mode = match s.mode with | .idle | .run | .service => .safe | m => m := by
  have k (t : State) : (tackAbort t).mode = t.mode := by
    have h (u : State) : (raise u evTackAborted 0xFF 0).mode = u.mode := by
      obtain ⟨_, _, e⟩ := raise_reports u evTackAborted 0xFF 0
      rw [e]
    have r (u : State) (type : Nat) (payload : List Byte) : (ringSend u type payload).mode = u.mode := by
      obtain ⟨_, e⟩ := ringSend_ring u type payload
      rw [e]
    unfold tackAbort
    repeat' split
    all_goals first
      | rfl
      | rw [h, r]
      | rw [h]
  unfold latchSafe
  split <;> rename_i e <;> simp only [e, k] <;> (try rfl)

end Sys2Proof.Machine
end

