-- ==== Sys2Proof/Laws/Keeps.lean ====
section
/-! SUPPORT. One lemma per shared operation on what it leaves alone: everything of Steady. -/
namespace Sys2Proof.Machine
open Sys2Proof

theorem Steady.refl (s : State) : Steady s s := ⟨rfl, rfl, rfl, rfl, rfl, rfl, rfl, rfl, rfl, rfl, rfl, rfl⟩

theorem Steady.trans {a b c : State} (h : Steady a b) (k : Steady b c) : Steady a c :=
  ⟨k.clk.trans h.clk, k.power.trans h.power, k.boot.trans h.boot, k.fw.trans h.fw, k.sec.trans h.sec, k.sensing.trans h.sensing,
   k.rig.trans h.rig, k.back.trans h.back, k.ecc.trans h.ecc, k.can.trans h.can, k.refsw.trans h.refsw, k.pending.trans h.pending⟩

theorem Steady.ite {a b c : State} {p : Prop} [Decidable p] (h : Steady a b) (k : Steady a c) : Steady a (if p then b else c) := by
  split <;> assumption

theorem Steady.foldl {α : Type} (f : State → α → State) (h : ∀ s a, Steady s (f s a)) : ∀ (l : List α) (s : State), Steady s (l.foldl f s)
  | [], s => .refl s
  | a :: l, s => (h s a).trans (Steady.foldl f h l _)

/-! ## A new value of one part -/

theorem steady_mode (s : State) (x : Mode) : Steady s { s with mode := x } := ⟨rfl, rfl, rfl, rfl, rfl, rfl, rfl, rfl, rfl, rfl, rfl, rfl⟩
theorem steady_host (s : State) (x : HostPart) : Steady s { s with host := x } := ⟨rfl, rfl, rfl, rfl, rfl, rfl, rfl, rfl, rfl, rfl, rfl, rfl⟩
theorem steady_cfg (s : State) (x : CfgPart) : Steady s { s with cfg := x } := ⟨rfl, rfl, rfl, rfl, rfl, rfl, rfl, rfl, rfl, rfl, rfl, rfl⟩
theorem steady_log (s : State) (x : Log) : Steady s { s with log := x } := ⟨rfl, rfl, rfl, rfl, rfl, rfl, rfl, rfl, rfl, rfl, rfl, rfl⟩
theorem steady_sto (s : State) (x : Sto) : Steady s { s with sto := x } := ⟨rfl, rfl, rfl, rfl, rfl, rfl, rfl, rfl, rfl, rfl, rfl, rfl⟩
theorem steady_pos (s : State) (x : Vector PosIfc 4) : Steady s { s with pos := x } := ⟨rfl, rfl, rfl, rfl, rfl, rfl, rfl, rfl, rfl, rfl, rfl, rfl⟩
theorem steady_aux (s : State) (x : Aux) : Steady s { s with aux := x } := ⟨rfl, rfl, rfl, rfl, rfl, rfl, rfl, rfl, rfl, rfl, rfl, rfl⟩
theorem steady_disch (s : State) (x : Discharge) : Steady s { s with disch := x } := ⟨rfl, rfl, rfl, rfl, rfl, rfl, rfl, rfl, rfl, rfl, rfl, rfl⟩
theorem steady_lock (s : State) (x : Lockstep) : Steady s { s with lock := x } := ⟨rfl, rfl, rfl, rfl, rfl, rfl, rfl, rfl, rfl, rfl, rfl, rfl⟩
theorem steady_si (s : State) (x : SafeIn) : Steady s { s with si := x } := ⟨rfl, rfl, rfl, rfl, rfl, rfl, rfl, rfl, rfl, rfl, rfl, rfl⟩
theorem steady_so (s : State) (x : SafeOut) : Steady s { s with so := x } := ⟨rfl, rfl, rfl, rfl, rfl, rfl, rfl, rfl, rfl, rfl, rfl, rfl⟩
theorem steady_ring (s : State) (x : Ring) : Steady s { s with ring := x } := ⟨rfl, rfl, rfl, rfl, rfl, rfl, rfl, rfl, rfl, rfl, rfl, rfl⟩
theorem steady_axes (s : State) (x : Vector Axis 4) : Steady s { s with axes := x } := ⟨rfl, rfl, rfl, rfl, rfl, rfl, rfl, rfl, rfl, rfl, rfl, rfl⟩

theorem setAxis_steady (s : State) (n : Fin 4) (f : Axis → Axis) : Steady s (s.setAxis n f) := ⟨rfl, rfl, rfl, rfl, rfl, rfl, rfl, rfl, rfl, rfl, rfl, rfl⟩

theorem forAxes_steady (s : State) (p : State → Fin 4 → Bool) (f : State → Fin 4 → State) (h : ∀ s n, Steady s (f s n)) :
    Steady s (s.forAxes p f) := Steady.foldl _ (fun t n => .ite (h t n) (.refl t)) _ _

theorem logAppend_steady (s : State) (d : LogDraft) : Steady s (logAppend s d) := ⟨rfl, rfl, rfl, rfl, rfl, rfl, rfl, rfl, rfl, rfl, rfl, rfl⟩

theorem logCommit_steady (s : State) (d : LogDraft) : Steady s (logCommit s d) := by
  unfold logCommit
  exact .ite ⟨rfl, rfl, rfl, rfl, rfl, rfl, rfl, rfl, rfl, rfl, rfl, rfl⟩ (logAppend_steady s d)

theorem logGenesis_steady (s : State) : Steady s (logGenesis s) := by
  unfold logGenesis
  exact .ite (logAppend_steady _ _) (.refl s)

theorem logOpen_steady (s : State) : Steady s (logOpen s) := by
  unfold logOpen
  split
  · exact .refl s
  · have h := logAppend_steady s (draftNow s 0x0002 sevInfo 0xFF s.log.chain)
    exact h.trans (steady_log _ _)

theorem logFull_steady (s : State) : Steady s (logFull s) := by
  unfold logFull
  exact .ite ⟨rfl, rfl, rfl, rfl, rfl, rfl, rfl, rfl, rfl, rfl, rfl, rfl⟩ (.refl s)

theorem logWriteNow_steady (s : State) (d : LogDraft) : Steady s (logWriteNow s d) := by
  have h := (logGenesis_steady s).trans (logOpen_steady _)
  unfold logWriteNow
  dsimp only
  refine .ite ⟨rfl, rfl, rfl, rfl, rfl, rfl, rfl, rfl, rfl, rfl, rfl, rfl⟩ (.ite (.ite ?_ ?_) (h.trans ((logCommit_steady _ _).trans (logFull_steady _))))
  · exact (h.trans ((logCommit_steady _ _).trans (logFull_steady _))).trans ⟨rfl, rfl, rfl, rfl, rfl, rfl, rfl, rfl, rfl, rfl, rfl, rfl⟩
  · exact (h.trans ((logCommit_steady _ _).trans (logFull_steady _))).trans ((logCommit_steady _ _).trans (logFull_steady _))

theorem logWrite_steady (s : State) (d : LogDraft) : Steady s (logWrite s d) := by
  unfold logWrite
  exact .ite ⟨rfl, rfl, rfl, rfl, rfl, rfl, rfl, rfl, rfl, rfl, rfl, rfl⟩ (logWriteNow_steady s d)

theorem logRec_steady (s : State) (type severity unit : Nat) (body : List Byte) : Steady s (logRec s type severity unit body) :=
  logWrite_steady s _

theorem queueEvent_steady (s : State) (e : EventEntry) : Steady s (queueEvent s e) := by
  unfold queueEvent
  dsimp only
  repeat' split
  all_goals first
    | exact ⟨rfl, rfl, rfl, rfl, rfl, rfl, rfl, rfl, rfl, rfl, rfl, rfl⟩
    | exact Steady.trans (steady_host s _) (logRec_steady _ _ _ _ _)

theorem raiseSev_steady (s : State) (code severity unit data : Nat) (extra : List Byte) (logged : Bool) :
    Steady s (raiseSev s code severity unit data extra logged) := by
  unfold raiseSev
  dsimp only
  refine .ite (.refl s) (.ite ?_ ?_)
  · exact (Steady.ite (queueEvent_steady _ _) (.refl s)).trans (logRec_steady _ _ _ _ _)
  · exact .ite (queueEvent_steady _ _) (.refl s)

theorem raise_steady (s : State) (code unit data : Nat) : Steady s (raise s code unit data) := by
  unfold raise
  split
  · exact raiseSev_steady _ _ _ _ _ _ _
  · exact .refl s

theorem raiseLogged_steady (s : State) (code unit data : Nat) (extra : List Byte) : Steady s (raiseLogged s code unit data extra) := by
  unfold raiseLogged
  split
  · exact raiseSev_steady _ _ _ _ _ _ _
  · exact .refl s

theorem raiseAxis_steady (s : State) (code : Nat) (n : Fin 4) (low : Nat) : Steady s (raiseAxis s code n low) := raise_steady _ _ _ _

theorem raiseLimited_steady (s : State) (code inst unit rest : Nat) : Steady s (raiseLimited s code inst unit rest) := by
  unfold raiseLimited
  split
  · exact steady_host s _
  · have h := raiseLogged_steady s code unit (limitedData code rest 1) (limitedExtra code 1)
    have k := Steady.ite (p := severityOf code = some sevInfo) (raise_steady s code unit (limitedData code rest 1)) h
    exact k.trans (steady_host _ _)

/-! ## Trips and the safe state -/

theorem captureTrip_steady (s : State) (n : Fin 4) : Steady s (captureTrip s n) := by
  unfold captureTrip
  exact .ite (.refl s) (setAxis_steady _ _ _)

theorem brakeOff_steady (s : State) (n : Fin 4) : Steady s (brakeOff s n) := by
  unfold brakeOff
  dsimp only
  repeat' split
  all_goals exact ⟨rfl, rfl, rfl, rfl, rfl, rfl, rfl, rfl, rfl, rfl, rfl, rfl⟩

theorem enterAxisSafe_steady (s : State) (n : Fin 4) (sub : SafeSub) : Steady s (enterAxisSafe s n sub) :=
  (setAxis_steady s n _).trans (brakeOff_steady _ _)

theorem axisOff_steady (s : State) (n : Fin 4) : Steady s (axisOff s n) := (setAxis_steady s n _).trans (brakeOff_steady _ _)

theorem tripOne_steady (s : State) (n : Fin 4) (bit : Nat) : Steady s (tripOne s n bit) := by
  have h (f : Axis → Axis) : Steady s (captureTrip (s.setAxis n f) n) := (setAxis_steady s n f).trans (captureTrip_steady _ n)
  unfold tripOne
  dsimp only
  exact .ite (.refl s) (.ite (h _) (.ite (.ite ((h _).trans (enterAxisSafe_steady _ _ _)) (.ite ((h _).trans (setAxis_steady _ _ _)) (h _)))
    ((h _).trans (enterAxisSafe_steady _ _ _))))

theorem latchTrip_steady (s : State) (n : Fin 4) (bit : Nat) : Steady s (latchTrip s n bit) :=
  (tripOne_steady s n bit).trans (Steady.foldl _ (fun t m => tripOne_steady t m _) _ _)

theorem firmwareTrip_steady (s : State) (n : Fin 4) (cause : Nat) : Steady s (firmwareTrip s n cause) :=
  (setAxis_steady s n _).trans (latchTrip_steady _ _ _)

theorem tripAll_steady (s : State) (bit : Nat) : Steady s (tripAll s bit) := forAxes_steady _ _ _ fun t n => tripOne_steady t n bit

theorem firmwareTripAll_steady (s : State) (cause : Nat) : Steady s (firmwareTripAll s cause) :=
  forAxes_steady _ _ _ fun t n => firmwareTrip_steady t n cause

theorem linkSend_steady (s : State) (frames : List (Nat × Nat × List Byte)) : Steady s (linkSend s frames) :=
  .ite ⟨rfl, rfl, rfl, rfl, rfl, rfl, rfl, rfl, rfl, rfl, rfl, rfl⟩ (.refl s)

theorem ringSend_steady (s : State) (type : Nat) (payload : List Byte) : Steady s (ringSend s type payload) :=
  (linkSend_steady s _).trans ⟨rfl, rfl, rfl, rfl, rfl, rfl, rfl, rfl, rfl, rfl, rfl, rfl⟩

theorem ChangesAxes.steady {s t : State} (h : ChangesAxes s t) : Steady s t := by
  obtain ⟨_, _, rfl⟩ := h
  exact ⟨rfl, rfl, rfl, rfl, rfl, rfl, rfl, rfl, rfl, rfl, rfl, rfl⟩

theorem requestSs1_steady (s : State) (n : Fin 4) : Steady s (requestSs1 s n) := (requestSs1_axes s n).steady

theorem tackAbort_steady (s : State) : Steady s (tackAbort s) := by
  have a (c : CfgPart) : Steady s { s with cfg := c } := steady_cfg s c
  have b (c : CfgPart) (r : Ring) : Steady s { s with cfg := c, ring := r } := ⟨rfl, rfl, rfl, rfl, rfl, rfl, rfl, rfl, rfl, rfl, rfl, rfl⟩
  unfold tackAbort
  split
  · exact .refl s
  · exact .ite (.ite (((b _ _).trans (ringSend_steady _ _ _)).trans (raise_steady _ _ _ _)) (.refl s)) (.ite ((a _).trans (raise_steady _ _ _ _)) (.refl s))

theorem axisToSafe_steady (s : State) (n : Fin 4) : Steady s (axisToSafe s n) := by
  unfold axisToSafe
  dsimp only
  split
  · exact .refl s
  · exact enterAxisSafe_steady _ _ _
  · exact enterAxisSafe_steady _ _ _

theorem latchSafe_steady (s : State) : Steady s (latchSafe s) := by
  have h : Steady s (tackAbort { (s.forAxes axPresent axisToSafe) with mode := .safe }) := by
    refine Steady.trans ?_ (tackAbort_steady _)
    refine Steady.trans ?_ (steady_mode _ _)
    exact forAxes_steady s _ _ axisToSafe_steady
  unfold latchSafe
  split <;> first | exact h | exact .refl s

theorem freewheelAll_steady (s : State) : Steady s (freewheelAll s) := forAxes_steady _ _ _ fun t n => setAxis_steady t n _

/-! ## Auxiliary channel and Safe Torque Off -/

theorem setAux_steady (s : State) (f : Aux → Aux) : Steady s (s.setAux f) := ⟨rfl, rfl, rfl, rfl, rfl, rfl, rfl, rfl, rfl, rfl, rfl, rfl⟩

theorem auxDiscard_steady (s : State) : Steady s (auxDiscard s) := by
  unfold auxDiscard
  exact .ite ((setAux_steady s _).trans (raise_steady _ _ _ _)) (.refl s)

theorem auxKeep_steady (s : State) : Steady s (auxKeep s) := by
  unfold auxKeep
  exact .ite (setAux_steady s _) (.refl s)

theorem auxPositionOff_steady (s : State) : Steady s (auxPositionOff s) := by
  unfold auxPositionOff
  exact .ite (.refl s) (.ite (auxKeep_steady s) ((setAux_steady s _).trans ((auxDiscard_steady _).trans (raise_steady _ _ _ _))))

theorem auxHold_steady (s : State) : Steady s (auxHold s) := by
  unfold auxHold
  exact .ite (.refl s) (setAux_steady s _)

theorem setPhase_steady (s : State) (b : Fin 2) (phase : Nat) (forward blank : Bool) : Steady s (setPhase s b phase forward blank) := by
  unfold setPhase
  exact (setAux_steady s _).trans (setAux_steady _ _)

theorem bridgeOff_steady (s : State) (b : Fin 2) : Steady s (bridgeOff s b) := by
  unfold bridgeOff
  exact (setPhase_steady s b _ _ _).trans (setAux_steady _ _)

theorem auxOff_steady (s : State) : Steady s (auxOff s) := by
  unfold auxOff
  refine .ite (.refl s) ?_
  refine Steady.trans ?_ (auxPositionOff_steady _)
  refine Steady.trans ?_ (bridgeOff_steady _ _)
  refine Steady.trans ?_ (bridgeOff_steady _ _)
  exact (auxHold_steady s).trans (setAux_steady _ _)

theorem driveBridge_steady (s : State) (b : Fin 2) : Steady s (driveBridge s b) := setPhase_steady s b _ _ _

theorem driveAll_steady (s : State) : Steady s (driveAll s) :=
  Steady.foldl _ (fun t b => .ite (bridgeOff_steady t b) (.ite (driveBridge_steady t b) (.refl t))) _ _

theorem auxSafe_steady (s : State) : Steady s (auxSafe s) := by
  unfold auxSafe
  exact .ite (((auxHold_steady s).trans ((auxKeep_steady _).trans (setAux_steady _ _))).trans (driveAll_steady _)) (.refl s)

theorem auxSafeEnds_steady (s : State) : Steady s (auxSafeEnds s) := by
  unfold auxSafeEnds
  exact .ite ((setAux_steady s _).trans (driveAll_steady _)) (.refl s)

theorem setGden_steady (s : State) (on : Bool) : Steady s (setGden s on) := ⟨rfl, rfl, rfl, rfl, rfl, rfl, rfl, rfl, rfl, rfl, rfl, rfl⟩

theorem stoBrakes_steady (s : State) : Steady s (stoBrakes s) := by
  unfold stoBrakes
  exact .ite (forAxes_steady _ _ _ brakeOff_steady) (.refl s)

theorem stoSplit_steady (old s : State) : Steady s (stoSplit old s) := by
  unfold stoSplit
  repeat' split
  all_goals first | exact .refl s | exact steady_sto s _

theorem stoEngage_steady (s : State) (src : StoSource) : Steady s (stoEngage s src) := by
  have h (x : Sto) : Steady s (auxOff (stoBrakes (setGden (stoSplit s { s with sto := x }) false))) := by
    refine Steady.trans ?_ (auxOff_steady _)
    refine Steady.trans ?_ (stoBrakes_steady _)
    exact ((steady_sto s x).trans (stoSplit_steady s _)).trans (setGden_steady _ _)
  unfold stoEngage
  refine Steady.trans ?_ (raise_steady _ _ _ _)
  refine .ite ?_ (h _)
  refine Steady.trans ?_ (freewheelAll_steady _)
  refine Steady.trans ?_ (latchSafe_steady _)
  exact (h _).trans (tripAll_steady _ _)

theorem askGden_steady (s : State) : Steady s (askGden s) := by
  unfold askGden
  exact .ite (.refl s) (.ite (steady_sto s _) (setGden_steady s _))

theorem settleStoInt_steady (s : State) : Steady s (settleStoInt s) := by
  have h : Steady s { s with sto := { s.sto with intSet := false } } := steady_sto s _
  unfold settleStoInt
  exact .ite (stoEngage_steady s _) (.ite (h.trans (askGden_steady _)) (.refl s))

theorem siResults_steady (s : State) : Steady s (siResults s) := by
  unfold siResults
  refine Steady.trans ?_ (settleStoInt_steady _)
  refine Steady.trans ?_ (forAxes_steady _ _ _ requestSs1_steady)
  refine Steady.trans ?_ (forAxes_steady _ _ _ fun t n => setAxis_steady t n _)
  exact steady_si s _

theorem settleContactor_steady (s : State) (k : Fin 4) : Steady s (settleContactor s k) := by
  unfold settleContactor
  exact .ite (steady_so s _) (.refl s)

theorem settleSafeIo_steady (s : State) : Steady s (settleSafeIo s) := by
  unfold settleSafeIo
  exact .ite (.refl s) ((siResults_steady s).trans ((settleContactor_steady _ _).trans (settleContactor_steady _ _)))

/-! ## Profiles and positions -/

theorem setProf_steady (s : State) (n : Fin 4) (f : Profile → Profile) : Steady s (s.setProf n f) := setAxis_steady s n _

theorem setIfc_steady (s : State) (i : Fin 4) (f : PosIfc → PosIfc) : Steady s (s.setIfc i f) := ⟨rfl, rfl, rfl, rfl, rfl, rfl, rfl, rfl, rfl, rfl, rfl, rfl⟩

theorem rearmSource_steady (s : State) (i : Fin 4) : Steady s (rearmSource s i) := by
  unfold rearmSource
  exact .ite (setIfc_steady s i _) (.refl s)

theorem discardMove_steady (s : State) (n : Fin 4) : Steady s (discardMove s n) := by
  unfold discardMove
  exact .ite ((setAxis_steady s n _).trans (raiseAxis_steady _ _ _ _)) (.refl s)

theorem rearmAxis_steady (s : State) (n : Fin 4) : Steady s (rearmAxis s n) := by
  unfold rearmAxis
  refine forAxes_steady _ _ _ fun t i => ?_
  dsimp only
  exact .ite ((rearmSource_steady t i).trans (discardMove_steady _ _)) (rearmSource_steady t i)

theorem latchHeld_steady (s : State) (n : Fin 4) : Steady s (latchHeld s n) := by
  unfold latchHeld
  split
  · exact (setProf_steady s n _).trans (raiseLogged_steady _ _ _ _ _)
  · exact .refl s

theorem releaseReference_steady (s : State) (n : Fin 4) : Steady s (releaseReference s n) := ⟨rfl, rfl, rfl, rfl, rfl, rfl, rfl, rfl, rfl, rfl, rfl, rfl⟩

/-! ## Answers -/

theorem ChangesAnswers.steady {s t : State} (h : ChangesAnswers s t) : Steady s t := by
  obtain ⟨_, _, _, rfl⟩ := h
  exact ⟨rfl, rfl, rfl, rfl, rfl, rfl, rfl, rfl, rfl, rfl, rfl, rfl⟩

theorem respond_steady (s : State) (j : Job) (status : Nat) (payload : List Byte) : Steady s (respond s j status payload) :=
  (respond_answers s j status payload).steady

theorem ringLeaveNow_steady (s : State) : Steady s (ringLeaveNow s) := by
  unfold ringLeaveNow
  refine .ite (steady_ring s _) ?_
  refine Steady.trans ?_ (raiseLogged_steady _ _ _ _ _)
  refine Steady.trans ?_ (steady_ring _ _)
  exact ringSend_steady s _ _

/-! ## Settling -/

theorem deriveMode_steady (s : State) : Steady s (deriveMode s) := by
  unfold deriveMode
  split <;> exact ⟨rfl, rfl, rfl, rfl, rfl, rfl, rfl, rfl, rfl, rfl, rfl, rfl⟩

theorem settleStart_steady (s : State) (n : Fin 4) : Steady s (settleStart s n) := by
  have h (t : State) (j : Job) (x : Nat) : Steady t (refuse t j x) := respond_steady _ _ _ _
  unfold settleStart
  dsimp only
  split
  · exact .refl s
  · split
    · exact .refl s
    · split
      · exact .ite ((setAxis_steady s n _).trans (h _ _ _)) (.ite ((setAxis_steady s n _).trans (h _ _ _))
          (.ite ((setAxis_steady s n _).trans (respond_steady _ _ _ _)) ((setAxis_steady s n _).trans (respond_steady _ _ _ _))))
      · exact setAxis_steady s n _

theorem settleNextRun_steady (old s : State) (n : Fin 4) : Steady s (settleNextRun old s n) := by
  unfold settleNextRun
  repeat' split
  all_goals first | exact .refl s | exact respond_steady _ _ _ _

theorem settleTack_steady (s : State) : Steady s (settleTack s) := by
  unfold settleTack
  repeat' split
  all_goals first | exact .refl s | exact respond_steady _ _ _ _

theorem settleMode_steady (old s : State) : Steady s (settleMode old s) := by
  have k (t : State) : Steady t (if firmwareUp t then { t with host := { t.host with outSystem := true } } else t) := .ite (steady_host t _) (.refl t)
  unfold settleMode
  have h := (logRec_steady s 0x0012 sevInfo 0xFF
    ([BitVec.ofNat 8 (modeCode old.mode), BitVec.ofNat 8 (modeCode s.mode), 0, 0] ++ leBytes 4 (regMode s))).trans (k _)
  exact .ite (.refl s) (.ite (h.trans (auxSafe_steady _)) (.ite (h.trans (auxSafeEnds_steady _)) h))

theorem settleFault_steady (old s : State) : Steady s (settleFault old s) := by
  unfold settleFault
  exact .ite ⟨rfl, rfl, rfl, rfl, rfl, rfl, rfl, rfl, rfl, rfl, rfl, rfl⟩ (.refl s)

theorem settleAxis_steady (old s : State) (n : Fin 4) : Steady s (settleAxis old s n) := by
  have h (p q : Bool) (f g : Axis → Axis) : Steady s (if q then (if p then s.setAxis n f else s).setAxis n g else (if p then s.setAxis n f else s)) := by
    have k : Steady s (if p then s.setAxis n f else s) := .ite (setAxis_steady s n f) (.refl s)
    exact .ite (k.trans (setAxis_steady _ _ _)) k
  unfold settleAxis
  refine .ite (h _ _ _ _) (.ite ?_ ?_)
  · refine Steady.trans ?_ (latchHeld_steady _ _)
    refine Steady.trans ?_ (rearmAxis_steady _ _)
    refine .ite (Steady.trans ?_ (releaseReference_steady _ _)) ?_
    all_goals exact .ite ((h _ _ _ _).trans (setProf_steady _ _ _)) (h _ _ _ _)
  · refine .ite (Steady.trans ?_ (releaseReference_steady _ _)) ?_
    all_goals exact .ite ((h _ _ _ _).trans (setProf_steady _ _ _)) (h _ _ _ _)

theorem faultAct_steady (s : State) (n : Fin 4) (leg : Fin 3) : Steady s (faultAct s n leg) := by
  unfold faultAct
  refine Steady.trans ?_ (raise_steady _ _ _ _)
  exact (setAxis_steady s n _).trans (latchTrip_steady _ _ _)

theorem settleFaults_steady (s : State) : Steady s (settleFaults s) :=
  Steady.foldl _ (fun t n => .ite (.refl t) (Steady.foldl _ (fun u l => .ite (faultAct_steady u n l) (.refl u)) _ _)) _ _

theorem chargeForced_steady (s : State) (n : Fin 4) (leg : Fin 3) : Steady s (chargeForced s n leg) := by
  unfold chargeForced
  exact .ite (.refl s) (.ite (setAxis_steady s n _) (.ite (setAxis_steady s n _) (.refl s)))

theorem settleForced_steady (s : State) : Steady s (settleForced s) :=
  Steady.foldl _ (fun _ n => Steady.foldl _ (fun u l => .ite (chargeForced_steady u n l) (.refl u)) _ _) _ _

theorem settleFreewheel_steady (s : State) (n : Fin 4) : Steady s (settleFreewheel s n) := by
  unfold settleFreewheel
  exact .ite (axisOff_steady s n) (.refl s)

theorem settleDischarge_steady (s : State) : Steady s (settleDischarge s) := by
  unfold settleDischarge
  exact .ite ⟨rfl, rfl, rfl, rfl, rfl, rfl, rfl, rfl, rfl, rfl, rfl, rfl⟩ (.refl s)

theorem settleLeave_steady (s : State) : Steady s (settleLeave s) := by
  unfold settleLeave
  exact .ite (ringLeaveNow_steady s) (.refl s)

theorem dropHalts_steady (s : State) : Steady s (dropHalts s) := by
  unfold dropHalts
  exact .ite ⟨rfl, rfl, rfl, rfl, rfl, rfl, rfl, rfl, rfl, rfl, rfl, rfl⟩ (.refl s)

theorem settleGates_steady (s : State) : Steady s (settleGates s) := Steady.foldl _ (fun t n => setAxis_steady t n _) _ _

theorem settleDriven_steady (s : State) : Steady s (settleDriven s) := Steady.foldl _ (fun t _ => .ite (.refl t) (steady_so t _)) _ _

theorem sendTrip_steady (s : State) : Steady s (sendTrip s) := by
  unfold sendTrip
  exact .ite (.refl s) (linkSend_steady s _)

/-- What follows a command leaves the steady parts alone. -/
theorem settle_steady (old s : State) : Steady s (settle old s) := by
  have h (t : State) : Steady s t → Steady s (if originTrips old == originTrips t then t else sendTrip t) := fun k =>
    .ite k (k.trans (sendTrip_steady t))
  unfold settle
  dsimp only
  refine h _ ?_
  refine Steady.trans ?_ (settleDriven_steady _)
  refine Steady.trans ?_ (settleFault_steady _ _)
  refine Steady.trans ?_ (settleMode_steady _ _)
  refine Steady.trans ?_ (settleGates_steady _)
  refine Steady.trans ?_ (settleForced_steady _)
  refine Steady.trans ?_ (dropHalts_steady _)
  refine Steady.trans ?_ (forAxes_steady _ _ _ (settleNextRun_steady old))
  refine Steady.trans ?_ (forAxes_steady _ _ _ settleStart_steady)
  refine Steady.trans ?_ (settleTack_steady _)
  refine Steady.trans ?_ (settleLeave_steady _)
  refine Steady.trans ?_ (deriveMode_steady _)
  refine Steady.trans ?_ (settleSafeIo_steady _)
  refine Steady.trans ?_ (Steady.foldl _ (settleAxis_steady old) _ _)
  exact ((settleFaults_steady s).trans (Steady.foldl _ settleFreewheel_steady _ _)).trans (settleDischarge_steady _)

/-! ## The passage of time for a ring member -/

theorem setMember_steady (s : State) (k : Nat) (f : RingMember → RingMember) : Steady s (s.setMember k f) := by
  unfold State.setMember
  split
  · exact steady_ring s _
  · exact .refl s

theorem beginElection_steady (s : State) : Steady s (beginElection s) := (steady_ring s _).trans (ringSend_steady _ _ _)

theorem isolate_steady (s : State) : Steady s (isolate s) := (steady_ring s _).trans (raise_steady _ _ _ _)

theorem dropMembers_steady (s : State) (reach : Nat) : Steady s (dropMembers s reach) :=
  Steady.foldl _ (fun t k => .ite (.refl t) (setMember_steady t k _)) _ _

theorem loseMaster_steady (s : State) : Steady s (loseMaster s) := ⟨rfl, rfl, rfl, rfl, rfl, rfl, rfl, rfl, rfl, rfl, rfl, rfl⟩

/-- What a segment does that has lost members is done to the ring, the host and the log. -/
theorem splitRing_steady (s : State) (reach : Nat) : Steady s (splitRing s reach) := by
  have h := dropMembers_steady s reach
  have k := h.trans (loseMaster_steady _)
  unfold splitRing
  dsimp only
  exact .ite (.refl s) (.ite h (.ite (k.trans (beginElection_steady _)) (k.trans (isolate_steady _))))

theorem refuseJoin_steady (s : State) (reason : Nat) : Steady s (refuseJoin s reason) := by
  unfold refuseJoin
  dsimp only
  split
  · exact (steady_ring s _).trans (respond_steady _ _ _ _)
  · exact steady_ring s _

theorem dropSilent_steady (s : State) : Steady s (dropSilent s) := by
  unfold dropSilent
  dsimp only
  split
  · exact splitRing_steady s _
  · exact .refl s

/-- What passes by time for a member is done to the ring, the host and the log. -/
theorem tickMembers_steady (s : State) : Steady s (tickMembers s) := by
  have h := dropSilent_steady s
  unfold tickMembers
  generalize dropSilent s = t at h ⊢
  dsimp only
  repeat' split
  · exact h.trans (refuseJoin_steady _ _)
  all_goals exact h

end Sys2Proof.Machine
end

