-- ==== Sys2Proof/Laws/Memory.lean ====
section
/-! SUPPORT. The byte memories: a read after a write, and the canonical form, which every memory operation keeps. -/
namespace Sys2Proof.Machine
open Sys2Proof

theorem cellsAbove_weaken {a b : Nat} (h : a ≤ b) : ∀ m : List Host.Cell, cellsAbove (some b) m = true → cellsAbove (some a) m = true
  | [], _ => rfl
  | (x, v) :: m, k => by
    simp only [cellsAbove, Bool.and_eq_true, decide_eq_true_eq] at k ⊢
    exact ⟨⟨by omega, k.1.2⟩, k.2⟩

theorem cellsAbove_none {b : Nat} : ∀ m : List Host.Cell, cellsAbove (some b) m = true → cellsAbove none m = true
  | [], _ => rfl
  | (x, v) :: m, k => by
    simp only [cellsAbove, Bool.and_eq_true] at k ⊢
    exact ⟨⟨trivial, k.1.2⟩, k.2⟩

/-- Below every listed address a memory reads 0. -/
theorem cellRead_below : ∀ (m : List Host.Cell) {b x : Nat}, cellsAbove (some b) m = true → x ≤ b → cellRead m x = 0
  | [], _, _, _, _ => rfl
  | (a, v) :: m, b, x, h, k => by
    simp only [cellsAbove, Bool.and_eq_true, decide_eq_true_eq] at h
    rw [cellRead, if_neg (by omega)]
    exact cellRead_below m h.2 (by omega)

theorem cellWrite_above : ∀ (m : List Host.Cell) (b x : Nat) (v : Byte), b < x → cellsAbove (some b) m = true → cellsAbove (some b) (cellWrite m x v) = true
  | [], b, x, v, h, _ => by
    by_cases hv : v = 0#8 <;> simp [cellWrite, cellsAbove, hv, h]
  | (a, w) :: m, b, x, v, h, k => by
    have k' := k
    simp only [cellsAbove, Bool.and_eq_true, decide_eq_true_eq] at k'
    unfold cellWrite
    split
    · subst x
      split
      · exact cellsAbove_weaken (by omega) m k'.2
      · rename_i hv
        have hv : ¬v = 0#8 := hv
        simp [cellsAbove, k'.1.1, k'.2, hv]
    · split
      · split
        · exact k
        · rename_i hx hv
          have hv : ¬v = 0#8 := hv
          have hw : ¬w = 0#8 := by simpa using k'.1.2
          simp [cellsAbove, h, hx, hv, hw, k'.2]
      · simp only [cellsAbove, Bool.and_eq_true, decide_eq_true_eq]
        exact ⟨k'.1, cellWrite_above m a x v (by omega) k'.2⟩

/-- A store keeps the canonical form. -/
theorem cellWrite_wf (m : List Host.Cell) (x : Nat) (v : Byte) (h : memWf m = true) : memWf (cellWrite m x v) = true := by
  cases m with
  | nil => by_cases hv : v = 0#8 <;> simp [memWf, cellWrite, cellsAbove, hv]
  | cons c m =>
    obtain ⟨a, w⟩ := c
    simp only [memWf, cellsAbove, Bool.and_eq_true] at h
    unfold memWf cellWrite
    split
    · subst x
      split
      · exact cellsAbove_none m h.2
      · rename_i hv
        have hv : ¬v = 0#8 := hv
        simp [cellsAbove, hv, h.2]
    · split
      · split
        · simp only [cellsAbove, Bool.and_eq_true]
          exact h
        · rename_i hx hv
          have hv : ¬v = 0#8 := hv
          have hw : ¬w = 0#8 := by simpa using h.1.2
          simp [cellsAbove, hx, hv, hw, h.2]
      · simp only [cellsAbove, Bool.and_eq_true]
        exact ⟨h.1, cellWrite_above m a x v (by omega) h.2⟩

theorem cellsWrite_wf : ∀ (bs : List Byte) (m : List Host.Cell) (x : Nat), memWf m = true → memWf (cellsWrite m x bs) = true
  | [], _, _, h => h
  | b :: bs, m, x, h => cellsWrite_wf bs _ _ (cellWrite_wf m x b h)

/-- A read of another address is not changed by a store. -/
theorem cellRead_write_ne : ∀ (m : List Host.Cell) (x y : Nat) (v : Byte), y ≠ x → cellRead (cellWrite m x v) y = cellRead m y
  | [], x, y, v, h => by
    by_cases hv : v = 0#8 <;> simp [cellWrite, cellRead, hv, Ne.symm h]
  | (a, w) :: m, x, y, v, h => by
    unfold cellWrite
    split
    · rename_i e
      subst e
      split <;> simp [cellRead, Ne.symm h]
    · split
      · split <;> simp [cellRead, Ne.symm h]
      · simp only [cellRead]
        rw [cellRead_write_ne m x y v h]

/-- A read gives the byte last stored at its address. -/
theorem cellRead_write : ∀ (m : List Host.Cell) (x : Nat) (v : Byte), memWf m = true → cellRead (cellWrite m x v) x = v := by
  have go : ∀ (m : List Host.Cell) (x : Nat) (v : Byte), (cellsAbove none m = true) → cellRead (cellWrite m x v) x = v := by
    intro m
    induction m with
    | nil => intro x v _; by_cases hv : v = 0#8 <;> simp [cellWrite, cellRead, hv]
    | cons c m ih =>
      intro x v h
      obtain ⟨a, w⟩ := c
      simp only [cellsAbove, Bool.and_eq_true] at h
      unfold cellWrite
      split
      · rename_i e
        subst e
        split
        · rename_i hv
          rw [hv]
          exact cellRead_below m h.2 (Nat.le_refl _)
        · simp [cellRead]
      · rename_i e
        split
        · split
          · rename_i hx hv
            rw [cellRead, if_neg e, hv]
            exact cellRead_below m h.2 (by omega)
          · simp [cellRead]
        · rw [cellRead, if_neg e]
          exact ih x v (cellsAbove_none m h.2)
  exact go

/-- A read outside the bytes stored is not changed. -/
theorem cellRead_cellsWrite : ∀ (bs : List Byte) (m : List Host.Cell) (x y : Nat), (y < x ∨ x + bs.length ≤ y) → cellRead (cellsWrite m x bs) y = cellRead m y
  | [], _, _, _, _ => rfl
  | b :: bs, m, x, y, h => by
    simp only [List.length_cons] at h
    rw [cellsWrite, cellRead_cellsWrite bs _ (x + 1) y (by omega), cellRead_write_ne m x y b (by omega)]

end Sys2Proof.Machine
end

