-- ==== Sys2Proof/Laws/State.lean ====
section
/-! SUPPORT. What each named update of the state leaves alone and what it writes, true by unfolding, so that no proof opens a record. -/
namespace Sys2Proof.Machine
open Sys2Proof

/-! ## Entries of a vector -/

@[simp] theorem vupd_get {α : Type} {n : Nat} (v : Vector α n) (i : Fin n) (f : α → α) : (vupd v i f)[i.val] = f v[i.val] := by simp [vupd]
theorem vupd_get_ne {α : Type} {n : Nat} (v : Vector α n) (i j : Fin n) (f : α → α) (h : j ≠ i) : (vupd v i f)[j.val] = v[j.val] := by
  have h : i.val ≠ j.val := fun e => h (Fin.ext e.symm)
  simp [vupd, h]

/-! ## setAxis -/

@[simp] theorem State.setAxis_mode (s : State) (n : Fin 4) (f : Axis → Axis) : (s.setAxis n f).mode = s.mode := rfl
@[simp] theorem State.setAxis_power (s : State) (n : Fin 4) (f : Axis → Axis) : (s.setAxis n f).power = s.power := rfl
@[simp] theorem State.setAxis_clk (s : State) (n : Fin 4) (f : Axis → Axis) : (s.setAxis n f).clk = s.clk := rfl
@[simp] theorem State.setAxis_boot (s : State) (n : Fin 4) (f : Axis → Axis) : (s.setAxis n f).boot = s.boot := rfl
@[simp] theorem State.setAxis_fw (s : State) (n : Fin 4) (f : Axis → Axis) : (s.setAxis n f).fw = s.fw := rfl
@[simp] theorem State.setAxis_host (s : State) (n : Fin 4) (f : Axis → Axis) : (s.setAxis n f).host = s.host := rfl
@[simp] theorem State.setAxis_cfg (s : State) (n : Fin 4) (f : Axis → Axis) : (s.setAxis n f).cfg = s.cfg := rfl
@[simp] theorem State.setAxis_sec (s : State) (n : Fin 4) (f : Axis → Axis) : (s.setAxis n f).sec = s.sec := rfl
@[simp] theorem State.setAxis_log (s : State) (n : Fin 4) (f : Axis → Axis) : (s.setAxis n f).log = s.log := rfl
@[simp] theorem State.setAxis_sto (s : State) (n : Fin 4) (f : Axis → Axis) : (s.setAxis n f).sto = s.sto := rfl
@[simp] theorem State.setAxis_sensing (s : State) (n : Fin 4) (f : Axis → Axis) : (s.setAxis n f).sensing = s.sensing := rfl
@[simp] theorem State.setAxis_pos (s : State) (n : Fin 4) (f : Axis → Axis) : (s.setAxis n f).pos = s.pos := rfl
@[simp] theorem State.setAxis_refsw (s : State) (n : Fin 4) (f : Axis → Axis) : (s.setAxis n f).refsw = s.refsw := rfl
@[simp] theorem State.setAxis_exc (s : State) (n : Fin 4) (f : Axis → Axis) : (s.setAxis n f).exc = s.exc := rfl
@[simp] theorem State.setAxis_aux (s : State) (n : Fin 4) (f : Axis → Axis) : (s.setAxis n f).aux = s.aux := rfl
@[simp] theorem State.setAxis_rig (s : State) (n : Fin 4) (f : Axis → Axis) : (s.setAxis n f).rig = s.rig := rfl
@[simp] theorem State.setAxis_back (s : State) (n : Fin 4) (f : Axis → Axis) : (s.setAxis n f).back = s.back := rfl
@[simp] theorem State.setAxis_disch (s : State) (n : Fin 4) (f : Axis → Axis) : (s.setAxis n f).disch = s.disch := rfl
@[simp] theorem State.setAxis_lock (s : State) (n : Fin 4) (f : Axis → Axis) : (s.setAxis n f).lock = s.lock := rfl
@[simp] theorem State.setAxis_ecc (s : State) (n : Fin 4) (f : Axis → Axis) : (s.setAxis n f).ecc = s.ecc := rfl
@[simp] theorem State.setAxis_si (s : State) (n : Fin 4) (f : Axis → Axis) : (s.setAxis n f).si = s.si := rfl
@[simp] theorem State.setAxis_so (s : State) (n : Fin 4) (f : Axis → Axis) : (s.setAxis n f).so = s.so := rfl
@[simp] theorem State.setAxis_can (s : State) (n : Fin 4) (f : Axis → Axis) : (s.setAxis n f).can = s.can := rfl
@[simp] theorem State.setAxis_ring (s : State) (n : Fin 4) (f : Axis → Axis) : (s.setAxis n f).ring = s.ring := rfl
@[simp] theorem State.setAxis_free (s : State) (n : Fin 4) (f : Axis → Axis) : (s.setAxis n f).free = s.free := rfl
@[simp] theorem State.setAxis_pending (s : State) (n : Fin 4) (f : Axis → Axis) : (s.setAxis n f).pending = s.pending := rfl

/-! ## setBs -/

@[simp] theorem State.setBs_mode (s : State) (n : Fin 4) (f : BackstayAxis → BackstayAxis) : (s.setBs n f).mode = s.mode := rfl
@[simp] theorem State.setBs_power (s : State) (n : Fin 4) (f : BackstayAxis → BackstayAxis) : (s.setBs n f).power = s.power := rfl
@[simp] theorem State.setBs_clk (s : State) (n : Fin 4) (f : BackstayAxis → BackstayAxis) : (s.setBs n f).clk = s.clk := rfl
@[simp] theorem State.setBs_boot (s : State) (n : Fin 4) (f : BackstayAxis → BackstayAxis) : (s.setBs n f).boot = s.boot := rfl
@[simp] theorem State.setBs_fw (s : State) (n : Fin 4) (f : BackstayAxis → BackstayAxis) : (s.setBs n f).fw = s.fw := rfl
@[simp] theorem State.setBs_host (s : State) (n : Fin 4) (f : BackstayAxis → BackstayAxis) : (s.setBs n f).host = s.host := rfl
@[simp] theorem State.setBs_cfg (s : State) (n : Fin 4) (f : BackstayAxis → BackstayAxis) : (s.setBs n f).cfg = s.cfg := rfl
@[simp] theorem State.setBs_sec (s : State) (n : Fin 4) (f : BackstayAxis → BackstayAxis) : (s.setBs n f).sec = s.sec := rfl
@[simp] theorem State.setBs_log (s : State) (n : Fin 4) (f : BackstayAxis → BackstayAxis) : (s.setBs n f).log = s.log := rfl
@[simp] theorem State.setBs_sto (s : State) (n : Fin 4) (f : BackstayAxis → BackstayAxis) : (s.setBs n f).sto = s.sto := rfl
@[simp] theorem State.setBs_sensing (s : State) (n : Fin 4) (f : BackstayAxis → BackstayAxis) : (s.setBs n f).sensing = s.sensing := rfl
@[simp] theorem State.setBs_pos (s : State) (n : Fin 4) (f : BackstayAxis → BackstayAxis) : (s.setBs n f).pos = s.pos := rfl
@[simp] theorem State.setBs_refsw (s : State) (n : Fin 4) (f : BackstayAxis → BackstayAxis) : (s.setBs n f).refsw = s.refsw := rfl
@[simp] theorem State.setBs_exc (s : State) (n : Fin 4) (f : BackstayAxis → BackstayAxis) : (s.setBs n f).exc = s.exc := rfl
@[simp] theorem State.setBs_aux (s : State) (n : Fin 4) (f : BackstayAxis → BackstayAxis) : (s.setBs n f).aux = s.aux := rfl
@[simp] theorem State.setBs_rig (s : State) (n : Fin 4) (f : BackstayAxis → BackstayAxis) : (s.setBs n f).rig = s.rig := rfl
@[simp] theorem State.setBs_back (s : State) (n : Fin 4) (f : BackstayAxis → BackstayAxis) : (s.setBs n f).back = s.back := rfl
@[simp] theorem State.setBs_disch (s : State) (n : Fin 4) (f : BackstayAxis → BackstayAxis) : (s.setBs n f).disch = s.disch := rfl
@[simp] theorem State.setBs_lock (s : State) (n : Fin 4) (f : BackstayAxis → BackstayAxis) : (s.setBs n f).lock = s.lock := rfl
@[simp] theorem State.setBs_ecc (s : State) (n : Fin 4) (f : BackstayAxis → BackstayAxis) : (s.setBs n f).ecc = s.ecc := rfl
@[simp] theorem State.setBs_si (s : State) (n : Fin 4) (f : BackstayAxis → BackstayAxis) : (s.setBs n f).si = s.si := rfl
@[simp] theorem State.setBs_so (s : State) (n : Fin 4) (f : BackstayAxis → BackstayAxis) : (s.setBs n f).so = s.so := rfl
@[simp] theorem State.setBs_can (s : State) (n : Fin 4) (f : BackstayAxis → BackstayAxis) : (s.setBs n f).can = s.can := rfl
@[simp] theorem State.setBs_ring (s : State) (n : Fin 4) (f : BackstayAxis → BackstayAxis) : (s.setBs n f).ring = s.ring := rfl
@[simp] theorem State.setBs_free (s : State) (n : Fin 4) (f : BackstayAxis → BackstayAxis) : (s.setBs n f).free = s.free := rfl
@[simp] theorem State.setBs_pending (s : State) (n : Fin 4) (f : BackstayAxis → BackstayAxis) : (s.setBs n f).pending = s.pending := rfl

/-! ## setCtl -/

@[simp] theorem State.setCtl_mode (s : State) (n : Fin 4) (f : Control → Control) : (s.setCtl n f).mode = s.mode := rfl
@[simp] theorem State.setCtl_power (s : State) (n : Fin 4) (f : Control → Control) : (s.setCtl n f).power = s.power := rfl
@[simp] theorem State.setCtl_clk (s : State) (n : Fin 4) (f : Control → Control) : (s.setCtl n f).clk = s.clk := rfl
@[simp] theorem State.setCtl_boot (s : State) (n : Fin 4) (f : Control → Control) : (s.setCtl n f).boot = s.boot := rfl
@[simp] theorem State.setCtl_fw (s : State) (n : Fin 4) (f : Control → Control) : (s.setCtl n f).fw = s.fw := rfl
@[simp] theorem State.setCtl_host (s : State) (n : Fin 4) (f : Control → Control) : (s.setCtl n f).host = s.host := rfl
@[simp] theorem State.setCtl_cfg (s : State) (n : Fin 4) (f : Control → Control) : (s.setCtl n f).cfg = s.cfg := rfl
@[simp] theorem State.setCtl_sec (s : State) (n : Fin 4) (f : Control → Control) : (s.setCtl n f).sec = s.sec := rfl
@[simp] theorem State.setCtl_log (s : State) (n : Fin 4) (f : Control → Control) : (s.setCtl n f).log = s.log := rfl
@[simp] theorem State.setCtl_sto (s : State) (n : Fin 4) (f : Control → Control) : (s.setCtl n f).sto = s.sto := rfl
@[simp] theorem State.setCtl_sensing (s : State) (n : Fin 4) (f : Control → Control) : (s.setCtl n f).sensing = s.sensing := rfl
@[simp] theorem State.setCtl_pos (s : State) (n : Fin 4) (f : Control → Control) : (s.setCtl n f).pos = s.pos := rfl
@[simp] theorem State.setCtl_refsw (s : State) (n : Fin 4) (f : Control → Control) : (s.setCtl n f).refsw = s.refsw := rfl
@[simp] theorem State.setCtl_exc (s : State) (n : Fin 4) (f : Control → Control) : (s.setCtl n f).exc = s.exc := rfl
@[simp] theorem State.setCtl_aux (s : State) (n : Fin 4) (f : Control → Control) : (s.setCtl n f).aux = s.aux := rfl
@[simp] theorem State.setCtl_rig (s : State) (n : Fin 4) (f : Control → Control) : (s.setCtl n f).rig = s.rig := rfl
@[simp] theorem State.setCtl_back (s : State) (n : Fin 4) (f : Control → Control) : (s.setCtl n f).back = s.back := rfl
@[simp] theorem State.setCtl_disch (s : State) (n : Fin 4) (f : Control → Control) : (s.setCtl n f).disch = s.disch := rfl
@[simp] theorem State.setCtl_lock (s : State) (n : Fin 4) (f : Control → Control) : (s.setCtl n f).lock = s.lock := rfl
@[simp] theorem State.setCtl_ecc (s : State) (n : Fin 4) (f : Control → Control) : (s.setCtl n f).ecc = s.ecc := rfl
@[simp] theorem State.setCtl_si (s : State) (n : Fin 4) (f : Control → Control) : (s.setCtl n f).si = s.si := rfl
@[simp] theorem State.setCtl_so (s : State) (n : Fin 4) (f : Control → Control) : (s.setCtl n f).so = s.so := rfl
@[simp] theorem State.setCtl_can (s : State) (n : Fin 4) (f : Control → Control) : (s.setCtl n f).can = s.can := rfl
@[simp] theorem State.setCtl_ring (s : State) (n : Fin 4) (f : Control → Control) : (s.setCtl n f).ring = s.ring := rfl
@[simp] theorem State.setCtl_free (s : State) (n : Fin 4) (f : Control → Control) : (s.setCtl n f).free = s.free := rfl
@[simp] theorem State.setCtl_pending (s : State) (n : Fin 4) (f : Control → Control) : (s.setCtl n f).pending = s.pending := rfl

/-! ## setProf -/

@[simp] theorem State.setProf_mode (s : State) (n : Fin 4) (f : Profile → Profile) : (s.setProf n f).mode = s.mode := rfl
@[simp] theorem State.setProf_power (s : State) (n : Fin 4) (f : Profile → Profile) : (s.setProf n f).power = s.power := rfl
@[simp] theorem State.setProf_clk (s : State) (n : Fin 4) (f : Profile → Profile) : (s.setProf n f).clk = s.clk := rfl
@[simp] theorem State.setProf_boot (s : State) (n : Fin 4) (f : Profile → Profile) : (s.setProf n f).boot = s.boot := rfl
@[simp] theorem State.setProf_fw (s : State) (n : Fin 4) (f : Profile → Profile) : (s.setProf n f).fw = s.fw := rfl
@[simp] theorem State.setProf_host (s : State) (n : Fin 4) (f : Profile → Profile) : (s.setProf n f).host = s.host := rfl
@[simp] theorem State.setProf_cfg (s : State) (n : Fin 4) (f : Profile → Profile) : (s.setProf n f).cfg = s.cfg := rfl
@[simp] theorem State.setProf_sec (s : State) (n : Fin 4) (f : Profile → Profile) : (s.setProf n f).sec = s.sec := rfl
@[simp] theorem State.setProf_log (s : State) (n : Fin 4) (f : Profile → Profile) : (s.setProf n f).log = s.log := rfl
@[simp] theorem State.setProf_sto (s : State) (n : Fin 4) (f : Profile → Profile) : (s.setProf n f).sto = s.sto := rfl
@[simp] theorem State.setProf_sensing (s : State) (n : Fin 4) (f : Profile → Profile) : (s.setProf n f).sensing = s.sensing := rfl
@[simp] theorem State.setProf_pos (s : State) (n : Fin 4) (f : Profile → Profile) : (s.setProf n f).pos = s.pos := rfl
@[simp] theorem State.setProf_refsw (s : State) (n : Fin 4) (f : Profile → Profile) : (s.setProf n f).refsw = s.refsw := rfl
@[simp] theorem State.setProf_exc (s : State) (n : Fin 4) (f : Profile → Profile) : (s.setProf n f).exc = s.exc := rfl
@[simp] theorem State.setProf_aux (s : State) (n : Fin 4) (f : Profile → Profile) : (s.setProf n f).aux = s.aux := rfl
@[simp] theorem State.setProf_rig (s : State) (n : Fin 4) (f : Profile → Profile) : (s.setProf n f).rig = s.rig := rfl
@[simp] theorem State.setProf_back (s : State) (n : Fin 4) (f : Profile → Profile) : (s.setProf n f).back = s.back := rfl
@[simp] theorem State.setProf_disch (s : State) (n : Fin 4) (f : Profile → Profile) : (s.setProf n f).disch = s.disch := rfl
@[simp] theorem State.setProf_lock (s : State) (n : Fin 4) (f : Profile → Profile) : (s.setProf n f).lock = s.lock := rfl
@[simp] theorem State.setProf_ecc (s : State) (n : Fin 4) (f : Profile → Profile) : (s.setProf n f).ecc = s.ecc := rfl
@[simp] theorem State.setProf_si (s : State) (n : Fin 4) (f : Profile → Profile) : (s.setProf n f).si = s.si := rfl
@[simp] theorem State.setProf_so (s : State) (n : Fin 4) (f : Profile → Profile) : (s.setProf n f).so = s.so := rfl
@[simp] theorem State.setProf_can (s : State) (n : Fin 4) (f : Profile → Profile) : (s.setProf n f).can = s.can := rfl
@[simp] theorem State.setProf_ring (s : State) (n : Fin 4) (f : Profile → Profile) : (s.setProf n f).ring = s.ring := rfl
@[simp] theorem State.setProf_free (s : State) (n : Fin 4) (f : Profile → Profile) : (s.setProf n f).free = s.free := rfl
@[simp] theorem State.setProf_pending (s : State) (n : Fin 4) (f : Profile → Profile) : (s.setProf n f).pending = s.pending := rfl

/-! ## setObs -/

@[simp] theorem State.setObs_mode (s : State) (n : Fin 4) (f : Observer → Observer) : (s.setObs n f).mode = s.mode := rfl
@[simp] theorem State.setObs_power (s : State) (n : Fin 4) (f : Observer → Observer) : (s.setObs n f).power = s.power := rfl
@[simp] theorem State.setObs_clk (s : State) (n : Fin 4) (f : Observer → Observer) : (s.setObs n f).clk = s.clk := rfl
@[simp] theorem State.setObs_boot (s : State) (n : Fin 4) (f : Observer → Observer) : (s.setObs n f).boot = s.boot := rfl
@[simp] theorem State.setObs_fw (s : State) (n : Fin 4) (f : Observer → Observer) : (s.setObs n f).fw = s.fw := rfl
@[simp] theorem State.setObs_host (s : State) (n : Fin 4) (f : Observer → Observer) : (s.setObs n f).host = s.host := rfl
@[simp] theorem State.setObs_cfg (s : State) (n : Fin 4) (f : Observer → Observer) : (s.setObs n f).cfg = s.cfg := rfl
@[simp] theorem State.setObs_sec (s : State) (n : Fin 4) (f : Observer → Observer) : (s.setObs n f).sec = s.sec := rfl
@[simp] theorem State.setObs_log (s : State) (n : Fin 4) (f : Observer → Observer) : (s.setObs n f).log = s.log := rfl
@[simp] theorem State.setObs_sto (s : State) (n : Fin 4) (f : Observer → Observer) : (s.setObs n f).sto = s.sto := rfl
@[simp] theorem State.setObs_sensing (s : State) (n : Fin 4) (f : Observer → Observer) : (s.setObs n f).sensing = s.sensing := rfl
@[simp] theorem State.setObs_pos (s : State) (n : Fin 4) (f : Observer → Observer) : (s.setObs n f).pos = s.pos := rfl
@[simp] theorem State.setObs_refsw (s : State) (n : Fin 4) (f : Observer → Observer) : (s.setObs n f).refsw = s.refsw := rfl
@[simp] theorem State.setObs_exc (s : State) (n : Fin 4) (f : Observer → Observer) : (s.setObs n f).exc = s.exc := rfl
@[simp] theorem State.setObs_aux (s : State) (n : Fin 4) (f : Observer → Observer) : (s.setObs n f).aux = s.aux := rfl
@[simp] theorem State.setObs_rig (s : State) (n : Fin 4) (f : Observer → Observer) : (s.setObs n f).rig = s.rig := rfl
@[simp] theorem State.setObs_back (s : State) (n : Fin 4) (f : Observer → Observer) : (s.setObs n f).back = s.back := rfl
@[simp] theorem State.setObs_disch (s : State) (n : Fin 4) (f : Observer → Observer) : (s.setObs n f).disch = s.disch := rfl
@[simp] theorem State.setObs_lock (s : State) (n : Fin 4) (f : Observer → Observer) : (s.setObs n f).lock = s.lock := rfl
@[simp] theorem State.setObs_ecc (s : State) (n : Fin 4) (f : Observer → Observer) : (s.setObs n f).ecc = s.ecc := rfl
@[simp] theorem State.setObs_si (s : State) (n : Fin 4) (f : Observer → Observer) : (s.setObs n f).si = s.si := rfl
@[simp] theorem State.setObs_so (s : State) (n : Fin 4) (f : Observer → Observer) : (s.setObs n f).so = s.so := rfl
@[simp] theorem State.setObs_can (s : State) (n : Fin 4) (f : Observer → Observer) : (s.setObs n f).can = s.can := rfl
@[simp] theorem State.setObs_ring (s : State) (n : Fin 4) (f : Observer → Observer) : (s.setObs n f).ring = s.ring := rfl
@[simp] theorem State.setObs_free (s : State) (n : Fin 4) (f : Observer → Observer) : (s.setObs n f).free = s.free := rfl
@[simp] theorem State.setObs_pending (s : State) (n : Fin 4) (f : Observer → Observer) : (s.setObs n f).pending = s.pending := rfl

/-! ## setCatch -/

@[simp] theorem State.setCatch_mode (s : State) (n : Fin 4) (f : Catch → Catch) : (s.setCatch n f).mode = s.mode := rfl
@[simp] theorem State.setCatch_power (s : State) (n : Fin 4) (f : Catch → Catch) : (s.setCatch n f).power = s.power := rfl
@[simp] theorem State.setCatch_clk (s : State) (n : Fin 4) (f : Catch → Catch) : (s.setCatch n f).clk = s.clk := rfl
@[simp] theorem State.setCatch_boot (s : State) (n : Fin 4) (f : Catch → Catch) : (s.setCatch n f).boot = s.boot := rfl
@[simp] theorem State.setCatch_fw (s : State) (n : Fin 4) (f : Catch → Catch) : (s.setCatch n f).fw = s.fw := rfl
@[simp] theorem State.setCatch_host (s : State) (n : Fin 4) (f : Catch → Catch) : (s.setCatch n f).host = s.host := rfl
@[simp] theorem State.setCatch_cfg (s : State) (n : Fin 4) (f : Catch → Catch) : (s.setCatch n f).cfg = s.cfg := rfl
@[simp] theorem State.setCatch_sec (s : State) (n : Fin 4) (f : Catch → Catch) : (s.setCatch n f).sec = s.sec := rfl
@[simp] theorem State.setCatch_log (s : State) (n : Fin 4) (f : Catch → Catch) : (s.setCatch n f).log = s.log := rfl
@[simp] theorem State.setCatch_sto (s : State) (n : Fin 4) (f : Catch → Catch) : (s.setCatch n f).sto = s.sto := rfl
@[simp] theorem State.setCatch_sensing (s : State) (n : Fin 4) (f : Catch → Catch) : (s.setCatch n f).sensing = s.sensing := rfl
@[simp] theorem State.setCatch_pos (s : State) (n : Fin 4) (f : Catch → Catch) : (s.setCatch n f).pos = s.pos := rfl
@[simp] theorem State.setCatch_refsw (s : State) (n : Fin 4) (f : Catch → Catch) : (s.setCatch n f).refsw = s.refsw := rfl
@[simp] theorem State.setCatch_exc (s : State) (n : Fin 4) (f : Catch → Catch) : (s.setCatch n f).exc = s.exc := rfl
@[simp] theorem State.setCatch_aux (s : State) (n : Fin 4) (f : Catch → Catch) : (s.setCatch n f).aux = s.aux := rfl
@[simp] theorem State.setCatch_rig (s : State) (n : Fin 4) (f : Catch → Catch) : (s.setCatch n f).rig = s.rig := rfl
@[simp] theorem State.setCatch_back (s : State) (n : Fin 4) (f : Catch → Catch) : (s.setCatch n f).back = s.back := rfl
@[simp] theorem State.setCatch_disch (s : State) (n : Fin 4) (f : Catch → Catch) : (s.setCatch n f).disch = s.disch := rfl
@[simp] theorem State.setCatch_lock (s : State) (n : Fin 4) (f : Catch → Catch) : (s.setCatch n f).lock = s.lock := rfl
@[simp] theorem State.setCatch_ecc (s : State) (n : Fin 4) (f : Catch → Catch) : (s.setCatch n f).ecc = s.ecc := rfl
@[simp] theorem State.setCatch_si (s : State) (n : Fin 4) (f : Catch → Catch) : (s.setCatch n f).si = s.si := rfl
@[simp] theorem State.setCatch_so (s : State) (n : Fin 4) (f : Catch → Catch) : (s.setCatch n f).so = s.so := rfl
@[simp] theorem State.setCatch_can (s : State) (n : Fin 4) (f : Catch → Catch) : (s.setCatch n f).can = s.can := rfl
@[simp] theorem State.setCatch_ring (s : State) (n : Fin 4) (f : Catch → Catch) : (s.setCatch n f).ring = s.ring := rfl
@[simp] theorem State.setCatch_free (s : State) (n : Fin 4) (f : Catch → Catch) : (s.setCatch n f).free = s.free := rfl
@[simp] theorem State.setCatch_pending (s : State) (n : Fin 4) (f : Catch → Catch) : (s.setCatch n f).pending = s.pending := rfl

/-! ## setTh -/

@[simp] theorem State.setTh_mode (s : State) (n : Fin 4) (f : ThermalAxis → ThermalAxis) : (s.setTh n f).mode = s.mode := rfl
@[simp] theorem State.setTh_power (s : State) (n : Fin 4) (f : ThermalAxis → ThermalAxis) : (s.setTh n f).power = s.power := rfl
@[simp] theorem State.setTh_clk (s : State) (n : Fin 4) (f : ThermalAxis → ThermalAxis) : (s.setTh n f).clk = s.clk := rfl
@[simp] theorem State.setTh_boot (s : State) (n : Fin 4) (f : ThermalAxis → ThermalAxis) : (s.setTh n f).boot = s.boot := rfl
@[simp] theorem State.setTh_fw (s : State) (n : Fin 4) (f : ThermalAxis → ThermalAxis) : (s.setTh n f).fw = s.fw := rfl
@[simp] theorem State.setTh_host (s : State) (n : Fin 4) (f : ThermalAxis → ThermalAxis) : (s.setTh n f).host = s.host := rfl
@[simp] theorem State.setTh_cfg (s : State) (n : Fin 4) (f : ThermalAxis → ThermalAxis) : (s.setTh n f).cfg = s.cfg := rfl
@[simp] theorem State.setTh_sec (s : State) (n : Fin 4) (f : ThermalAxis → ThermalAxis) : (s.setTh n f).sec = s.sec := rfl
@[simp] theorem State.setTh_log (s : State) (n : Fin 4) (f : ThermalAxis → ThermalAxis) : (s.setTh n f).log = s.log := rfl
@[simp] theorem State.setTh_sto (s : State) (n : Fin 4) (f : ThermalAxis → ThermalAxis) : (s.setTh n f).sto = s.sto := rfl
@[simp] theorem State.setTh_sensing (s : State) (n : Fin 4) (f : ThermalAxis → ThermalAxis) : (s.setTh n f).sensing = s.sensing := rfl
@[simp] theorem State.setTh_pos (s : State) (n : Fin 4) (f : ThermalAxis → ThermalAxis) : (s.setTh n f).pos = s.pos := rfl
@[simp] theorem State.setTh_refsw (s : State) (n : Fin 4) (f : ThermalAxis → ThermalAxis) : (s.setTh n f).refsw = s.refsw := rfl
@[simp] theorem State.setTh_exc (s : State) (n : Fin 4) (f : ThermalAxis → ThermalAxis) : (s.setTh n f).exc = s.exc := rfl
@[simp] theorem State.setTh_aux (s : State) (n : Fin 4) (f : ThermalAxis → ThermalAxis) : (s.setTh n f).aux = s.aux := rfl
@[simp] theorem State.setTh_rig (s : State) (n : Fin 4) (f : ThermalAxis → ThermalAxis) : (s.setTh n f).rig = s.rig := rfl
@[simp] theorem State.setTh_back (s : State) (n : Fin 4) (f : ThermalAxis → ThermalAxis) : (s.setTh n f).back = s.back := rfl
@[simp] theorem State.setTh_disch (s : State) (n : Fin 4) (f : ThermalAxis → ThermalAxis) : (s.setTh n f).disch = s.disch := rfl
@[simp] theorem State.setTh_lock (s : State) (n : Fin 4) (f : ThermalAxis → ThermalAxis) : (s.setTh n f).lock = s.lock := rfl
@[simp] theorem State.setTh_ecc (s : State) (n : Fin 4) (f : ThermalAxis → ThermalAxis) : (s.setTh n f).ecc = s.ecc := rfl
@[simp] theorem State.setTh_si (s : State) (n : Fin 4) (f : ThermalAxis → ThermalAxis) : (s.setTh n f).si = s.si := rfl
@[simp] theorem State.setTh_so (s : State) (n : Fin 4) (f : ThermalAxis → ThermalAxis) : (s.setTh n f).so = s.so := rfl
@[simp] theorem State.setTh_can (s : State) (n : Fin 4) (f : ThermalAxis → ThermalAxis) : (s.setTh n f).can = s.can := rfl
@[simp] theorem State.setTh_ring (s : State) (n : Fin 4) (f : ThermalAxis → ThermalAxis) : (s.setTh n f).ring = s.ring := rfl
@[simp] theorem State.setTh_free (s : State) (n : Fin 4) (f : ThermalAxis → ThermalAxis) : (s.setTh n f).free = s.free := rfl
@[simp] theorem State.setTh_pending (s : State) (n : Fin 4) (f : ThermalAxis → ThermalAxis) : (s.setTh n f).pending = s.pending := rfl

/-! ## setIfc -/

@[simp] theorem State.setIfc_mode (s : State) (n : Fin 4) (f : PosIfc → PosIfc) : (s.setIfc n f).mode = s.mode := rfl
@[simp] theorem State.setIfc_power (s : State) (n : Fin 4) (f : PosIfc → PosIfc) : (s.setIfc n f).power = s.power := rfl
@[simp] theorem State.setIfc_clk (s : State) (n : Fin 4) (f : PosIfc → PosIfc) : (s.setIfc n f).clk = s.clk := rfl
@[simp] theorem State.setIfc_boot (s : State) (n : Fin 4) (f : PosIfc → PosIfc) : (s.setIfc n f).boot = s.boot := rfl
@[simp] theorem State.setIfc_fw (s : State) (n : Fin 4) (f : PosIfc → PosIfc) : (s.setIfc n f).fw = s.fw := rfl
@[simp] theorem State.setIfc_host (s : State) (n : Fin 4) (f : PosIfc → PosIfc) : (s.setIfc n f).host = s.host := rfl
@[simp] theorem State.setIfc_cfg (s : State) (n : Fin 4) (f : PosIfc → PosIfc) : (s.setIfc n f).cfg = s.cfg := rfl
@[simp] theorem State.setIfc_sec (s : State) (n : Fin 4) (f : PosIfc → PosIfc) : (s.setIfc n f).sec = s.sec := rfl
@[simp] theorem State.setIfc_log (s : State) (n : Fin 4) (f : PosIfc → PosIfc) : (s.setIfc n f).log = s.log := rfl
@[simp] theorem State.setIfc_sto (s : State) (n : Fin 4) (f : PosIfc → PosIfc) : (s.setIfc n f).sto = s.sto := rfl
@[simp] theorem State.setIfc_sensing (s : State) (n : Fin 4) (f : PosIfc → PosIfc) : (s.setIfc n f).sensing = s.sensing := rfl
@[simp] theorem State.setIfc_refsw (s : State) (n : Fin 4) (f : PosIfc → PosIfc) : (s.setIfc n f).refsw = s.refsw := rfl
@[simp] theorem State.setIfc_exc (s : State) (n : Fin 4) (f : PosIfc → PosIfc) : (s.setIfc n f).exc = s.exc := rfl
@[simp] theorem State.setIfc_aux (s : State) (n : Fin 4) (f : PosIfc → PosIfc) : (s.setIfc n f).aux = s.aux := rfl
@[simp] theorem State.setIfc_rig (s : State) (n : Fin 4) (f : PosIfc → PosIfc) : (s.setIfc n f).rig = s.rig := rfl
@[simp] theorem State.setIfc_back (s : State) (n : Fin 4) (f : PosIfc → PosIfc) : (s.setIfc n f).back = s.back := rfl
@[simp] theorem State.setIfc_disch (s : State) (n : Fin 4) (f : PosIfc → PosIfc) : (s.setIfc n f).disch = s.disch := rfl
@[simp] theorem State.setIfc_lock (s : State) (n : Fin 4) (f : PosIfc → PosIfc) : (s.setIfc n f).lock = s.lock := rfl
@[simp] theorem State.setIfc_ecc (s : State) (n : Fin 4) (f : PosIfc → PosIfc) : (s.setIfc n f).ecc = s.ecc := rfl
@[simp] theorem State.setIfc_si (s : State) (n : Fin 4) (f : PosIfc → PosIfc) : (s.setIfc n f).si = s.si := rfl
@[simp] theorem State.setIfc_so (s : State) (n : Fin 4) (f : PosIfc → PosIfc) : (s.setIfc n f).so = s.so := rfl
@[simp] theorem State.setIfc_can (s : State) (n : Fin 4) (f : PosIfc → PosIfc) : (s.setIfc n f).can = s.can := rfl
@[simp] theorem State.setIfc_ring (s : State) (n : Fin 4) (f : PosIfc → PosIfc) : (s.setIfc n f).ring = s.ring := rfl
@[simp] theorem State.setIfc_axes (s : State) (n : Fin 4) (f : PosIfc → PosIfc) : (s.setIfc n f).axes = s.axes := rfl
@[simp] theorem State.setIfc_free (s : State) (n : Fin 4) (f : PosIfc → PosIfc) : (s.setIfc n f).free = s.free := rfl
@[simp] theorem State.setIfc_pending (s : State) (n : Fin 4) (f : PosIfc → PosIfc) : (s.setIfc n f).pending = s.pending := rfl

/-! ## setAux -/

@[simp] theorem State.setAux_mode (s : State) (f : Aux → Aux) : (s.setAux f).mode = s.mode := rfl
@[simp] theorem State.setAux_power (s : State) (f : Aux → Aux) : (s.setAux f).power = s.power := rfl
@[simp] theorem State.setAux_clk (s : State) (f : Aux → Aux) : (s.setAux f).clk = s.clk := rfl
@[simp] theorem State.setAux_boot (s : State) (f : Aux → Aux) : (s.setAux f).boot = s.boot := rfl
@[simp] theorem State.setAux_fw (s : State) (f : Aux → Aux) : (s.setAux f).fw = s.fw := rfl
@[simp] theorem State.setAux_host (s : State) (f : Aux → Aux) : (s.setAux f).host = s.host := rfl
@[simp] theorem State.setAux_cfg (s : State) (f : Aux → Aux) : (s.setAux f).cfg = s.cfg := rfl
@[simp] theorem State.setAux_sec (s : State) (f : Aux → Aux) : (s.setAux f).sec = s.sec := rfl
@[simp] theorem State.setAux_log (s : State) (f : Aux → Aux) : (s.setAux f).log = s.log := rfl
@[simp] theorem State.setAux_sto (s : State) (f : Aux → Aux) : (s.setAux f).sto = s.sto := rfl
@[simp] theorem State.setAux_sensing (s : State) (f : Aux → Aux) : (s.setAux f).sensing = s.sensing := rfl
@[simp] theorem State.setAux_pos (s : State) (f : Aux → Aux) : (s.setAux f).pos = s.pos := rfl
@[simp] theorem State.setAux_refsw (s : State) (f : Aux → Aux) : (s.setAux f).refsw = s.refsw := rfl
@[simp] theorem State.setAux_exc (s : State) (f : Aux → Aux) : (s.setAux f).exc = s.exc := rfl
@[simp] theorem State.setAux_rig (s : State) (f : Aux → Aux) : (s.setAux f).rig = s.rig := rfl
@[simp] theorem State.setAux_back (s : State) (f : Aux → Aux) : (s.setAux f).back = s.back := rfl
@[simp] theorem State.setAux_disch (s : State) (f : Aux → Aux) : (s.setAux f).disch = s.disch := rfl
@[simp] theorem State.setAux_lock (s : State) (f : Aux → Aux) : (s.setAux f).lock = s.lock := rfl
@[simp] theorem State.setAux_ecc (s : State) (f : Aux → Aux) : (s.setAux f).ecc = s.ecc := rfl
@[simp] theorem State.setAux_si (s : State) (f : Aux → Aux) : (s.setAux f).si = s.si := rfl
@[simp] theorem State.setAux_so (s : State) (f : Aux → Aux) : (s.setAux f).so = s.so := rfl
@[simp] theorem State.setAux_can (s : State) (f : Aux → Aux) : (s.setAux f).can = s.can := rfl
@[simp] theorem State.setAux_ring (s : State) (f : Aux → Aux) : (s.setAux f).ring = s.ring := rfl
@[simp] theorem State.setAux_axes (s : State) (f : Aux → Aux) : (s.setAux f).axes = s.axes := rfl
@[simp] theorem State.setAux_free (s : State) (f : Aux → Aux) : (s.setAux f).free = s.free := rfl
@[simp] theorem State.setAux_pending (s : State) (f : Aux → Aux) : (s.setAux f).pending = s.pending := rfl

/-! ## setCan -/

@[simp] theorem State.setCan_mode (s : State) (n : Fin 4) (f : CanCtl → CanCtl) : (s.setCan n f).mode = s.mode := rfl
@[simp] theorem State.setCan_power (s : State) (n : Fin 4) (f : CanCtl → CanCtl) : (s.setCan n f).power = s.power := rfl
@[simp] theorem State.setCan_clk (s : State) (n : Fin 4) (f : CanCtl → CanCtl) : (s.setCan n f).clk = s.clk := rfl
@[simp] theorem State.setCan_boot (s : State) (n : Fin 4) (f : CanCtl → CanCtl) : (s.setCan n f).boot = s.boot := rfl
@[simp] theorem State.setCan_fw (s : State) (n : Fin 4) (f : CanCtl → CanCtl) : (s.setCan n f).fw = s.fw := rfl
@[simp] theorem State.setCan_host (s : State) (n : Fin 4) (f : CanCtl → CanCtl) : (s.setCan n f).host = s.host := rfl
@[simp] theorem State.setCan_cfg (s : State) (n : Fin 4) (f : CanCtl → CanCtl) : (s.setCan n f).cfg = s.cfg := rfl
@[simp] theorem State.setCan_sec (s : State) (n : Fin 4) (f : CanCtl → CanCtl) : (s.setCan n f).sec = s.sec := rfl
@[simp] theorem State.setCan_log (s : State) (n : Fin 4) (f : CanCtl → CanCtl) : (s.setCan n f).log = s.log := rfl
@[simp] theorem State.setCan_sto (s : State) (n : Fin 4) (f : CanCtl → CanCtl) : (s.setCan n f).sto = s.sto := rfl
@[simp] theorem State.setCan_sensing (s : State) (n : Fin 4) (f : CanCtl → CanCtl) : (s.setCan n f).sensing = s.sensing := rfl
@[simp] theorem State.setCan_pos (s : State) (n : Fin 4) (f : CanCtl → CanCtl) : (s.setCan n f).pos = s.pos := rfl
@[simp] theorem State.setCan_refsw (s : State) (n : Fin 4) (f : CanCtl → CanCtl) : (s.setCan n f).refsw = s.refsw := rfl
@[simp] theorem State.setCan_exc (s : State) (n : Fin 4) (f : CanCtl → CanCtl) : (s.setCan n f).exc = s.exc := rfl
@[simp] theorem State.setCan_aux (s : State) (n : Fin 4) (f : CanCtl → CanCtl) : (s.setCan n f).aux = s.aux := rfl
@[simp] theorem State.setCan_rig (s : State) (n : Fin 4) (f : CanCtl → CanCtl) : (s.setCan n f).rig = s.rig := rfl
@[simp] theorem State.setCan_back (s : State) (n : Fin 4) (f : CanCtl → CanCtl) : (s.setCan n f).back = s.back := rfl
@[simp] theorem State.setCan_disch (s : State) (n : Fin 4) (f : CanCtl → CanCtl) : (s.setCan n f).disch = s.disch := rfl
@[simp] theorem State.setCan_lock (s : State) (n : Fin 4) (f : CanCtl → CanCtl) : (s.setCan n f).lock = s.lock := rfl
@[simp] theorem State.setCan_ecc (s : State) (n : Fin 4) (f : CanCtl → CanCtl) : (s.setCan n f).ecc = s.ecc := rfl
@[simp] theorem State.setCan_si (s : State) (n : Fin 4) (f : CanCtl → CanCtl) : (s.setCan n f).si = s.si := rfl
@[simp] theorem State.setCan_so (s : State) (n : Fin 4) (f : CanCtl → CanCtl) : (s.setCan n f).so = s.so := rfl
@[simp] theorem State.setCan_ring (s : State) (n : Fin 4) (f : CanCtl → CanCtl) : (s.setCan n f).ring = s.ring := rfl
@[simp] theorem State.setCan_axes (s : State) (n : Fin 4) (f : CanCtl → CanCtl) : (s.setCan n f).axes = s.axes := rfl
@[simp] theorem State.setCan_free (s : State) (n : Fin 4) (f : CanCtl → CanCtl) : (s.setCan n f).free = s.free := rfl
@[simp] theorem State.setCan_pending (s : State) (n : Fin 4) (f : CanCtl → CanCtl) : (s.setCan n f).pending = s.pending := rfl

/-! ## setDesc -/

@[simp] theorem State.setDesc_mode (s : State) (n : Fin 4) (b : Nat) (f : CanDesc → CanDesc) : (s.setDesc n b f).mode = s.mode := rfl
@[simp] theorem State.setDesc_power (s : State) (n : Fin 4) (b : Nat) (f : CanDesc → CanDesc) : (s.setDesc n b f).power = s.power := rfl
@[simp] theorem State.setDesc_clk (s : State) (n : Fin 4) (b : Nat) (f : CanDesc → CanDesc) : (s.setDesc n b f).clk = s.clk := rfl
@[simp] theorem State.setDesc_boot (s : State) (n : Fin 4) (b : Nat) (f : CanDesc → CanDesc) : (s.setDesc n b f).boot = s.boot := rfl
@[simp] theorem State.setDesc_fw (s : State) (n : Fin 4) (b : Nat) (f : CanDesc → CanDesc) : (s.setDesc n b f).fw = s.fw := rfl
@[simp] theorem State.setDesc_host (s : State) (n : Fin 4) (b : Nat) (f : CanDesc → CanDesc) : (s.setDesc n b f).host = s.host := rfl
@[simp] theorem State.setDesc_cfg (s : State) (n : Fin 4) (b : Nat) (f : CanDesc → CanDesc) : (s.setDesc n b f).cfg = s.cfg := rfl
@[simp] theorem State.setDesc_sec (s : State) (n : Fin 4) (b : Nat) (f : CanDesc → CanDesc) : (s.setDesc n b f).sec = s.sec := rfl
@[simp] theorem State.setDesc_log (s : State) (n : Fin 4) (b : Nat) (f : CanDesc → CanDesc) : (s.setDesc n b f).log = s.log := rfl
@[simp] theorem State.setDesc_sto (s : State) (n : Fin 4) (b : Nat) (f : CanDesc → CanDesc) : (s.setDesc n b f).sto = s.sto := rfl
@[simp] theorem State.setDesc_sensing (s : State) (n : Fin 4) (b : Nat) (f : CanDesc → CanDesc) : (s.setDesc n b f).sensing = s.sensing := rfl
@[simp] theorem State.setDesc_pos (s : State) (n : Fin 4) (b : Nat) (f : CanDesc → CanDesc) : (s.setDesc n b f).pos = s.pos := rfl
@[simp] theorem State.setDesc_refsw (s : State) (n : Fin 4) (b : Nat) (f : CanDesc → CanDesc) : (s.setDesc n b f).refsw = s.refsw := rfl
@[simp] theorem State.setDesc_exc (s : State) (n : Fin 4) (b : Nat) (f : CanDesc → CanDesc) : (s.setDesc n b f).exc = s.exc := rfl
@[simp] theorem State.setDesc_aux (s : State) (n : Fin 4) (b : Nat) (f : CanDesc → CanDesc) : (s.setDesc n b f).aux = s.aux := rfl
@[simp] theorem State.setDesc_rig (s : State) (n : Fin 4) (b : Nat) (f : CanDesc → CanDesc) : (s.setDesc n b f).rig = s.rig := rfl
@[simp] theorem State.setDesc_back (s : State) (n : Fin 4) (b : Nat) (f : CanDesc → CanDesc) : (s.setDesc n b f).back = s.back := rfl
@[simp] theorem State.setDesc_disch (s : State) (n : Fin 4) (b : Nat) (f : CanDesc → CanDesc) : (s.setDesc n b f).disch = s.disch := rfl
@[simp] theorem State.setDesc_lock (s : State) (n : Fin 4) (b : Nat) (f : CanDesc → CanDesc) : (s.setDesc n b f).lock = s.lock := rfl
@[simp] theorem State.setDesc_ecc (s : State) (n : Fin 4) (b : Nat) (f : CanDesc → CanDesc) : (s.setDesc n b f).ecc = s.ecc := rfl
@[simp] theorem State.setDesc_si (s : State) (n : Fin 4) (b : Nat) (f : CanDesc → CanDesc) : (s.setDesc n b f).si = s.si := rfl
@[simp] theorem State.setDesc_so (s : State) (n : Fin 4) (b : Nat) (f : CanDesc → CanDesc) : (s.setDesc n b f).so = s.so := rfl
@[simp] theorem State.setDesc_ring (s : State) (n : Fin 4) (b : Nat) (f : CanDesc → CanDesc) : (s.setDesc n b f).ring = s.ring := rfl
@[simp] theorem State.setDesc_axes (s : State) (n : Fin 4) (b : Nat) (f : CanDesc → CanDesc) : (s.setDesc n b f).axes = s.axes := rfl
@[simp] theorem State.setDesc_free (s : State) (n : Fin 4) (b : Nat) (f : CanDesc → CanDesc) : (s.setDesc n b f).free = s.free := rfl
@[simp] theorem State.setDesc_pending (s : State) (n : Fin 4) (b : Nat) (f : CanDesc → CanDesc) : (s.setDesc n b f).pending = s.pending := rfl

/-! ## setPort -/

@[simp] theorem State.setPort_mode (s : State) (p : Fin 2) (f : HalyardPort → HalyardPort) : (s.setPort p f).mode = s.mode := rfl
@[simp] theorem State.setPort_power (s : State) (p : Fin 2) (f : HalyardPort → HalyardPort) : (s.setPort p f).power = s.power := rfl
@[simp] theorem State.setPort_clk (s : State) (p : Fin 2) (f : HalyardPort → HalyardPort) : (s.setPort p f).clk = s.clk := rfl
@[simp] theorem State.setPort_boot (s : State) (p : Fin 2) (f : HalyardPort → HalyardPort) : (s.setPort p f).boot = s.boot := rfl
@[simp] theorem State.setPort_fw (s : State) (p : Fin 2) (f : HalyardPort → HalyardPort) : (s.setPort p f).fw = s.fw := rfl
@[simp] theorem State.setPort_host (s : State) (p : Fin 2) (f : HalyardPort → HalyardPort) : (s.setPort p f).host = s.host := rfl
@[simp] theorem State.setPort_cfg (s : State) (p : Fin 2) (f : HalyardPort → HalyardPort) : (s.setPort p f).cfg = s.cfg := rfl
@[simp] theorem State.setPort_sec (s : State) (p : Fin 2) (f : HalyardPort → HalyardPort) : (s.setPort p f).sec = s.sec := rfl
@[simp] theorem State.setPort_log (s : State) (p : Fin 2) (f : HalyardPort → HalyardPort) : (s.setPort p f).log = s.log := rfl
@[simp] theorem State.setPort_sto (s : State) (p : Fin 2) (f : HalyardPort → HalyardPort) : (s.setPort p f).sto = s.sto := rfl
@[simp] theorem State.setPort_sensing (s : State) (p : Fin 2) (f : HalyardPort → HalyardPort) : (s.setPort p f).sensing = s.sensing := rfl
@[simp] theorem State.setPort_pos (s : State) (p : Fin 2) (f : HalyardPort → HalyardPort) : (s.setPort p f).pos = s.pos := rfl
@[simp] theorem State.setPort_refsw (s : State) (p : Fin 2) (f : HalyardPort → HalyardPort) : (s.setPort p f).refsw = s.refsw := rfl
@[simp] theorem State.setPort_exc (s : State) (p : Fin 2) (f : HalyardPort → HalyardPort) : (s.setPort p f).exc = s.exc := rfl
@[simp] theorem State.setPort_aux (s : State) (p : Fin 2) (f : HalyardPort → HalyardPort) : (s.setPort p f).aux = s.aux := rfl
@[simp] theorem State.setPort_rig (s : State) (p : Fin 2) (f : HalyardPort → HalyardPort) : (s.setPort p f).rig = s.rig := rfl
@[simp] theorem State.setPort_back (s : State) (p : Fin 2) (f : HalyardPort → HalyardPort) : (s.setPort p f).back = s.back := rfl
@[simp] theorem State.setPort_disch (s : State) (p : Fin 2) (f : HalyardPort → HalyardPort) : (s.setPort p f).disch = s.disch := rfl
@[simp] theorem State.setPort_lock (s : State) (p : Fin 2) (f : HalyardPort → HalyardPort) : (s.setPort p f).lock = s.lock := rfl
@[simp] theorem State.setPort_ecc (s : State) (p : Fin 2) (f : HalyardPort → HalyardPort) : (s.setPort p f).ecc = s.ecc := rfl
@[simp] theorem State.setPort_si (s : State) (p : Fin 2) (f : HalyardPort → HalyardPort) : (s.setPort p f).si = s.si := rfl
@[simp] theorem State.setPort_so (s : State) (p : Fin 2) (f : HalyardPort → HalyardPort) : (s.setPort p f).so = s.so := rfl
@[simp] theorem State.setPort_can (s : State) (p : Fin 2) (f : HalyardPort → HalyardPort) : (s.setPort p f).can = s.can := rfl
@[simp] theorem State.setPort_axes (s : State) (p : Fin 2) (f : HalyardPort → HalyardPort) : (s.setPort p f).axes = s.axes := rfl
@[simp] theorem State.setPort_free (s : State) (p : Fin 2) (f : HalyardPort → HalyardPort) : (s.setPort p f).free = s.free := rfl
@[simp] theorem State.setPort_pending (s : State) (p : Fin 2) (f : HalyardPort → HalyardPort) : (s.setPort p f).pending = s.pending := rfl

/-! ## setGroup -/

@[simp] theorem State.setGroup_mode (s : State) (g : Fin 4) (f : RingGroup → RingGroup) : (s.setGroup g f).mode = s.mode := rfl
@[simp] theorem State.setGroup_power (s : State) (g : Fin 4) (f : RingGroup → RingGroup) : (s.setGroup g f).power = s.power := rfl
@[simp] theorem State.setGroup_clk (s : State) (g : Fin 4) (f : RingGroup → RingGroup) : (s.setGroup g f).clk = s.clk := rfl
@[simp] theorem State.setGroup_boot (s : State) (g : Fin 4) (f : RingGroup → RingGroup) : (s.setGroup g f).boot = s.boot := rfl
@[simp] theorem State.setGroup_fw (s : State) (g : Fin 4) (f : RingGroup → RingGroup) : (s.setGroup g f).fw = s.fw := rfl
@[simp] theorem State.setGroup_host (s : State) (g : Fin 4) (f : RingGroup → RingGroup) : (s.setGroup g f).host = s.host := rfl
@[simp] theorem State.setGroup_cfg (s : State) (g : Fin 4) (f : RingGroup → RingGroup) : (s.setGroup g f).cfg = s.cfg := rfl
@[simp] theorem State.setGroup_sec (s : State) (g : Fin 4) (f : RingGroup → RingGroup) : (s.setGroup g f).sec = s.sec := rfl
@[simp] theorem State.setGroup_log (s : State) (g : Fin 4) (f : RingGroup → RingGroup) : (s.setGroup g f).log = s.log := rfl
@[simp] theorem State.setGroup_sto (s : State) (g : Fin 4) (f : RingGroup → RingGroup) : (s.setGroup g f).sto = s.sto := rfl
@[simp] theorem State.setGroup_sensing (s : State) (g : Fin 4) (f : RingGroup → RingGroup) : (s.setGroup g f).sensing = s.sensing := rfl
@[simp] theorem State.setGroup_pos (s : State) (g : Fin 4) (f : RingGroup → RingGroup) : (s.setGroup g f).pos = s.pos := rfl
@[simp] theorem State.setGroup_refsw (s : State) (g : Fin 4) (f : RingGroup → RingGroup) : (s.setGroup g f).refsw = s.refsw := rfl
@[simp] theorem State.setGroup_exc (s : State) (g : Fin 4) (f : RingGroup → RingGroup) : (s.setGroup g f).exc = s.exc := rfl
@[simp] theorem State.setGroup_aux (s : State) (g : Fin 4) (f : RingGroup → RingGroup) : (s.setGroup g f).aux = s.aux := rfl
@[simp] theorem State.setGroup_rig (s : State) (g : Fin 4) (f : RingGroup → RingGroup) : (s.setGroup g f).rig = s.rig := rfl
@[simp] theorem State.setGroup_back (s : State) (g : Fin 4) (f : RingGroup → RingGroup) : (s.setGroup g f).back = s.back := rfl
@[simp] theorem State.setGroup_disch (s : State) (g : Fin 4) (f : RingGroup → RingGroup) : (s.setGroup g f).disch = s.disch := rfl
@[simp] theorem State.setGroup_lock (s : State) (g : Fin 4) (f : RingGroup → RingGroup) : (s.setGroup g f).lock = s.lock := rfl
@[simp] theorem State.setGroup_ecc (s : State) (g : Fin 4) (f : RingGroup → RingGroup) : (s.setGroup g f).ecc = s.ecc := rfl
@[simp] theorem State.setGroup_si (s : State) (g : Fin 4) (f : RingGroup → RingGroup) : (s.setGroup g f).si = s.si := rfl
@[simp] theorem State.setGroup_so (s : State) (g : Fin 4) (f : RingGroup → RingGroup) : (s.setGroup g f).so = s.so := rfl
@[simp] theorem State.setGroup_can (s : State) (g : Fin 4) (f : RingGroup → RingGroup) : (s.setGroup g f).can = s.can := rfl
@[simp] theorem State.setGroup_axes (s : State) (g : Fin 4) (f : RingGroup → RingGroup) : (s.setGroup g f).axes = s.axes := rfl
@[simp] theorem State.setGroup_free (s : State) (g : Fin 4) (f : RingGroup → RingGroup) : (s.setGroup g f).free = s.free := rfl
@[simp] theorem State.setGroup_pending (s : State) (g : Fin 4) (f : RingGroup → RingGroup) : (s.setGroup g f).pending = s.pending := rfl

/-! ## setMember -/

@[simp] theorem State.setMember_mode (s : State) (k : Nat) (f : RingMember → RingMember) : (s.setMember k f).mode = s.mode := by unfold State.setMember; split <;> rfl
@[simp] theorem State.setMember_power (s : State) (k : Nat) (f : RingMember → RingMember) : (s.setMember k f).power = s.power := by unfold State.setMember; split <;> rfl
@[simp] theorem State.setMember_clk (s : State) (k : Nat) (f : RingMember → RingMember) : (s.setMember k f).clk = s.clk := by unfold State.setMember; split <;> rfl
@[simp] theorem State.setMember_boot (s : State) (k : Nat) (f : RingMember → RingMember) : (s.setMember k f).boot = s.boot := by unfold State.setMember; split <;> rfl
@[simp] theorem State.setMember_fw (s : State) (k : Nat) (f : RingMember → RingMember) : (s.setMember k f).fw = s.fw := by unfold State.setMember; split <;> rfl
@[simp] theorem State.setMember_host (s : State) (k : Nat) (f : RingMember → RingMember) : (s.setMember k f).host = s.host := by unfold State.setMember; split <;> rfl
@[simp] theorem State.setMember_cfg (s : State) (k : Nat) (f : RingMember → RingMember) : (s.setMember k f).cfg = s.cfg := by unfold State.setMember; split <;> rfl
@[simp] theorem State.setMember_sec (s : State) (k : Nat) (f : RingMember → RingMember) : (s.setMember k f).sec = s.sec := by unfold State.setMember; split <;> rfl
@[simp] theorem State.setMember_log (s : State) (k : Nat) (f : RingMember → RingMember) : (s.setMember k f).log = s.log := by unfold State.setMember; split <;> rfl
@[simp] theorem State.setMember_sto (s : State) (k : Nat) (f : RingMember → RingMember) : (s.setMember k f).sto = s.sto := by unfold State.setMember; split <;> rfl
@[simp] theorem State.setMember_sensing (s : State) (k : Nat) (f : RingMember → RingMember) : (s.setMember k f).sensing = s.sensing := by unfold State.setMember; split <;> rfl
@[simp] theorem State.setMember_pos (s : State) (k : Nat) (f : RingMember → RingMember) : (s.setMember k f).pos = s.pos := by unfold State.setMember; split <;> rfl
@[simp] theorem State.setMember_refsw (s : State) (k : Nat) (f : RingMember → RingMember) : (s.setMember k f).refsw = s.refsw := by unfold State.setMember; split <;> rfl
@[simp] theorem State.setMember_exc (s : State) (k : Nat) (f : RingMember → RingMember) : (s.setMember k f).exc = s.exc := by unfold State.setMember; split <;> rfl
@[simp] theorem State.setMember_aux (s : State) (k : Nat) (f : RingMember → RingMember) : (s.setMember k f).aux = s.aux := by unfold State.setMember; split <;> rfl
@[simp] theorem State.setMember_rig (s : State) (k : Nat) (f : RingMember → RingMember) : (s.setMember k f).rig = s.rig := by unfold State.setMember; split <;> rfl
@[simp] theorem State.setMember_back (s : State) (k : Nat) (f : RingMember → RingMember) : (s.setMember k f).back = s.back := by unfold State.setMember; split <;> rfl
@[simp] theorem State.setMember_disch (s : State) (k : Nat) (f : RingMember → RingMember) : (s.setMember k f).disch = s.disch := by unfold State.setMember; split <;> rfl
@[simp] theorem State.setMember_lock (s : State) (k : Nat) (f : RingMember → RingMember) : (s.setMember k f).lock = s.lock := by unfold State.setMember; split <;> rfl
@[simp] theorem State.setMember_ecc (s : State) (k : Nat) (f : RingMember → RingMember) : (s.setMember k f).ecc = s.ecc := by unfold State.setMember; split <;> rfl
@[simp] theorem State.setMember_si (s : State) (k : Nat) (f : RingMember → RingMember) : (s.setMember k f).si = s.si := by unfold State.setMember; split <;> rfl
@[simp] theorem State.setMember_so (s : State) (k : Nat) (f : RingMember → RingMember) : (s.setMember k f).so = s.so := by unfold State.setMember; split <;> rfl
@[simp] theorem State.setMember_can (s : State) (k : Nat) (f : RingMember → RingMember) : (s.setMember k f).can = s.can := by unfold State.setMember; split <;> rfl
@[simp] theorem State.setMember_axes (s : State) (k : Nat) (f : RingMember → RingMember) : (s.setMember k f).axes = s.axes := by unfold State.setMember; split <;> rfl
@[simp] theorem State.setMember_free (s : State) (k : Nat) (f : RingMember → RingMember) : (s.setMember k f).free = s.free := by unfold State.setMember; split <;> rfl
@[simp] theorem State.setMember_pending (s : State) (k : Nat) (f : RingMember → RingMember) : (s.setMember k f).pending = s.pending := by unfold State.setMember; split <;> rfl

/-! ## setPair -/

@[simp] theorem State.setPair_mode (s : State) (b : Bool) (f : LockPair → LockPair) : (s.setPair b f).mode = s.mode := rfl
@[simp] theorem State.setPair_power (s : State) (b : Bool) (f : LockPair → LockPair) : (s.setPair b f).power = s.power := rfl
@[simp] theorem State.setPair_clk (s : State) (b : Bool) (f : LockPair → LockPair) : (s.setPair b f).clk = s.clk := rfl
@[simp] theorem State.setPair_boot (s : State) (b : Bool) (f : LockPair → LockPair) : (s.setPair b f).boot = s.boot := rfl
@[simp] theorem State.setPair_fw (s : State) (b : Bool) (f : LockPair → LockPair) : (s.setPair b f).fw = s.fw := rfl
@[simp] theorem State.setPair_host (s : State) (b : Bool) (f : LockPair → LockPair) : (s.setPair b f).host = s.host := rfl
@[simp] theorem State.setPair_cfg (s : State) (b : Bool) (f : LockPair → LockPair) : (s.setPair b f).cfg = s.cfg := rfl
@[simp] theorem State.setPair_sec (s : State) (b : Bool) (f : LockPair → LockPair) : (s.setPair b f).sec = s.sec := rfl
@[simp] theorem State.setPair_log (s : State) (b : Bool) (f : LockPair → LockPair) : (s.setPair b f).log = s.log := rfl
@[simp] theorem State.setPair_sto (s : State) (b : Bool) (f : LockPair → LockPair) : (s.setPair b f).sto = s.sto := rfl
@[simp] theorem State.setPair_sensing (s : State) (b : Bool) (f : LockPair → LockPair) : (s.setPair b f).sensing = s.sensing := rfl
@[simp] theorem State.setPair_pos (s : State) (b : Bool) (f : LockPair → LockPair) : (s.setPair b f).pos = s.pos := rfl
@[simp] theorem State.setPair_refsw (s : State) (b : Bool) (f : LockPair → LockPair) : (s.setPair b f).refsw = s.refsw := rfl
@[simp] theorem State.setPair_exc (s : State) (b : Bool) (f : LockPair → LockPair) : (s.setPair b f).exc = s.exc := rfl
@[simp] theorem State.setPair_aux (s : State) (b : Bool) (f : LockPair → LockPair) : (s.setPair b f).aux = s.aux := rfl
@[simp] theorem State.setPair_rig (s : State) (b : Bool) (f : LockPair → LockPair) : (s.setPair b f).rig = s.rig := rfl
@[simp] theorem State.setPair_back (s : State) (b : Bool) (f : LockPair → LockPair) : (s.setPair b f).back = s.back := rfl
@[simp] theorem State.setPair_disch (s : State) (b : Bool) (f : LockPair → LockPair) : (s.setPair b f).disch = s.disch := rfl
@[simp] theorem State.setPair_ecc (s : State) (b : Bool) (f : LockPair → LockPair) : (s.setPair b f).ecc = s.ecc := rfl
@[simp] theorem State.setPair_si (s : State) (b : Bool) (f : LockPair → LockPair) : (s.setPair b f).si = s.si := rfl
@[simp] theorem State.setPair_so (s : State) (b : Bool) (f : LockPair → LockPair) : (s.setPair b f).so = s.so := rfl
@[simp] theorem State.setPair_can (s : State) (b : Bool) (f : LockPair → LockPair) : (s.setPair b f).can = s.can := rfl
@[simp] theorem State.setPair_ring (s : State) (b : Bool) (f : LockPair → LockPair) : (s.setPair b f).ring = s.ring := rfl
@[simp] theorem State.setPair_axes (s : State) (b : Bool) (f : LockPair → LockPair) : (s.setPair b f).axes = s.axes := rfl
@[simp] theorem State.setPair_free (s : State) (b : Bool) (f : LockPair → LockPair) : (s.setPair b f).free = s.free := rfl
@[simp] theorem State.setPair_pending (s : State) (b : Bool) (f : LockPair → LockPair) : (s.setPair b f).pending = s.pending := rfl

/-! ## setEngine -/

@[simp] theorem State.setEngine_mode (s : State) (e : Fin 4) (f : Engine → Engine) : (s.setEngine e f).mode = s.mode := rfl
@[simp] theorem State.setEngine_power (s : State) (e : Fin 4) (f : Engine → Engine) : (s.setEngine e f).power = s.power := rfl
@[simp] theorem State.setEngine_clk (s : State) (e : Fin 4) (f : Engine → Engine) : (s.setEngine e f).clk = s.clk := rfl
@[simp] theorem State.setEngine_boot (s : State) (e : Fin 4) (f : Engine → Engine) : (s.setEngine e f).boot = s.boot := rfl
@[simp] theorem State.setEngine_fw (s : State) (e : Fin 4) (f : Engine → Engine) : (s.setEngine e f).fw = s.fw := rfl
@[simp] theorem State.setEngine_host (s : State) (e : Fin 4) (f : Engine → Engine) : (s.setEngine e f).host = s.host := rfl
@[simp] theorem State.setEngine_cfg (s : State) (e : Fin 4) (f : Engine → Engine) : (s.setEngine e f).cfg = s.cfg := rfl
@[simp] theorem State.setEngine_sec (s : State) (e : Fin 4) (f : Engine → Engine) : (s.setEngine e f).sec = s.sec := rfl
@[simp] theorem State.setEngine_log (s : State) (e : Fin 4) (f : Engine → Engine) : (s.setEngine e f).log = s.log := rfl
@[simp] theorem State.setEngine_sto (s : State) (e : Fin 4) (f : Engine → Engine) : (s.setEngine e f).sto = s.sto := rfl
@[simp] theorem State.setEngine_sensing (s : State) (e : Fin 4) (f : Engine → Engine) : (s.setEngine e f).sensing = s.sensing := rfl
@[simp] theorem State.setEngine_pos (s : State) (e : Fin 4) (f : Engine → Engine) : (s.setEngine e f).pos = s.pos := rfl
@[simp] theorem State.setEngine_refsw (s : State) (e : Fin 4) (f : Engine → Engine) : (s.setEngine e f).refsw = s.refsw := rfl
@[simp] theorem State.setEngine_exc (s : State) (e : Fin 4) (f : Engine → Engine) : (s.setEngine e f).exc = s.exc := rfl
@[simp] theorem State.setEngine_aux (s : State) (e : Fin 4) (f : Engine → Engine) : (s.setEngine e f).aux = s.aux := rfl
@[simp] theorem State.setEngine_back (s : State) (e : Fin 4) (f : Engine → Engine) : (s.setEngine e f).back = s.back := rfl
@[simp] theorem State.setEngine_disch (s : State) (e : Fin 4) (f : Engine → Engine) : (s.setEngine e f).disch = s.disch := rfl
@[simp] theorem State.setEngine_lock (s : State) (e : Fin 4) (f : Engine → Engine) : (s.setEngine e f).lock = s.lock := rfl
@[simp] theorem State.setEngine_ecc (s : State) (e : Fin 4) (f : Engine → Engine) : (s.setEngine e f).ecc = s.ecc := rfl
@[simp] theorem State.setEngine_si (s : State) (e : Fin 4) (f : Engine → Engine) : (s.setEngine e f).si = s.si := rfl
@[simp] theorem State.setEngine_so (s : State) (e : Fin 4) (f : Engine → Engine) : (s.setEngine e f).so = s.so := rfl
@[simp] theorem State.setEngine_can (s : State) (e : Fin 4) (f : Engine → Engine) : (s.setEngine e f).can = s.can := rfl
@[simp] theorem State.setEngine_ring (s : State) (e : Fin 4) (f : Engine → Engine) : (s.setEngine e f).ring = s.ring := rfl
@[simp] theorem State.setEngine_axes (s : State) (e : Fin 4) (f : Engine → Engine) : (s.setEngine e f).axes = s.axes := rfl
@[simp] theorem State.setEngine_free (s : State) (e : Fin 4) (f : Engine → Engine) : (s.setEngine e f).free = s.free := rfl
@[simp] theorem State.setEngine_pending (s : State) (e : Fin 4) (f : Engine → Engine) : (s.setEngine e f).pending = s.pending := rfl

/-! ## setFn -/

@[simp] theorem State.setFn_mode (s : State) (f : Fin 8) (g : SiFn → SiFn) : (s.setFn f g).mode = s.mode := rfl
@[simp] theorem State.setFn_power (s : State) (f : Fin 8) (g : SiFn → SiFn) : (s.setFn f g).power = s.power := rfl
@[simp] theorem State.setFn_clk (s : State) (f : Fin 8) (g : SiFn → SiFn) : (s.setFn f g).clk = s.clk := rfl
@[simp] theorem State.setFn_boot (s : State) (f : Fin 8) (g : SiFn → SiFn) : (s.setFn f g).boot = s.boot := rfl
@[simp] theorem State.setFn_fw (s : State) (f : Fin 8) (g : SiFn → SiFn) : (s.setFn f g).fw = s.fw := rfl
@[simp] theorem State.setFn_host (s : State) (f : Fin 8) (g : SiFn → SiFn) : (s.setFn f g).host = s.host := rfl
@[simp] theorem State.setFn_cfg (s : State) (f : Fin 8) (g : SiFn → SiFn) : (s.setFn f g).cfg = s.cfg := rfl
@[simp] theorem State.setFn_sec (s : State) (f : Fin 8) (g : SiFn → SiFn) : (s.setFn f g).sec = s.sec := rfl
@[simp] theorem State.setFn_log (s : State) (f : Fin 8) (g : SiFn → SiFn) : (s.setFn f g).log = s.log := rfl
@[simp] theorem State.setFn_sto (s : State) (f : Fin 8) (g : SiFn → SiFn) : (s.setFn f g).sto = s.sto := rfl
@[simp] theorem State.setFn_sensing (s : State) (f : Fin 8) (g : SiFn → SiFn) : (s.setFn f g).sensing = s.sensing := rfl
@[simp] theorem State.setFn_pos (s : State) (f : Fin 8) (g : SiFn → SiFn) : (s.setFn f g).pos = s.pos := rfl
@[simp] theorem State.setFn_refsw (s : State) (f : Fin 8) (g : SiFn → SiFn) : (s.setFn f g).refsw = s.refsw := rfl
@[simp] theorem State.setFn_exc (s : State) (f : Fin 8) (g : SiFn → SiFn) : (s.setFn f g).exc = s.exc := rfl
@[simp] theorem State.setFn_aux (s : State) (f : Fin 8) (g : SiFn → SiFn) : (s.setFn f g).aux = s.aux := rfl
@[simp] theorem State.setFn_rig (s : State) (f : Fin 8) (g : SiFn → SiFn) : (s.setFn f g).rig = s.rig := rfl
@[simp] theorem State.setFn_back (s : State) (f : Fin 8) (g : SiFn → SiFn) : (s.setFn f g).back = s.back := rfl
@[simp] theorem State.setFn_disch (s : State) (f : Fin 8) (g : SiFn → SiFn) : (s.setFn f g).disch = s.disch := rfl
@[simp] theorem State.setFn_lock (s : State) (f : Fin 8) (g : SiFn → SiFn) : (s.setFn f g).lock = s.lock := rfl
@[simp] theorem State.setFn_ecc (s : State) (f : Fin 8) (g : SiFn → SiFn) : (s.setFn f g).ecc = s.ecc := rfl
@[simp] theorem State.setFn_so (s : State) (f : Fin 8) (g : SiFn → SiFn) : (s.setFn f g).so = s.so := rfl
@[simp] theorem State.setFn_can (s : State) (f : Fin 8) (g : SiFn → SiFn) : (s.setFn f g).can = s.can := rfl
@[simp] theorem State.setFn_ring (s : State) (f : Fin 8) (g : SiFn → SiFn) : (s.setFn f g).ring = s.ring := rfl
@[simp] theorem State.setFn_axes (s : State) (f : Fin 8) (g : SiFn → SiFn) : (s.setFn f g).axes = s.axes := rfl
@[simp] theorem State.setFn_free (s : State) (f : Fin 8) (g : SiFn → SiFn) : (s.setFn f g).free = s.free := rfl
@[simp] theorem State.setFn_pending (s : State) (f : Fin 8) (g : SiFn → SiFn) : (s.setFn f g).pending = s.pending := rfl

/-! ## setConv -/

@[simp] theorem State.setConv_mode (s : State) (c : Fin 8) (f : Converter → Converter) : (s.setConv c f).mode = s.mode := rfl
@[simp] theorem State.setConv_power (s : State) (c : Fin 8) (f : Converter → Converter) : (s.setConv c f).power = s.power := rfl
@[simp] theorem State.setConv_clk (s : State) (c : Fin 8) (f : Converter → Converter) : (s.setConv c f).clk = s.clk := rfl
@[simp] theorem State.setConv_boot (s : State) (c : Fin 8) (f : Converter → Converter) : (s.setConv c f).boot = s.boot := rfl
@[simp] theorem State.setConv_fw (s : State) (c : Fin 8) (f : Converter → Converter) : (s.setConv c f).fw = s.fw := rfl
@[simp] theorem State.setConv_host (s : State) (c : Fin 8) (f : Converter → Converter) : (s.setConv c f).host = s.host := rfl
@[simp] theorem State.setConv_cfg (s : State) (c : Fin 8) (f : Converter → Converter) : (s.setConv c f).cfg = s.cfg := rfl
@[simp] theorem State.setConv_sec (s : State) (c : Fin 8) (f : Converter → Converter) : (s.setConv c f).sec = s.sec := rfl
@[simp] theorem State.setConv_log (s : State) (c : Fin 8) (f : Converter → Converter) : (s.setConv c f).log = s.log := rfl
@[simp] theorem State.setConv_sto (s : State) (c : Fin 8) (f : Converter → Converter) : (s.setConv c f).sto = s.sto := rfl
@[simp] theorem State.setConv_pos (s : State) (c : Fin 8) (f : Converter → Converter) : (s.setConv c f).pos = s.pos := rfl
@[simp] theorem State.setConv_refsw (s : State) (c : Fin 8) (f : Converter → Converter) : (s.setConv c f).refsw = s.refsw := rfl
@[simp] theorem State.setConv_exc (s : State) (c : Fin 8) (f : Converter → Converter) : (s.setConv c f).exc = s.exc := rfl
@[simp] theorem State.setConv_aux (s : State) (c : Fin 8) (f : Converter → Converter) : (s.setConv c f).aux = s.aux := rfl
@[simp] theorem State.setConv_rig (s : State) (c : Fin 8) (f : Converter → Converter) : (s.setConv c f).rig = s.rig := rfl
@[simp] theorem State.setConv_back (s : State) (c : Fin 8) (f : Converter → Converter) : (s.setConv c f).back = s.back := rfl
@[simp] theorem State.setConv_disch (s : State) (c : Fin 8) (f : Converter → Converter) : (s.setConv c f).disch = s.disch := rfl
@[simp] theorem State.setConv_lock (s : State) (c : Fin 8) (f : Converter → Converter) : (s.setConv c f).lock = s.lock := rfl
@[simp] theorem State.setConv_ecc (s : State) (c : Fin 8) (f : Converter → Converter) : (s.setConv c f).ecc = s.ecc := rfl
@[simp] theorem State.setConv_si (s : State) (c : Fin 8) (f : Converter → Converter) : (s.setConv c f).si = s.si := rfl
@[simp] theorem State.setConv_so (s : State) (c : Fin 8) (f : Converter → Converter) : (s.setConv c f).so = s.so := rfl
@[simp] theorem State.setConv_can (s : State) (c : Fin 8) (f : Converter → Converter) : (s.setConv c f).can = s.can := rfl
@[simp] theorem State.setConv_ring (s : State) (c : Fin 8) (f : Converter → Converter) : (s.setConv c f).ring = s.ring := rfl
@[simp] theorem State.setConv_axes (s : State) (c : Fin 8) (f : Converter → Converter) : (s.setConv c f).axes = s.axes := rfl
@[simp] theorem State.setConv_free (s : State) (c : Fin 8) (f : Converter → Converter) : (s.setConv c f).free = s.free := rfl
@[simp] theorem State.setConv_pending (s : State) (c : Fin 8) (f : Converter → Converter) : (s.setConv c f).pending = s.pending := rfl

/-! ## setDs -/

@[simp] theorem State.setDs_mode (s : State) (c : Fin 16) (f : DsChannel → DsChannel) : (s.setDs c f).mode = s.mode := rfl
@[simp] theorem State.setDs_power (s : State) (c : Fin 16) (f : DsChannel → DsChannel) : (s.setDs c f).power = s.power := rfl
@[simp] theorem State.setDs_clk (s : State) (c : Fin 16) (f : DsChannel → DsChannel) : (s.setDs c f).clk = s.clk := rfl
@[simp] theorem State.setDs_boot (s : State) (c : Fin 16) (f : DsChannel → DsChannel) : (s.setDs c f).boot = s.boot := rfl
@[simp] theorem State.setDs_fw (s : State) (c : Fin 16) (f : DsChannel → DsChannel) : (s.setDs c f).fw = s.fw := rfl
@[simp] theorem State.setDs_host (s : State) (c : Fin 16) (f : DsChannel → DsChannel) : (s.setDs c f).host = s.host := rfl
@[simp] theorem State.setDs_cfg (s : State) (c : Fin 16) (f : DsChannel → DsChannel) : (s.setDs c f).cfg = s.cfg := rfl
@[simp] theorem State.setDs_sec (s : State) (c : Fin 16) (f : DsChannel → DsChannel) : (s.setDs c f).sec = s.sec := rfl
@[simp] theorem State.setDs_log (s : State) (c : Fin 16) (f : DsChannel → DsChannel) : (s.setDs c f).log = s.log := rfl
@[simp] theorem State.setDs_sto (s : State) (c : Fin 16) (f : DsChannel → DsChannel) : (s.setDs c f).sto = s.sto := rfl
@[simp] theorem State.setDs_pos (s : State) (c : Fin 16) (f : DsChannel → DsChannel) : (s.setDs c f).pos = s.pos := rfl
@[simp] theorem State.setDs_refsw (s : State) (c : Fin 16) (f : DsChannel → DsChannel) : (s.setDs c f).refsw = s.refsw := rfl
@[simp] theorem State.setDs_exc (s : State) (c : Fin 16) (f : DsChannel → DsChannel) : (s.setDs c f).exc = s.exc := rfl
@[simp] theorem State.setDs_aux (s : State) (c : Fin 16) (f : DsChannel → DsChannel) : (s.setDs c f).aux = s.aux := rfl
@[simp] theorem State.setDs_rig (s : State) (c : Fin 16) (f : DsChannel → DsChannel) : (s.setDs c f).rig = s.rig := rfl
@[simp] theorem State.setDs_back (s : State) (c : Fin 16) (f : DsChannel → DsChannel) : (s.setDs c f).back = s.back := rfl
@[simp] theorem State.setDs_disch (s : State) (c : Fin 16) (f : DsChannel → DsChannel) : (s.setDs c f).disch = s.disch := rfl
@[simp] theorem State.setDs_lock (s : State) (c : Fin 16) (f : DsChannel → DsChannel) : (s.setDs c f).lock = s.lock := rfl
@[simp] theorem State.setDs_ecc (s : State) (c : Fin 16) (f : DsChannel → DsChannel) : (s.setDs c f).ecc = s.ecc := rfl
@[simp] theorem State.setDs_si (s : State) (c : Fin 16) (f : DsChannel → DsChannel) : (s.setDs c f).si = s.si := rfl
@[simp] theorem State.setDs_so (s : State) (c : Fin 16) (f : DsChannel → DsChannel) : (s.setDs c f).so = s.so := rfl
@[simp] theorem State.setDs_can (s : State) (c : Fin 16) (f : DsChannel → DsChannel) : (s.setDs c f).can = s.can := rfl
@[simp] theorem State.setDs_ring (s : State) (c : Fin 16) (f : DsChannel → DsChannel) : (s.setDs c f).ring = s.ring := rfl
@[simp] theorem State.setDs_axes (s : State) (c : Fin 16) (f : DsChannel → DsChannel) : (s.setDs c f).axes = s.axes := rfl
@[simp] theorem State.setDs_free (s : State) (c : Fin 16) (f : DsChannel → DsChannel) : (s.setDs c f).free = s.free := rfl
@[simp] theorem State.setDs_pending (s : State) (c : Fin 16) (f : DsChannel → DsChannel) : (s.setDs c f).pending = s.pending := rfl

/-! ## setSlot -/

@[simp] theorem State.setSlot_mode (s : State) (b : Bool) (x : CfgSlot) : (s.setSlot b x).mode = s.mode := by cases b <;> rfl
@[simp] theorem State.setSlot_power (s : State) (b : Bool) (x : CfgSlot) : (s.setSlot b x).power = s.power := by cases b <;> rfl
@[simp] theorem State.setSlot_clk (s : State) (b : Bool) (x : CfgSlot) : (s.setSlot b x).clk = s.clk := by cases b <;> rfl
@[simp] theorem State.setSlot_boot (s : State) (b : Bool) (x : CfgSlot) : (s.setSlot b x).boot = s.boot := by cases b <;> rfl
@[simp] theorem State.setSlot_fw (s : State) (b : Bool) (x : CfgSlot) : (s.setSlot b x).fw = s.fw := by cases b <;> rfl
@[simp] theorem State.setSlot_host (s : State) (b : Bool) (x : CfgSlot) : (s.setSlot b x).host = s.host := by cases b <;> rfl
@[simp] theorem State.setSlot_sec (s : State) (b : Bool) (x : CfgSlot) : (s.setSlot b x).sec = s.sec := by cases b <;> rfl
@[simp] theorem State.setSlot_log (s : State) (b : Bool) (x : CfgSlot) : (s.setSlot b x).log = s.log := by cases b <;> rfl
@[simp] theorem State.setSlot_sto (s : State) (b : Bool) (x : CfgSlot) : (s.setSlot b x).sto = s.sto := by cases b <;> rfl
@[simp] theorem State.setSlot_sensing (s : State) (b : Bool) (x : CfgSlot) : (s.setSlot b x).sensing = s.sensing := by cases b <;> rfl
@[simp] theorem State.setSlot_pos (s : State) (b : Bool) (x : CfgSlot) : (s.setSlot b x).pos = s.pos := by cases b <;> rfl
@[simp] theorem State.setSlot_refsw (s : State) (b : Bool) (x : CfgSlot) : (s.setSlot b x).refsw = s.refsw := by cases b <;> rfl
@[simp] theorem State.setSlot_exc (s : State) (b : Bool) (x : CfgSlot) : (s.setSlot b x).exc = s.exc := by cases b <;> rfl
@[simp] theorem State.setSlot_aux (s : State) (b : Bool) (x : CfgSlot) : (s.setSlot b x).aux = s.aux := by cases b <;> rfl
@[simp] theorem State.setSlot_rig (s : State) (b : Bool) (x : CfgSlot) : (s.setSlot b x).rig = s.rig := by cases b <;> rfl
@[simp] theorem State.setSlot_back (s : State) (b : Bool) (x : CfgSlot) : (s.setSlot b x).back = s.back := by cases b <;> rfl
@[simp] theorem State.setSlot_disch (s : State) (b : Bool) (x : CfgSlot) : (s.setSlot b x).disch = s.disch := by cases b <;> rfl
@[simp] theorem State.setSlot_lock (s : State) (b : Bool) (x : CfgSlot) : (s.setSlot b x).lock = s.lock := by cases b <;> rfl
@[simp] theorem State.setSlot_ecc (s : State) (b : Bool) (x : CfgSlot) : (s.setSlot b x).ecc = s.ecc := by cases b <;> rfl
@[simp] theorem State.setSlot_si (s : State) (b : Bool) (x : CfgSlot) : (s.setSlot b x).si = s.si := by cases b <;> rfl
@[simp] theorem State.setSlot_so (s : State) (b : Bool) (x : CfgSlot) : (s.setSlot b x).so = s.so := by cases b <;> rfl
@[simp] theorem State.setSlot_can (s : State) (b : Bool) (x : CfgSlot) : (s.setSlot b x).can = s.can := by cases b <;> rfl
@[simp] theorem State.setSlot_ring (s : State) (b : Bool) (x : CfgSlot) : (s.setSlot b x).ring = s.ring := by cases b <;> rfl
@[simp] theorem State.setSlot_axes (s : State) (b : Bool) (x : CfgSlot) : (s.setSlot b x).axes = s.axes := by cases b <;> rfl
@[simp] theorem State.setSlot_free (s : State) (b : Bool) (x : CfgSlot) : (s.setSlot b x).free = s.free := by cases b <;> rfl
@[simp] theorem State.setSlot_pending (s : State) (b : Bool) (x : CfgSlot) : (s.setSlot b x).pending = s.pending := by cases b <;> rfl

/-! ## setFwSlot -/

@[simp] theorem State.setFwSlot_mode (s : State) (b : Bool) (bytes : List Byte) (invalid : Bool) : (s.setFwSlot b bytes invalid).mode = s.mode := by cases b <;> rfl
@[simp] theorem State.setFwSlot_power (s : State) (b : Bool) (bytes : List Byte) (invalid : Bool) : (s.setFwSlot b bytes invalid).power = s.power := by cases b <;> rfl
@[simp] theorem State.setFwSlot_clk (s : State) (b : Bool) (bytes : List Byte) (invalid : Bool) : (s.setFwSlot b bytes invalid).clk = s.clk := by cases b <;> rfl
@[simp] theorem State.setFwSlot_boot (s : State) (b : Bool) (bytes : List Byte) (invalid : Bool) : (s.setFwSlot b bytes invalid).boot = s.boot := by cases b <;> rfl
@[simp] theorem State.setFwSlot_host (s : State) (b : Bool) (bytes : List Byte) (invalid : Bool) : (s.setFwSlot b bytes invalid).host = s.host := by cases b <;> rfl
@[simp] theorem State.setFwSlot_cfg (s : State) (b : Bool) (bytes : List Byte) (invalid : Bool) : (s.setFwSlot b bytes invalid).cfg = s.cfg := by cases b <;> rfl
@[simp] theorem State.setFwSlot_sec (s : State) (b : Bool) (bytes : List Byte) (invalid : Bool) : (s.setFwSlot b bytes invalid).sec = s.sec := by cases b <;> rfl
@[simp] theorem State.setFwSlot_log (s : State) (b : Bool) (bytes : List Byte) (invalid : Bool) : (s.setFwSlot b bytes invalid).log = s.log := by cases b <;> rfl
@[simp] theorem State.setFwSlot_sto (s : State) (b : Bool) (bytes : List Byte) (invalid : Bool) : (s.setFwSlot b bytes invalid).sto = s.sto := by cases b <;> rfl
@[simp] theorem State.setFwSlot_sensing (s : State) (b : Bool) (bytes : List Byte) (invalid : Bool) : (s.setFwSlot b bytes invalid).sensing = s.sensing := by cases b <;> rfl
@[simp] theorem State.setFwSlot_pos (s : State) (b : Bool) (bytes : List Byte) (invalid : Bool) : (s.setFwSlot b bytes invalid).pos = s.pos := by cases b <;> rfl
@[simp] theorem State.setFwSlot_refsw (s : State) (b : Bool) (bytes : List Byte) (invalid : Bool) : (s.setFwSlot b bytes invalid).refsw = s.refsw := by cases b <;> rfl
@[simp] theorem State.setFwSlot_exc (s : State) (b : Bool) (bytes : List Byte) (invalid : Bool) : (s.setFwSlot b bytes invalid).exc = s.exc := by cases b <;> rfl
@[simp] theorem State.setFwSlot_aux (s : State) (b : Bool) (bytes : List Byte) (invalid : Bool) : (s.setFwSlot b bytes invalid).aux = s.aux := by cases b <;> rfl
@[simp] theorem State.setFwSlot_rig (s : State) (b : Bool) (bytes : List Byte) (invalid : Bool) : (s.setFwSlot b bytes invalid).rig = s.rig := by cases b <;> rfl
@[simp] theorem State.setFwSlot_back (s : State) (b : Bool) (bytes : List Byte) (invalid : Bool) : (s.setFwSlot b bytes invalid).back = s.back := by cases b <;> rfl
@[simp] theorem State.setFwSlot_disch (s : State) (b : Bool) (bytes : List Byte) (invalid : Bool) : (s.setFwSlot b bytes invalid).disch = s.disch := by cases b <;> rfl
@[simp] theorem State.setFwSlot_lock (s : State) (b : Bool) (bytes : List Byte) (invalid : Bool) : (s.setFwSlot b bytes invalid).lock = s.lock := by cases b <;> rfl
@[simp] theorem State.setFwSlot_ecc (s : State) (b : Bool) (bytes : List Byte) (invalid : Bool) : (s.setFwSlot b bytes invalid).ecc = s.ecc := by cases b <;> rfl
@[simp] theorem State.setFwSlot_si (s : State) (b : Bool) (bytes : List Byte) (invalid : Bool) : (s.setFwSlot b bytes invalid).si = s.si := by cases b <;> rfl
@[simp] theorem State.setFwSlot_so (s : State) (b : Bool) (bytes : List Byte) (invalid : Bool) : (s.setFwSlot b bytes invalid).so = s.so := by cases b <;> rfl
@[simp] theorem State.setFwSlot_can (s : State) (b : Bool) (bytes : List Byte) (invalid : Bool) : (s.setFwSlot b bytes invalid).can = s.can := by cases b <;> rfl
@[simp] theorem State.setFwSlot_ring (s : State) (b : Bool) (bytes : List Byte) (invalid : Bool) : (s.setFwSlot b bytes invalid).ring = s.ring := by cases b <;> rfl
@[simp] theorem State.setFwSlot_axes (s : State) (b : Bool) (bytes : List Byte) (invalid : Bool) : (s.setFwSlot b bytes invalid).axes = s.axes := by cases b <;> rfl
@[simp] theorem State.setFwSlot_free (s : State) (b : Bool) (bytes : List Byte) (invalid : Bool) : (s.setFwSlot b bytes invalid).free = s.free := by cases b <;> rfl
@[simp] theorem State.setFwSlot_pending (s : State) (b : Bool) (bytes : List Byte) (invalid : Bool) : (s.setFwSlot b bytes invalid).pending = s.pending := by cases b <;> rfl

/-! ## What the entry reads after an update -/

@[simp] theorem State.setAxis_axis (s : State) (i : Fin 4) (f : Axis → Axis) : (s.setAxis i f).axis i = f (s.axis i) := vupd_get _ _ _
theorem State.setAxis_axis_ne (s : State) (i j : Fin 4) (f : Axis → Axis) (h : j ≠ i) : (s.setAxis i f).axis j = s.axis j := vupd_get_ne _ _ _ _ h
@[simp] theorem State.setIfc_ifc (s : State) (i : Fin 4) (f : PosIfc → PosIfc) : (s.setIfc i f).ifc i = f (s.ifc i) := vupd_get _ _ _
theorem State.setIfc_ifc_ne (s : State) (i j : Fin 4) (f : PosIfc → PosIfc) (h : j ≠ i) : (s.setIfc i f).ifc j = s.ifc j := vupd_get_ne _ _ _ _ h
@[simp] theorem State.setCan_canCtl (s : State) (i : Fin 4) (f : CanCtl → CanCtl) : (s.setCan i f).canCtl i = f (s.canCtl i) := vupd_get _ _ _
theorem State.setCan_canCtl_ne (s : State) (i j : Fin 4) (f : CanCtl → CanCtl) (h : j ≠ i) : (s.setCan i f).canCtl j = s.canCtl j := vupd_get_ne _ _ _ _ h
@[simp] theorem State.setPort_port (s : State) (i : Fin 2) (f : HalyardPort → HalyardPort) : (s.setPort i f).port i = f (s.port i) := vupd_get _ _ _
theorem State.setPort_port_ne (s : State) (i j : Fin 2) (f : HalyardPort → HalyardPort) (h : j ≠ i) : (s.setPort i f).port j = s.port j := vupd_get_ne _ _ _ _ h
@[simp] theorem State.setGroup_group (s : State) (i : Fin 4) (f : RingGroup → RingGroup) : (s.setGroup i f).group i = f (s.group i) := vupd_get _ _ _
theorem State.setGroup_group_ne (s : State) (i j : Fin 4) (f : RingGroup → RingGroup) (h : j ≠ i) : (s.setGroup i f).group j = s.group j := vupd_get_ne _ _ _ _ h
@[simp] theorem State.setFn_fn (s : State) (i : Fin 8) (f : SiFn → SiFn) : (s.setFn i f).fn i = f (s.fn i) := vupd_get _ _ _
theorem State.setFn_fn_ne (s : State) (i j : Fin 8) (f : SiFn → SiFn) (h : j ≠ i) : (s.setFn i f).fn j = s.fn j := vupd_get_ne _ _ _ _ h
@[simp] theorem State.setConv_conv (s : State) (i : Fin 8) (f : Converter → Converter) : (s.setConv i f).conv i = f (s.conv i) := vupd_get _ _ _
theorem State.setConv_conv_ne (s : State) (i j : Fin 8) (f : Converter → Converter) (h : j ≠ i) : (s.setConv i f).conv j = s.conv j := vupd_get_ne _ _ _ _ h
@[simp] theorem State.setDs_ds (s : State) (i : Fin 16) (f : DsChannel → DsChannel) : (s.setDs i f).ds i = f (s.ds i) := vupd_get _ _ _
theorem State.setDs_ds_ne (s : State) (i j : Fin 16) (f : DsChannel → DsChannel) (h : j ≠ i) : (s.setDs i f).ds j = s.ds j := vupd_get_ne _ _ _ _ h

@[simp] theorem State.setSlot_slot (s : State) (b : Bool) (x : CfgSlot) : (s.setSlot b x).slot b = x := by cases b <;> rfl
@[simp] theorem State.setSlot_slot_not (s : State) (b : Bool) (x : CfgSlot) : (s.setSlot b x).slot (!b) = s.slot (!b) := by cases b <;> rfl

end Sys2Proof.Machine
end

