-- ==== Sys2Proof/Machine/Balls.lean ====
section
/-! DEFINITION. What the balls show (R52 to R55, R546 to R559, Tables 20.3 to 20.11): the level that the owner of a ball drives, and
the reset state in which the ball stands without its supply, its release, its owner or its unit. -/
namespace Sys2Proof.Machine
open Sys2Proof

/-- A signal of a ball (Tables 20.4 to 20.11): those that the device drives (direction O, IO, OD or AO), then its digital inputs. -/
inductive Signal where
  /-- An_UH to An_WH where high, An_UL to An_WL otherwise. -/
  | gate (axis : Fin 4) (leg : Fin 3) (high : Bool)
  | disch
  | gdBoost
  | exc (channel : Fin 2)
  | sdClock (pin : Fin 4)
  | posClock (ifc : Fin 4)
  /-- EMUm_A, EMUm_B and EMUm_Z. -/
  | emu (channel : Fin 2) (line : Fin 3)
  /-- AUX_AH to AUX_DH where high, AUX_AL to AUX_DL otherwise. -/
  | aux (half : Fin 4) (high : Bool)
  | testPulse (k : Fin 4)
  | safeOut (k : Fin 4)
  | canTx (ctl : Fin 4)
  /-- HLn_TXP and HLn_TXN. -/
  | halyard (port : Fin 2) (positive : Bool)
  /-- The twelve balls of XS0 or XS1 in the order of Table 20.10: CLK, DQS, D0 to D7, CS0_N, CS1_N. -/
  | store (device : Fin 2) (line : Fin 12)
  | hspiSdo
  | hostAttn
  | tdo
  | tmOut (k : Fin 2)
  | pmicEn
  /-- An_USN to An_WSN, and An_UFLT_N to An_WFLT_N. -/
  | senseIn (axis : Fin 4) (leg : Fin 3)
  | faultIn (axis : Fin 4) (leg : Fin 3)
  | sdData (channel : Fin 16)
  /-- POSn_A, POSn_B and POSn_Z. -/
  | posIn (ifc : Fin 4) (line : Fin 3)
  | posData (ifc : Fin 4)
  | refSwitch (k : Fin 4)
  /-- STO_A_N, or STO_B_N where second. -/
  | stoIn (second : Bool)
  | safeIn (k : Fin 16)
  | safeBack (k : Fin 4)
  | canRx (ctl : Fin 4)
  /-- HLn_RXP and HLn_RXN. -/
  | halyardRx (port : Fin 2) (positive : Bool)
  /-- HSPI_SCK, HSPI_SDI, HSPI_CS_N. -/
  | hspiIn (line : Fin 3)
  /-- TCK, TMS, TDI, TRST_N. -/
  | debugIn (line : Fin 4)
  | porst
  | early
  | tmIn (k : Fin 2)
  | enclosure (k : Fin 2)
  | wakeIn
  deriving DecidableEq, Repr

/-- An internal pull. -/
inductive Pull where
  | free | up | down
  deriving DecidableEq, Repr

/-- What a ball shows: high-impedance with a pull, a level that the device drives, or a signal whose course within the present state is not
held in the state (a CAN frame, a Halyard symbol, a serial clock). -/
inductive BallState where
  | released (pull : Pull)
  | low
  | high
  | active
  deriving DecidableEq, Repr

def level (on : Bool) : BallState := if on then .high else .low

/-! ## The tables -/

/-- The ball of a signal (Table 20.1). -/
def Signal.ball : Signal → Nat
  | .gate n leg high => Machine.ball (legRow n.val leg.val) (if high then 1 else 2)
  | .disch => Machine.ball 16 2
  | .gdBoost => Machine.ball 16 4
  | .exc k => Machine.ball 2 (11 + k.val)
  | .sdClock m => Machine.ball 3 (18 + m.val)
  | .posClock i => Machine.ball (4 + i.val) 21
  | .emu m l => (ballsEmu m.val).getD l.val 0
  | .aux h high => Machine.ball (15 + h.val) (if high then 19 else 20)
  | .testPulse k => ballTp k.val
  | .safeOut k => ballSo k.val
  | .canTx n => Machine.ball 19 (13 + 2 * n.val)
  | .halyard p pos => Machine.ball 19 (1 + 4 * p.val + ofFlag (!pos))
  | .store d l => Machine.ball (21 - d.val) (1 + l.val)
  | .hspiSdo => Machine.ball 20 15
  | .hostAttn => Machine.ball 20 17
  | .tdo => Machine.ball 20 21
  | .tmOut k => Machine.ball 21 (13 + 2 * k.val)
  | .pmicEn => Machine.ball 21 20
  | .senseIn n leg => Machine.ball (legRow n.val leg.val) 3
  | .faultIn n leg => Machine.ball (legRow n.val leg.val) 4
  | .sdData c => Machine.ball 3 (2 + c.val)
  | .posIn i l => Machine.ball (4 + i.val) (18 + l.val)
  | .posData i => Machine.ball (4 + i.val) 22
  | .refSwitch k => Machine.ball 8 (18 + k.val)
  | .stoIn second => Machine.ball 10 (if second then 21 else 19)
  | .safeIn k => Machine.ball (11 + k.val / 4) (18 + k.val % 4)
  | .safeBack k => Machine.ball (15 + k.val) 22
  | .canRx n => Machine.ball 19 (14 + 2 * n.val)
  | .halyardRx p pos => Machine.ball 19 (3 + 4 * p.val + ofFlag (!pos))
  | .hspiIn l => Machine.ball 20 (if l.val = 2 then 16 else 13 + l.val)
  | .debugIn l => Machine.ball 20 (if l.val = 3 then 22 else 18 + l.val)
  | .porst => Machine.ball 19 21
  | .early => Machine.ball 19 22
  | .tmIn k => Machine.ball 21 (14 + 2 * k.val)
  | .enclosure k => Machine.ball 21 (17 + k.val)
  | .wakeIn => Machine.ball 21 19

/-- The bank of a signal as a supply of `supplied`; none for the VBAT bank (Table 20.3). -/
def Signal.bank : Signal → Option Nat
  | .gate n _ _ => some (gateBank n)
  | .disch | .gdBoost => some 4
  | .exc _ => some 1
  | .sdClock _ | .posClock _ | .emu 0 _ => some 5
  | .emu _ _ | .aux _ _ | .testPulse _ | .safeOut _ => some 6
  | .store _ _ => some 7
  | .canTx _ | .hspiSdo | .hostAttn | .tdo => some 8
  | .halyard _ _ => some 2
  | .tmOut _ | .pmicEn | .tmIn _ | .enclosure _ | .wakeIn => none
  | .senseIn n _ | .faultIn n _ => some (gateBank n)
  | .sdData _ | .posIn _ _ | .posData _ | .refSwitch _ => some 5
  | .stoIn _ | .safeIn _ | .safeBack _ => some 6
  | .canRx _ | .hspiIn _ | .debugIn _ | .porst | .early => some 8
  | .halyardRx _ _ => some 2

/-- The unit that a signal belongs to and that a variant can lack (Tables 20.4 to 20.10, R555). EMU1 stays on the balls that it shares
with the auxiliary channel. -/
def Signal.unit : Signal → Option Nat
  | .gate n _ _ => some n.val
  | .exc k => some (18 + k.val)
  | .aux _ _ => some 17
  | .testPulse _ => some 16
  | .canTx n => some (8 + n.val)
  | .halyard p _ | .halyardRx p _ => some (14 + p.val)
  | .senseIn n _ | .faultIn n _ => some n.val
  | .safeIn _ => some 16
  | .canRx n => some (8 + n.val)
  | _ => none

/-- The main gate outputs and the auxiliary outputs have passive pull-downs, which need no supply (R53, R551). EMU1 lies on balls of
the latter. -/
def Signal.passive : Signal → Bool
  | .gate _ _ _ | .aux _ _ => true
  | .emu m _ => m != 0
  | _ => false

/-- The pull of the reset state, while the bank is in range (Tables 20.4 to 20.11). -/
def Signal.resetPull : Signal → Pull
  | .gate _ _ _ | .disch | .gdBoost | .sdClock _ | .emu _ _ | .aux _ _ | .testPulse _ | .safeOut _ => .down
  | .posClock _ | .canTx _ | .pmicEn => .up
  | .store _ l => if 10 ≤ l.val then .up else .down
  | .exc _ | .halyard _ _ | .halyardRx _ _ | .hspiSdo | .hostAttn | .tdo | .tmOut _ => .free
  | .senseIn _ _ | .faultIn _ _ | .sdData _ | .posIn _ _ | .refSwitch _ | .stoIn _ | .safeIn _ | .safeBack _ | .porst | .tmIn _ | .enclosure _ => .down
  | .posData _ | .canRx _ | .early | .wakeIn => .up
  | .hspiIn l => if l.val = 2 then .up else .down
  | .debugIn l => if l.val = 1 || l.val = 2 then .up else .down

/-! ## What the owners drive -/

/-- The interface that drives an emulation channel. -/
def emuSource (s : State) (m : Fin 2) : Option (Fin 4) :=
  allAxes.find? fun i => cfgHas s secPosition i.val && cfgU s secPosition i.val 0 1 != 0 && cfgU s secPosition i.val 96 1 == m.val

/-- A line of an emulation channel (R264): A leads B as the output counts up; where the four quadrature states lie against the count is
not stated. DESIGN CHOICE (log entry 197). -/
def emuLevel (p : PosIfc) (line : Fin 3) : Bool :=
  let q := p.emuOut.emod 4
  match line with
  | 0 => q == 1 || q == 2
  | 1 => q == 2 || q == 3
  | _ => p.emuZ == some p.emuOut

/-- The level that the owner of a signal drives, once it is configured; none while it is not, in which the ball keeps its reset state
(R550). The device drives no input. -/
def ownerDrives (s : State) : Signal → Option BallState
  | .gate n leg high =>
    if axEnabled s n && cfgHas s secPwm n.val then
      let g := (s.axis n).pwm.gates[leg.val]
      some (level (if high then g.high else g.low))
    else none
  | .disch => if bitAt (cfgU s secSafety 0 0 1) 0 then some (level s.disch.ball) else none
  | .gdBoost => if s.cfg.active.isSome then some (level (anyAxis s fun n => (s.axis n).th.boost)) else none
  | .exc k => if (excUser s k.val).isSome && decide (0x0E ≤ s.boot.phase) then some .active else none
  | .sdClock m => if cfgU s secConverters 0 (16 + 8 * m.val) 1 = 2 then some .active else none
  | .posClock i => if posMode s i = 3 then some (if (s.ifc i).frameBusy then .active else .high) else none
  | .emu m l => (emuSource s m).map fun i => level (emuLevel (s.ifc i) l)
  | .aux h high =>
    if auxMode s = 0 || (auxMode s = 2 && 2 ≤ h.val) then none else some (level (auxLevel s h high))
  | .testPulse k => if bitAt (cfgU s secSafeIn 0 0 1) k.val then some (level !(match s.si.tpAt with
      | some t => s.si.tp == k.val && decide (s.clk.now < t + ticksOf (cfgF s secSafeIn 0 4))
      | none => false)) else none
  | .safeOut k => if soUse s k.val = 0 then none else some (level (s.so.on[k.val] && !s.so.pulsing[k.val]))
  | .canTx n =>
    if cfgHas s secCan n.val then
      some (if canTalks s n && (s.canCtl n).link == .online && !(s.canCtl n).busOff && !canFlag s n 4 then .active else .high)
    else none
  | .halyard p _ => if cfgRing s && s.boot.step14 && !bitAt s.clk.lost 6 && unitPresent s (14 + p.val) then some .active else none
  | .store d _ => if d.val = 0 || cfgU s secLog 0 0 1 = 1 then (if hardwareUp s then some .active else none) else none
  | .hspiSdo => none
  | .hostAttn => if attnLow s then some .low else none
  | .tdo => if s.sec.debugOpen then some .active else none
  | .tmOut _ => some .active
  | .pmicEn => some (level s.power.pmicEn)
  | _ => none

/-- Main power is present: no monitored supply is absent, and the card's supplies are not switched off (R552). -/
def mainPower (s : State) : Bool := s.power.absent == 0 && (s.mode != .sleep || s.power.pmicEn)

/-- The hold of R54 is in force at a ball: the drivers are not released, in the VBAT bank only while main power is present (R552). -/
def ballHeld (s : State) (x : Signal) : Bool :=
  let released := s.power.seated && !s.power.earlyHigh
  match x.bank with
  | none => mainPower s && !released
  | some _ => !released

/-- A tack has changed the owner or the SELECT of a ball: it stands in its reset state for 1 µs after Ts (R559). -/
def ballMoves (s : State) (x : Signal) : Bool :=
  s.cfg.movedBalls.contains x.ball && decide (s.clk.now < s.cfg.movedAt + 100)

/-- What a ball shows for a signal (R4, R54, R550 to R552, R555, R559). The balls of an absent unit are high-impedance with pull-downs; without
its bank supply a ball is high-impedance, and only passive pulls are left; while the drivers are held, or the owner is not configured or
has not yet taken the ball, it stands in its reset state. HSPI_SDO is driven within a frame alone, which begins and ends in one
command (R58). -/
def ballState (s : State) (x : Signal) : BallState :=
  let supply := match x.bank with | some b => supplied s b | none => true
  let absent := match x.unit with | some u => !unitPresent s u | none => false
  if !supply then .released (if x.passive then .down else .free)
  else if absent then .released .down
  else if ballHeld s x || ballMoves s x then .released x.resetPull
  else (ownerDrives s x).getD (.released x.resetPull)

/-- What an open ball reads as: the driven level, or its pull; none where nothing sets a level that the state holds. -/
def ballReads (s : State) (x : Signal) : Option Bool :=
  match ballState s x with
  | .high => some true
  | .low => some false
  | .active => none
  | .released .up => some true
  | .released .down => some false
  | .released .free => none

end Sys2Proof.Machine
end

