-- ==== Sys2Proof/WellFormed.lean ====
section
/-! DEFINITION. The operands that a sender can form: numbers within the fields that carry them (Tables 3.11, 3.12, 11.6, 14.8, 17.4,
18.2, and the lists of slots, sources and units). A command outside these is one that no sender sends; the meanings are total on it. -/
namespace Sys2Proof

def Instr.wellFormed : Instr → Bool
  | .supplyBelowReset supply volts => decide (supply ≤ 8) && decide (0 ≤ volts)
  | .supplyOutOfRange supply volts => decide (supply ≤ 8) && decide (0 ≤ volts)
  | .handover _ cmps dsfs flts => decide (cmps < 2 ^ 24) && decide (dsfs < 2 ^ 16) && decide (flts < 8)
  | .carrierReload _ _ cmps dsfs => decide (cmps < 2 ^ 24) && decide (dsfs < 2 ^ 16)
  | .shadowWrite _ _ value => decide (value < 2 ^ 23)
  | .safepatWrite _ pattern => decide (pattern < 4)
  | .firmwareTripRequest _ cause => decide (cause < 2 ^ 16)
  | .injectedTrigger code => decide (code < 256)
  | .sarResult _ code _ => decide (code < 2 ^ 16)
  | .lowSidePair _ codeU codeV => decide (codeU < 2 ^ 16) && decide (codeV < 2 ^ 16)
  | .coreMismatch _ cycle => decide (cycle.parity < 16)
  | .delayParity _ cycle => decide (cycle.parity < 16)
  | .comparatorDisagree _ cycle => decide (cycle.parity < 16)
  | .engineSelftestCheck bad => decide (bad < 16)
  | .contextOverrun _ ctx => decide (ctx < 128)
  | .fabricStarved requester _ => decide (requester ≤ 12)
  | .fabricAccessFault requester address => decide (requester ≤ 12) && decide (address < 2 ^ 32)
  | .registerWrite opcode address _ => decide (opcode < 256) && decide (address < 2 ^ 16)
  | .mailboxWrite address _ => decide (address < 2 ^ 16)
  | .doorbellRing mask => decide (mask < 2 ^ 32)
  | .doneClear mask => decide (mask < 2 ^ 32)
  | .faultsumClear mask _ => decide (mask < 2 ^ 32)
  | .doorbellOutClear mask _ => decide (mask < 2 ^ 32)
  | .sysStatus slot => decide (slot ≤ 24)
  | .sysVersion slot => decide (slot ≤ 24)
  | .sysReset slot => decide (slot ≤ 24)
  | .sysServiceEnter slot => decide (slot ≤ 24)
  | .sysServiceExit slot => decide (slot ≤ 24)
  | .sysBindOff slot => decide (slot ≤ 24)
  | .sysTime slot => decide (slot ≤ 24)
  | .sysEvents slot => decide (slot ≤ 24)
  | .sysHeartbeat slot => decide (slot ≤ 24)
  | .cfgWriteBegin slot => decide (slot ≤ 24)
  | .cfgWriteData slot => decide (slot ≤ 24)
  | .cfgWriteEnd slot => decide (slot ≤ 24)
  | .cfgDigest slot => decide (slot ≤ 24)
  | .cfgStage slot => decide (slot ≤ 24)
  | .cfgTack slot => decide (slot ≤ 24)
  | .cfgDiscard slot => decide (slot ≤ 24)
  | .axisStart slot => decide (slot ≤ 24)
  | .axisStopRamp slot => decide (slot ≤ 24)
  | .axisStopSs1 slot => decide (slot ≤ 24)
  | .axisTorque slot => decide (slot ≤ 24)
  | .axisSpeed slot => decide (slot ≤ 24)
  | .axisMove slot => decide (slot ≤ 24)
  | .axisResume slot => decide (slot ≤ 24)
  | .axisStatus slot => decide (slot ≤ 24)
  | .axisReference slot => decide (slot ≤ 24)
  | .auxMove slot _ => decide (slot ≤ 24)
  | .auxStop slot => decide (slot ≤ 24)
  | .auxResume slot _ => decide (slot ≤ 24)
  | .auxStatus slot => decide (slot ≤ 24)
  | .safeClear slot => decide (slot ≤ 24)
  | .safeClearTrip slot clocksGood suppliesGood => decide (slot ≤ 24) && decide (clocksGood < 1024) && decide (suppliesGood < 512)
  | .safeStatus slot => decide (slot ≤ 24)
  | .safeInputs slot => decide (slot ≤ 24)
  | .safeRestart slot => decide (slot ≤ 24)
  | .safeDischargeResistor slot => decide (slot ≤ 24)
  | .safeDischargeWindings slot => decide (slot ≤ 24)
  | .logInfo slot => decide (slot ≤ 24)
  | .logRead slot => decide (slot ≤ 24)
  | .logExported slot => decide (slot ≤ 24)
  | .logCheckpoint slot => decide (slot ≤ 24)
  | .logCounters slot => decide (slot ≤ 24)
  | .canStatus slot => decide (slot ≤ 24)
  | .canRecover slot => decide (slot ≤ 24)
  | .canSelftestInternal slot _ => decide (slot ≤ 24)
  | .canSelftestExternal slot _ => decide (slot ≤ 24)
  | .linkStatus slot => decide (slot ≤ 24)
  | .linkJoin slot => decide (slot ≤ 24)
  | .linkLeave slot => decide (slot ≤ 24)
  | .diagSelftest slot => decide (slot ≤ 24)
  | .diagMapRead slot => decide (slot ≤ 24)
  | .diagMapWrite slot => decide (slot ≤ 24)
  | .diagCapture slot => decide (slot ≤ 24)
  | .diagPairBSplit slot load => decide (slot ≤ 24) && decide (load < 2 ^ 32)
  | .diagPairBRejoin slot => decide (slot ≤ 24)
  | .secChallenge slot => decide (slot ≤ 24)
  | .secUnlock slot => decide (slot ≤ 24)
  | .secClearLock slot => decide (slot ≤ 24)
  | .secCert slot => decide (slot ≤ 24)
  | .secStatus slot => decide (slot ≤ 24)
  | .sysLoaderBegin slot => decide (slot ≤ 24)
  | .sysLoaderData slot => decide (slot ≤ 24)
  | .sysLoaderEnd slot => decide (slot ≤ 24)
  | .canRxFrame _ frame _ => decide (frame.ident < 2 ^ 29) && decide (frame.format ≤ 2) && decide (frame.data.length ≤ 2048)
  | .txreq _ w => decide (w.buf < 256) && decide (w.clear < 2 ^ 32)
  | .cancelReq _ w _ => decide (w.buf < 256) && decide (w.clear < 2 ^ 32)
  | .rxLock _ w _ => decide (w.buf < 256) && decide (w.clear < 2 ^ 32)
  | .canTxComplete _ buf _ _ => decide (buf < 257)
  | .canBusError _ _ _ kind buf => decide (kind ≤ 7) && decide (buf < 257)
  | .txExpired _ buf _ => decide (buf < 257)
  | .e2eTimeout _ buf => decide (buf < 256)
  | .linkDown _ reach => decide (reach < 256)
  | .tripOrderedSet _ source mask => decide (source < 8) && decide (mask < 16)
  | .sync _ head _ => decide (head.src < 8) && decide (head.hops < 8)
  | .delayReq _ head => decide (head.src < 8) && decide (head.hops < 8)
  | .delayRsp _ head _ => decide (head.src < 8) && decide (head.hops < 8)
  | .digest _ head generation dg _ => decide (head.src < 8) && decide (head.hops < 8) && decide (generation < 2 ^ 32) && decide (dg.length = 32)
  | .share _ head _ => decide (head.src < 8) && decide (head.hops < 8)
  | .tackPrepare _ head generation dg => decide (head.src < 8) && decide (head.hops < 8) && decide (generation < 2 ^ 32) && decide (dg.length = 32)
  | .tackAck _ head reason => decide (head.src < 8) && decide (head.hops < 8) && decide (reason < 256)
  | .tackCommit _ head _ => decide (head.src < 8) && decide (head.hops < 8)
  | .tackAbort _ head => decide (head.src < 8) && decide (head.hops < 8)
  | .elect _ head priority uid _ => decide (head.src < 8) && decide (head.hops < 8) && decide (priority < 256) && decide (uid < 2 ^ 64)
  | .join _ head uid => decide (head.src < 8) && decide (head.hops < 8) && decide (uid < 2 ^ 64)
  | .leave _ head => decide (head.src < 8) && decide (head.hops < 8)
  | .serviceFrame _ head _ => decide (head.src < 8) && decide (head.hops < 8)
  | .debugHalt _ load => decide (load < 2 ^ 32)
  | .longCommandComplete slot => decide (slot ≤ 24)
  | .porstNRelease => true
  | .porstNLow => true
  | .vbatLow volts => decide (0 ≤ volts)
  | .xinStartFail => true
  | .castOnStepDone _ => true
  | .castOnDone => true
  | .earlyNQualified => true
  | .earlyRemoval => true
  | .stoEngaged _ _ => true
  | .stoReleased _ => true
  | .stoDiscrepancy => true
  | .driverFault _ _ => true
  | .cmpTrip _ _ => true
  | .dsfTrip _ _ => true
  | .pwmClockLoss => true
  | .clockLoss _ => true
  | .livenessLoss => true
  | .pwmWatchdog _ => true
  | .commit _ _ => true
  | .shadowDone _ => true
  | .edgeRecord _ _ _ toggles => decide (toggles.Pairwise (· < ·))
  | .deltaSigmaEvaluation _ _ _ => true
  | .dsModulatorFault _ _ _ => true
  | .currentLoopDispatch _ => true
  | .sampleMissing _ => true
  | .currentZeroCalibration _ _ => true
  | .plausibilityEvaluation => true
  | .quadratureEdge _ _ _ _ _ => true
  | .index _ _ _ => true
  | .refswLatch _ _ _ => true
  | .serialFrame _ _ => true
  | .positionContextDispatch _ => true
  | .positionSnapshot _ => true
  | .sourceDisagree _ => true
  | .monitorRun _ => true
  | .observerDispatch _ => true
  | .observerRecaptureFailed _ => true
  | .trackingRun _ => true
  | .catchStep _ => true
  | .standstillIdentification _ _ _ => true
  | .settleAndRelease _ => true
  | .catchTimeout _ => true
  | .axisStartResponse _ => true
  | .safeStateRun _ => true
  | .ss1EnvelopeCheck _ => true
  | .stopDeadlineMissed _ => true
  | .slsExceeded _ => true
  | .brakeReleaseTime _ => true
  | .brakeEngageTime _ => true
  | .backstayEvaluation => true
  | .backstayGateRelease _ => true
  | .backstayPattern _ balls => decide (balls < 64)
  | .windowFrame _ => true
  | .backstayFeedLost => true
  | .dischargeDone => true
  | .dischargeTimeout => true
  | .thermalStep _ _ => true
  | .sensorRestored _ _ => true
  | .reefEvaluation _ => true
  | .profileDispatch _ => true
  | .moveDone _ => true
  | .chopperCrossing _ volts => decide (0 ≤ volts)
  | .auxOpenLoad _ => true
  | .auxMicrostep => true
  | .holdDelay => true
  | .idleOff => true
  | .auxParkIncomplete => true
  | .captureFrozen _ => true
  | .runInjection reports => decide (reports.length = 4)
  | .registerSignature _ => true
  | .regsigLate _ => true
  | .pairBSplit => true
  | .pairBRejoined => true
  | .dbgSplit _ => true
  | .eccUncorrectable _ _ _ _ => true
  | .scrubPass _ _ => true
  | .contextMigrated _ => true
  | .tackSwap => true
  | .twinCopyDone => true
  | .hostHeartbeatLost => true
  | .segmentTimeout => true
  | .rateLimitWindowEnd _ _ => true
  | .resetFollows => true
  | .bindOffDone => true
  | .wake _ => true
  | .wakeLatchedReassert => true
  | .canRecovered _ => true
  | .linkUp _ => true
  | .shareStale => true
  | .ringTackTimeout => true
  | .followerTackDrop => true
  | .safeInputSample a b => decide (a < 2 ^ 16) && decide (b < 2 ^ 16)
  | .siDiscrepancy _ _ => true
  | .testPulse _ _ => true
  | .twoHandSync _ => true
  | .safeInCrossCheck _ => true
  | .soPulse _ _ => true
  | .soReadbackFail _ _ => true
  | .logFlush erase program => decide (0 ≤ erase) && decide (0 ≤ program)
  | .logStall => true
  | .checkpointSigned => true
  | .countersRecord => true
  | .exportTimeout => true
  | .tamperMesh _ _ => true
  | .tamperLight => true
  | .tamperEnclosure _ _ => true
  | .tamperTemperature _ => true
  | .tamperGlitch _ => true
  | .glitchReset => true
  | .pllLockTimeout => true
  | .stoQualifying _ => true
  | .faultNHigh _ _ => true
  | .linkTraining _ => true
  | .busIntegration _ => true
  | .reservationNotStarted _ => true
  | .rejoinPartL _ => true
  | .debugRelease _ => true
  | .blankEnd _ volts => decide (0 ≤ volts)
  | .toffEnd _ => true
  | .auxRunTimeEnd => true
  | .tPullElapsed _ => true
  | .x32CrystalSwitch => true
  | .vbatLoss => true
  | .lifecycleFuseWrite _ => true

end Sys2Proof
end

