-- ==== Sys2Proof/Tests/Slice0.lean ====
section
/-! SUPPORT. The model's own tests: states that meet the hypotheses of the statements, clause by clause, with the outcome of one step on
them where it is short; the checks of WellFormed; worked values of the spec's tables. -/
set_option Elab.async false

namespace Sys2Proof.Tests
open Sys2Proof Sys2Proof.Machine

/-! ## Small states -/

/-- A device in IDLE with its log running and nothing configured. -/
def up : State := { State.reset with
  mode := .idle
  power := { State.reset.power with inReset := false, porstHigh := true, seated := true, earlyHigh := false }
  clk := { State.reset.clk with driveRuns := true, monitorsArmed := true, now := 5000000, drive := 4000000 }
  boot := { State.reset.boot with phase := 15, windowOpen := true, step14 := true }
  log := { State.reset.log with resumed := true } }

/-- A device at a step of cast-on. -/
def casting (phase : Nat) : State := { up with mode := .boot, boot := { up.boot with phase := phase, step14 := false } }

/-- The findings of a cast-on without a fault. -/
def allGood : CastOnFindings :=
  { memoryBist := true, logicBist := true, partL := none, partT := 0, badConverters := 0, speeds := Vector.replicate 4 0, quadLevels := 0, siLevels := 0
    badInputs := 0, badUnits := 0 }

/-- A request in slot MB8 that waits to start, and a state with it. -/
def job (code : Nat) (payload : List Byte) : Job :=
  { slot := 8, proto := 2, code := code, seq := 1, tag := 1, flags := 0, crc := 0, payload := payload, started := false, since := 0 }
def withJob (s : State) (code : Nat) (payload : List Byte) : State := { s with host := { s.host with jobs := [job code payload] } }

/-- A body of zeros with bytes laid over it, an image of sections, and a state that runs from it. -/
def body (len : Nat) (parts : List (Nat × List Byte)) : List Byte := parts.foldl (fun b p => overlay b p.1 p.2) (List.replicate len 0)
def section_ (id inst : Nat) (b : List Byte) : List Byte := [BitVec.ofNat 8 id, BitVec.ofNat 8 inst, 0, 0] ++ leBytes 4 (8 + b.length) ++ b
def image (sections : List (List Byte)) : List Byte :=
  let all := sections.flatten
  List.replicate 12 0 ++ leBytes 4 (128 + all.length) ++ List.replicate 48 0 ++ all ++ List.replicate 64 0
def running (s : State) (sections : List (List Byte)) : State := { s with cfg := { s.cfg with active := some (image sections) } }
/-- SYSTEM with axis AX0 enabled. -/
def sysOne : List Byte := section_ 1 0 (body 16 [(4, [1])])

/-- A CONTEXTS section with up to four contexts of the given kinds and instances, and a state whose engine 0 holds them. -/
def ctxs (l : List (Byte × Byte)) : List Byte := section_ 0x32 0 (body 2096 (l.mapIdx fun k c => (48 + 16 * k, [c.1, c.2])))
def onEngine (s : State) : State := { s with rig := { s.rig with engines := s.rig.engines.set 0 { s.rig.engines[0] with ctx := [0, 1, 2, 3] } } }

/-- The command answers a next state of which the condition holds. -/
def after (c : Instr) (s : State) (p : State → Bool) : Bool := match exec c s with | .next t => p t | _ => false
/-- The status bytes of the response in slot MB8, 0xFFFF where none is there. -/
def answer8 (s : State) : Nat := if bitAt s.host.done 8 then fieldU (cellsRead s.host.ram 0x2000 16) 6 2 else 0xFFFF
/-- The payload of that response. -/
def answerBytes8 (s : State) (n : Nat) : List Byte := cellsRead s.host.ram (0x2000 + 12) n

/-! ## Reset, cast-on, supplies, service -/

theorem test_porstNRelease : after .porstNRelease State.reset (fun t => t.boot.phase == 1 && !t.power.inReset && t.clk.drive == 0 && t.mode == .boot) = true := by decide +kernel
theorem test_porstNLow : (up.power.porstHigh && up.mode != .sleep) = true ∧ after .porstNLow up (fun t => t.power.inReset && t.power.nextCause == 4) = true := by decide +kernel
theorem test_supplyBelowReset : after (.supplyBelowReset 8 (3 / 2)) up (fun t => t.power.inReset && t.power.supplyHold && !t.power.cleanShutdown) = true := by decide +kernel
theorem test_resetFollows : after .resetFollows { up with power := { up.power with resetDue := some 3 } } (fun t => t.boot.wakeCause == 3 && t.boot.phase == 1) = true := by decide +kernel
theorem test_castOn_clocks : castOnRuns (casting 3) = true ∧ after (.castOnStepDone allGood) (casting 3) (fun t => t.boot.phase == 4 && t.clk.driveRuns) = true := by decide +kernel
theorem test_castOn_bistFail : castOnRuns (casting 5) = true ∧ after (.castOnStepDone { allGood with memoryBist := false }) (casting 5) (fun t => t.boot.halt && t.boot.haltCode == 0x0102) = true := by decide +kernel
theorem test_castOn_partL : after (.castOnStepDone { allGood with partL := some 5 }) (casting 7) (fun t => t.boot.phase == 8 && t.boot.testFailed) = true := by decide +kernel
theorem test_castOn_partT : after (.castOnStepDone { allGood with partT := 2 ^ 20 }) (casting 7) (fun t => t.boot.phase == 8 && t.boot.testFailed) = true := by decide +kernel
theorem test_castOn_noFirmware : castOnRuns (casting 8) = true ∧ after (.castOnStepDone allGood) (casting 8) (fun t => t.boot.halt && t.boot.haltCode == 0x0104) = true := by decide +kernel
theorem test_castOn_noConfig : castOnRuns (casting 10) = true ∧ after (.castOnStepDone allGood) (casting 10) (fun t => t.boot.halt && t.boot.haltCode == 0x0106) = true := by decide +kernel
theorem test_castOn_noBank : castOnRuns (casting 12) = true ∧ after (.castOnStepDone allGood) (casting 12) (fun t => t.boot.halt && t.boot.haltCode == 0x0E01) = true := by decide +kernel
theorem test_castOn_units : castOnRuns (casting 13) = true ∧ after (.castOnStepDone allGood) (casting 13) (fun t => t.boot.phase == 14 && t.boot.firstSpeeds == some allGood.speeds) = true := by decide +kernel
theorem test_castOn_online : castOnRuns (casting 14) = true ∧ after (.castOnStepDone allGood) (casting 14) (fun t => t.boot.step14) = true := by decide +kernel
def atEnd : State := { casting 14 with boot := { (casting 14).boot with step14 := true } }
theorem test_castOnDone : castOnRuns atEnd = true ∧ after .castOnDone atEnd (fun t => t.mode == .idle && t.boot.phase == 15 && t.host.outSystem) = true := by decide +kernel
theorem test_xinStartFail : castOnRuns (casting 2) = true ∧ after .xinStartFail (casting 2) (fun t => t.boot.haltCode == 0x0105) = true := by decide +kernel
theorem test_pllLockTimeout : castOnRuns (casting 3) = true ∧ after .pllLockTimeout (casting 3) (fun t => t.boot.haltCode == 0x080B) = true := by decide +kernel
theorem test_earlyRemoval : up.power.earlyHigh = false ∧ after .earlyRemoval up (fun t => t.mode == .safe && (t.axis 3).core.st == .axisSafe) = true := by decide +kernel
theorem test_earlyNQualified : after .earlyNQualified State.reset (fun t => t.power.seated) = true := by decide +kernel
theorem test_clockLoss_pwm : bitAt up.clk.declared (domainNumber .pwm) = false ∧ after (.clockLoss .pwm) up (fun t => t.mode == .safe && t.host.clockLoss && !t.clk.driveRuns) = true := by decide +kernel
theorem test_clockLoss_xin : bitAt up.clk.declared (domainNumber .xin) = false ∧ after (.clockLoss .xin) up (fun t => t.mode == .safe) = true := by decide +kernel
theorem test_pwmClockLoss : after .pwmClockLoss up (fun t => bitAt t.clk.lost 2 && !t.clk.driveRuns) = true := by decide +kernel
theorem test_livenessLoss : (!up.back.livenessLost && !up.power.inReset && decide (3 ≤ up.boot.phase)) = true ∧ after .livenessLoss up (fun t => t.mode == .safe && bitAt (t.axis 0).trip.src 28) = true := by decide +kernel
theorem test_supplyOutOfRange : after (.supplyOutOfRange 0 (9 / 10)) up (fun t => t.mode == .safe && bitAt (t.axis 0).trip.src 21 && bitAt t.power.supplyBad 21) = true := by decide +kernel
theorem test_vbatLow : after (.vbatLow (16 / 10)) up (fun t => t.power.vbatLow && t.mode == .idle) = true := by decide +kernel
theorem test_sysReset : Ready (withJob up 0x0103 (leBytes 4 0xC0DE)) 8 0x0103 (job 0x0103 (leBytes 4 0xC0DE)) ∧
    after (.sysReset 8) (withJob up 0x0103 (leBytes 4 0xC0DE)) (fun t => t.power.resetDue == some 3 && answer8 t == 0) = true := by decide +kernel
def permitted : State := withJob { up with sec := { up.sec with permitUntil := some 6000000 }, sto := { up.sto with aLow := true, bLow := true } } 0x0104 [1]
theorem test_sysServiceEnter : Ready permitted 8 0x0104 (job 0x0104 [1]) ∧ permitted.cfg.tack = none ∧
    after (.sysServiceEnter 8) permitted (fun t => t.mode == .service && answer8 t == 0 && t.sec.permitUntil == none) = true := by decide +kernel
def inService : State := withJob { up with mode := .service } 0x0104 [0]
theorem test_sysServiceExit : Ready inService 8 0x0104 (job 0x0104 [0]) ∧ dbgSplit inService = false ∧
    after (.sysServiceExit 8) inService (fun t => t.mode == .idle && answer8 t == 0) = true := by decide +kernel
def splitService : State := { inService with lock := { inService.lock with pairBSplit := true } }
theorem test_sysServiceExit_split : Ready splitService 8 0x0104 (job 0x0104 [0]) ∧ after (.sysServiceExit 8) splitService (fun t => t.boot.phase == 1 && t.boot.wakeCause == 8) = true := by decide +kernel
theorem test_sysBindOff : Ready (withJob up 0x0105 []) 8 0x0105 (job 0x0105 []) ∧ anyRotating (withJob up 0x0105 []) = false ∧
    after (.sysBindOff 8) (withJob up 0x0105 []) (fun t => t.power.bindOff && answer8 t == 0) = true := by decide +kernel
def binding : State := { up with power := { up.power with bindOff := true } }
theorem test_bindOffDone : (binding.power.bindOff && !binding.aux.parking && binding.mode == .idle) = true := by decide +kernel
def asleep : State := { State.reset with mode := .sleep, power := { State.reset.power with wakeLatched := some 1, pmicEn := false } }
theorem test_wake_sleep : asleep.power.pmicEn = false ∧ after (.wake true) asleep (fun t => t.power.pmicEn && t.power.wakeCause == some 2) = true := by decide +kernel
theorem test_wake_bindOff : binding.power.wakeLatched = none ∧ after (.wake false) binding (fun t => t.power.wakeLatched == some 1) = true := by decide +kernel
theorem test_wakeLatchedReassert : after .wakeLatchedReassert asleep (fun t => t.power.pmicEn && t.power.wakeCause == some 5) = true := by decide +kernel
/-- The recovery loader serves MB0, an MBP-1 slot. -/
def romState (loading : Option Bool) (code : Nat) (payload : List Byte) : State := { casting 8 with
  boot := { (casting 8).boot with halt := true, haltCode := 0x0104 }
  fw := { up.fw with loadSlot := loading, loadSize := 192 }
  host := { up.host with jobs := [{ job code payload with slot := 0, proto := 1 }] } }
def romJob (code : Nat) (payload : List Byte) : Job := { job code payload with slot := 0, proto := 1 }
def beginArgs : List Byte := [1, 0, 0, 0] ++ leBytes 4 192
theorem test_sysLoaderBegin : Ready (romState none 0x01F0 beginArgs) 0 0x01F0 (romJob 0x01F0 beginArgs) ∧
    after (.sysLoaderBegin 0) (romState none 0x01F0 beginArgs) (fun t => t.fw.loadSlot == some true && t.fw.loadSize == 192) = true := by decide +kernel
def dataArgs : List Byte := leBytes 4 2 ++ [7, 8]
theorem test_sysLoaderData : Ready (romState (some true) 0x01F1 dataArgs) 0 0x01F1 (romJob 0x01F1 dataArgs) ∧
    after (.sysLoaderData 0) (romState (some true) 0x01F1 dataArgs) (fun t => t.fw.slotB == [0xFF#8, 0xFF#8, 7, 8]) = true := by decide +kernel
theorem test_sysLoaderEnd : Ready (romState (some true) 0x01F2 [1]) 0 0x01F2 (romJob 0x01F2 [1]) ∧
    after (.sysLoaderEnd 0) (romState (some true) 0x01F2 [1]) (fun t => t.fw.invalidB && t.fw.loadSlot == none) = true := by decide +kernel


/-! ## Safe Torque Off, trips, the PWM generator -/

theorem test_stoEngaged_off : up.sto.aLow = false ∧ after (.stoEngaged .chA 40) up (fun t => t.sto.aLow && t.mode == .idle && !t.so.on[0] && (t.axis 0).trip.src == 0) = true := by decide +kernel
/-- An axis in RUN_TORQUE. -/
def turning : State := { up.setAxis 0 (fun a => { a with core := { a.core with st := .runTorque } }) with mode := .run }
theorem test_stoEngaged_run : (axPresent turning 0 && (turning.axis 0).core.st != .off && !turning.sto.aLow) = true ∧
    after (.stoEngaged .chA 40) turning (fun t => t.mode == .safe && bitAt (t.axis 2).trip.src 31 && (t.axis 0).core.sub == .freewheel) = true := by decide +kernel
theorem test_stoEngaged_int : up.sto.intSet = false ∧ after (.stoEngaged .internal 0) turning (fun t => t.mode == .safe && bitAt (t.axis 1).trip.src 29) = true := by decide +kernel
theorem test_stoEngaged_glitch : after (.stoEngaged .chA 19) turning (fun t => t.mode == .run && t.sto.aGlitch == 1 && !t.sto.aLow) = true := by decide +kernel
theorem test_stoEngaged_B : turning.sto.bLow = false ∧ after (.stoEngaged .chB 50) turning (fun t => bitAt (t.axis 1).trip.src 30) = true := by decide +kernel
def stoA : State := { up with sto := { up.sto with aLow := true, aQual := false } }
theorem test_stoQualifying : stoA.sto.aLow = true ∧ outputsUp stoA = true ∧ after (.stoQualifying .chA) stoA (fun t => !t.sto.aLow && t.so.on[0] && t.so.on[1]) = true := by decide +kernel
theorem test_stoQualifying_waits : after (.stoQualifying .chA) { stoA with so := { stoA.so with fb := stoA.so.fb.set 0 true } } (fun t => t.sto.gdenWaits && !t.so.on[0]) = true := by decide +kernel
theorem test_stoQualifying_other : after (.stoQualifying .chA) { stoA with sto := { stoA.sto with bLow := true } } (fun t => !t.so.on[0]) = true := by decide +kernel
theorem test_stoReleased_one : after (.stoReleased .chA) { up with sto := { up.sto with aQual := false, bQual := false } } (fun t => t.sto.aQual && !t.so.on[0]) = true := by decide +kernel
theorem test_stoReleased_both : after (.stoReleased .chB) { up with sto := { up.sto with bQual := false } } (fun t => t.sto.bQual && t.so.on[0]) = true := by decide +kernel
theorem test_stoDiscrepancy : stoA.sto.aLow ≠ stoA.sto.bLow ∧ after .stoDiscrepancy stoA (fun t => t.sto.discrepancy) = true ∧ stoA.sto.differAt + 1960000 ≤ stoA.clk.now ∧
    after .stoDiscrepancy { stoA with sto := { stoA.sto with differAt := 4000000 } } (fun t => !t.sto.discrepancy) = true ∧
    after (.stoReleased .chA) { up with sto := { up.sto with aQual := false, aHighAt := 4500001 } } (fun t => !t.sto.aQual) = true := by decide +kernel

/-- The low-side switch of leg V is on. -/
def lowOn : State := turning.setAxis 0 fun a => { a with pwm := { a.pwm with gates := vupd a.pwm.gates 1 fun g => { g with low := true } } }
theorem test_driverFault : axPresent lowOn 0 = true ∧ fltPresent lowOn 0 1 = true ∧
    after (.driverFault 0 1) lowOn (fun t => bitAt (t.axis 0).trip.src 17 && (t.axis 0).trip.side[1] == 2 && (t.axis 0).core.st == .axisSafe) = true := by decide +kernel
def unwired : State := running up [sysOne, section_ 0x11 0 (body 160 [])]
theorem test_driverFault_unused : fltPresent unwired 0 1 = false ∧ after (.driverFault 0 1) unwired (fun t => (t.axis 0).trip.src == 0 && (t.axis 0).trip.fltLow == 2) = true := by decide +kernel
def faulted : State := up.setAxis 0 fun a => { a with trip := { a.trip with src := 2 ^ 17, fltLatch := 2, fltLow := 0 } }
theorem test_faultNHigh : after (.faultNHigh 0 1) (faulted.setAxis 0 fun a => { a with trip := { a.trip with fltLow := 2 } })
    (fun t => (t.axis 0).trip.fltLow == 0 && (t.axis 0).trip.src == 2 ^ 17) = true := by decide +kernel
theorem test_handover : (!bitAt faulted.clk.lost 2 && (faulted.axis 0).trip.src != 0 && bitAt (faulted.axis 0).trip.fltLatch 1 && !bitAt (faulted.axis 0).trip.fltHanded 1 && !bitAt (fltLowNow faulted 0) 1) = true ∧
    after (.handover 0 0 0 2) faulted (fun t => (t.axis 0).trip.fltLatch == 0 && bitAt (t.axis 0).trip.fltHanded 1 && (t.axis 0).trip.src == 2 ^ 17) = true := by decide +kernel

/-- AX0 with comparator 5 used under an action, targeting leg U, and fast flag 3 under the same. -/
def watched (action : Nat) : State := running turning [sysOne,
  section_ 0x11 0 (body 160 [(0, [0, 200, 1, 1]), (12, [0xFF]), (16, [5, BitVec.ofNat 8 (16 * action), 1]), (112, [3, BitVec.ofNat 8 (16 * action), 1])])]
theorem test_cmpTrip_uses : cmpUser (watched 2) 5 = some 0 ∧ cmpEntry (watched 2) 0 5 = some 16 ∧ cmpOutput (watched 2) 0 16 false 2 = true ∧
    cmpOutput (watched 2) 0 16 false (-1) = false ∧ blanked (watched 2) 0 16 = false ∧ dsfEntry (watched 2) 0 3 = some 112 := by decide +kernel
theorem test_cmpTrip_report : entryAction (watched 0) 0 16 = 0 ∧ after (.cmpTrip 5 2) (watched 0) (fun t => (t.axis 0).trip.src == 0 && bitAt (t.axis 0).trip.cmpAct 5) = true := by decide +kernel
theorem test_cmpTrip_cbc : entryAction (watched 1) 0 16 = 1 ∧ after (.cmpTrip 5 2) (watched 1) (fun t => (t.axis 0).pwm.block == #v[true, false, false] && (t.axis 0).trip.cbcTrips == 1) = true := by decide +kernel
theorem test_cmpTrip_latch : after (.cmpTrip 5 2) (watched 2) (fun t => bitAt (t.axis 0).trip.src 20 && bitAt (t.axis 0).trip.cmpLatch 5 && (t.axis 0).core.st == .axisSafe) = true := by decide +kernel
theorem test_cmpTrip_pattern : entryAction (watched 3) 0 16 = 3 ∧ after (.cmpTrip 5 2) (watched 3) (fun t => bitAt (t.axis 0).trip.src 20 && (t.axis 0).trip.cmpLatch == 0) = true := by decide +kernel
theorem test_cmpTrip_below : after (.cmpTrip 5 (-1)) (watched 2) (fun t => (t.axis 0).trip.src == 0) = true := by decide +kernel
/-- BLANKING of the entry is 1 µs, and the high-side switch of leg U has just turned on. -/
def justOn : State := (running turning [sysOne, section_ 0x11 0 (body 160 [(0, [0, 200, 1, 1]), (12, [0xFF]), (16, [5, 32, 1]), (24, [0xBD, 0x37, 0x86, 0x35]), (112, [0xFF])])]).setAxis 0
  fun a => { a with pwm := { a.pwm with gates := vupd a.pwm.gates 0 fun g => { g with onHigh := some (128 * 5000000) } } }
theorem test_cmpTrip_blanked : blanked justOn 0 16 = true ∧ cmpUser justOn 5 = some 0 ∧ after (.cmpTrip 5 2) justOn (fun t => (t.axis 0).trip.src == 0 && bitAt (t.axis 0).trip.cmpOut 5) = true := by decide +kernel
theorem test_dsfTrip_latch : cfgF (watched 2) secTrip 0 116 < 1 ∧ after (.dsfTrip 3 1) (watched 2) (fun t => bitAt (t.axis 0).trip.src 19 && bitAt (t.axis 0).trip.dsfLatch 3) = true := by decide +kernel
theorem test_dsfTrip_cbc : entryAction (watched 1) 0 112 = 1 ∧ entryAction (watched 0) 0 112 = 0 ∧ after (.dsfTrip 3 1) (watched 1) (fun t => (t.axis 0).pwm.blockedPeriod) = true := by decide +kernel
theorem test_dsfTrip_inside : after (.dsfTrip 3 0) (watched 2) (fun t => (t.axis 0).trip.src == 0 && (t.axis 0).trip.dsfAct == 0) = true := by decide +kernel

/-- AX0 with a centre-aligned carrier that reloads at the valley, watchdog limit 4 and no sense input. -/
def carried : State := (running up [sysOne, section_ 0x10 0 (body 80 [(1, [1]), (75, [4])])]).setAxis 0 fun a => { a with pwm := { a.pwm with
  running := true, pending := some { CompareSet.reset with period := 7 }, wdCount := 4 } }
theorem test_absentWrite : axPresent { up with sec := { up.sec with fuses := { up.sec.fuses with units := 1 } } } 3 = false ∧
    after (.commit 3 false) { up with sec := { up.sec with fuses := { up.sec.fuses with units := 1 } } } (fun t => t.rig.accessFaults == 1) = true := by decide +kernel
theorem test_shadowWrite : pwmDeaf up 1 = false ∧ after (.shadowWrite 1 (.cmpB 2) 900) up (fun t => (t.axis 1).pwm.shadow.cmpB == #v[0, 0, 900]) = true := by decide +kernel
def quiet : State := carried.setAxis 0 fun a => { a with pwm := { a.pwm with pending := none } }
theorem test_commit : axEnabled quiet 0 = true ∧ axGroup quiet 0 = 0 ∧ (quiet.axis 0).pwm.pending = none ∧
    after (.commit 0 false) quiet (fun t => (t.axis 0).pwm.pending == some CompareSet.reset && (t.axis 0).pwm.wdCount == 0) = true := by decide +kernel
theorem test_commit_late : after (.commit 0 true) carried (fun t => (t.axis 0).pwm.late == some CompareSet.reset && (t.axis 0).pwm.lateCommit == 1) = true := by decide +kernel
theorem test_carrierReload : reloadAt carried 0 false = true ∧ (carried.axis 0).pwm.running = true ∧ (carried.axis 0).pwm.late = none ∧ carried.cfg.lag = 0 ∧
    after (.carrierReload 0 false 0 0) carried (fun t => (t.axis 0).pwm.pending == none && (t.axis 0).pwm.carrier == 1) = true := by decide +kernel
theorem test_shadowDone : (carried.axis 0).pwm.commitHeld = false ∧ after (.shadowDone 0) carried (fun t => (t.axis 0).pwm.shadowDone) = true := by decide +kernel
theorem test_safepatWrite : pwmDeaf carried 0 = false ∧ axEnabled carried 0 = true ∧ after (.safepatWrite 0 2) carried (fun t => (t.axis 0).pwm.safepat == 2 && (t.axis 0).pwm.safeSeq == 1) = true := by decide +kernel
theorem test_pwmWatchdog : axLeader carried 0 = 0 ∧ wdLimit carried 0 ≤ (carried.axis 0).pwm.wdCount ∧ after (.pwmWatchdog 0) carried (fun t => bitAt (t.axis 0).trip.src 26) = true := by decide +kernel
theorem test_firmwareTrip : after (.firmwareTripRequest 0 0x0408) turning (fun t => (t.axis 0).trip.fwCauses == [0x0408] && (t.axis 0).core.st == .axisSafe) = true := by decide +kernel
/-- The window of a rising edge of leg V that is over, the sense input of the leg present, and a limit of one missing edge. -/
def window : EdgeWindow := { rising := true, tref := 0, stop := 100, short := false, stretched := false, moved := false, dropped := false, whole := false, width := 0, carrier := 0 }
def edged (sense : Byte) : State := { (running turning [sysOne, section_ 0x10 0 (body 80 [(1, [1]), (3, [sense]), (73, [1])])]).setAxis 0 fun a =>
    { a with pwm := { a.pwm with running := true, gates := vupd a.pwm.gates 1 fun g => { g with windows := [window] } } } with mode := .run }
theorem test_edgeRecord_none : axEnabled (edged 0) 0 = true ∧ sensePresent (edged 0) 0 1 = false ∧
    after (.edgeRecord 0 1 false []) (edged 0) (fun t => (t.axis 0).pwm.records.length == 1 && (t.axis 0).trip.src == 0) = true := by decide +kernel
theorem test_edgeRecord_missing : sensePresent (edged 2) 0 1 = true ∧ axSwitching (edged 2) 0 = true ∧ (recordOf (edged 2) 0 1 window false []).valid = false ∧ levelAt window false [] = false ∧
    after (.edgeRecord 0 1 false []) (edged 2) (fun t => (t.axis 0).pwm.legs[1].missH == 1 && bitAt (t.axis 0).trip.src 25) = true := by decide +kernel
theorem test_edgeRecord_found : after (.edgeRecord 0 1 false [60]) (edged 2) (fun t => (t.axis 0).pwm.legs[1].missH == 0 && ((t.axis 0).pwm.records.map fun r => (r.valid, r.err)) == [(true, 60)]) = true := by decide +kernel

/-! ## Converters, the current loop -/

/-- SAR slot 16 of ADC1 is claimed for trigger code 0x11, delta-sigma channel 4 for AX0. -/
def owning : List Byte := section_ 3 0 ([2, 0, 0, 0, 0, 0, 0, 0] ++ leBytes 4 (0x04000000 + 32 + 16) ++ [1, 0, 0, 0x11] ++ leBytes 4 0x05000004 ++ [1, 0, 0, 0])
/-- LIMIT fields of SENSE: MISS_LIMIT 2, OFFSET_MAX 10 A, currents on ADC0 with a gain of 100 A/V and zero 1.5 V; phase V by channel 4. -/
def sensed : List Byte := section_ 0x12 0 (body 120 [(0, [8, 2]), (12, f32Bytes 10), (28, f32Bytes (-1000)), (32, f32Bytes (3/2)), (36, [1, 0, 0, 0] ++ f32Bytes 100 ++ f32Bytes (3/2)),
  (48, [2, 4, 0, 0]), (72, [1, 0, 1, 0] ++ f32Bytes 100)])
/-- RUN_LIMIT of delta-sigma channel 4 is 3 bits. -/
def limited : List Byte := section_ 0x18 0 (body 176 [(85, [3])])
def adcs : State := { running up [sysOne, owning, sensed, limited] with sensing := { up.sensing with raised := [0x11] } }
theorem test_injectedTrigger : injectedSlots adcs 1 0x11 = [16] ∧ after (.injectedTrigger 0x11) (adcs.setConv 1 fun c => { c with regular := some 3 })
    (fun t => (t.conv 1).injected == [16] && (t.conv 1).requeue == [3] && (t.conv 1).aborts == 1 && t.sensing.raised == []) = true := by decide +kernel
def busyConv (held : Option Nat) : State := adcs.setConv 1 fun c => { c with injected := [16], heldCode := held }
theorem test_injectedTrigger_held : ((busyConv none).conv 1).injected ≠ [] ∧ after (.injectedTrigger 0x11) (busyConv none) (fun t => (t.conv 1).heldCode == some 0x11) = true ∧
    after (.injectedTrigger 0x11) (busyConv (some 0x11)) (fun t => (t.conv 1).injOverrun == 1) = true := by decide +kernel
theorem test_sarResult : adcLost adcs = false ∧ conversion (busyConv none) 1 false = some (16, 0) ∧ after (.sarResult 1 65535 false) (busyConv none) (fun t =>
    (t.conv 1).slots[16] == { code := 65535, ain := 0, valid := true, ovr := true, requeued := false, time := 3999981, before := none } && (t.conv 1).injected == []) = true := by decide +kernel
theorem test_sarResult_check : conversion adcs 7 true = some (10, 38) ∧ bitAt adcs.clk.lost 7 = false ∧ after (.sarResult 7 500 true) adcs (fun t => (t.conv 7).chkHi == 500) = true := by decide +kernel
/-- OSR of a channel without a section is 1: three bits are a window, and all of them 0 are minus full scale. -/
def dsAsked : State := adcs.setDs 4 fun d => { d with due := true }
theorem test_deltaSigma : dsClaimed dsAsked 4 = true ∧ dsOsr dsAsked 4 = 1 ∧ longestRun [false, false, false] ≤ dsRunLimit dsAsked 4 ∧ after (.deltaSigmaEvaluation 4 [false, false, false] true) dsAsked (fun t => (t.ds 4).value == -1 && (t.ds 4).ovr && !(t.ds 4).due) = true := by decide +kernel
theorem test_deltaSigma_last : after (.deltaSigmaEvaluation 4 [true, true, true] false) adcs (fun t => (t.ds 4).last == 1 && (t.ds 4).value == (adcs.ds 4).value) = true := by decide +kernel
theorem test_deltaSigma_stuck : dsRunLimit adcs 4 < longestRun [true, true, true, true] ∧
    after (.deltaSigmaEvaluation 4 [true, true, true, true] false) adcs (fun t => (t.ds 4).fault && (t.ds 4).failing && bitAt (t.axis 0).trip.src 21) = true := by decide +kernel
theorem test_dsModulatorFault : usesDs adcs 0 4 = true ∧ after (.dsModulatorFault none 4 true) adcs (fun t => (t.ds 4).fault && bitAt (t.axis 0).trip.src 21) = true := by decide +kernel
theorem test_dsModulatorGood : after (.dsModulatorFault none 4 false) (adcs.setDs 4 fun d => { d with fault := true, failing := true }) (fun t => (t.ds 4).fault && !(t.ds 4).failing && (t.ds 4).goodSince == 5000000) = true := by decide +kernel
theorem test_dsClockFault : dsClock adcs 4 = 0 ∧ after (.dsModulatorFault (some 0) 4 true) adcs (fun t => (t.ds 4).fault && !(t.ds 4).clockOk) = true := by decide +kernel
def calm (sum : Q) : State := adcs.setAxis 0 fun a => { a with mon := { a.mon with eLine := -200 }, sense := { a.sense with zeroSum := #v[sum, 0, 0], zeroN := #v[1024, 0, 0] } }
theorem test_zeroCalibration : (axEnabled (calm 1587) 0 && curPresent (calm 1587) 0 0 && zeroConditions (calm 1587) 0 && !adcLost (calm 1587)) = true ∧
    after (.currentZeroCalibration 0 0) (calm (1024 * 31 / 20)) (fun t => (t.axis 0).sense.zero[0] == some (31 / 20) && (t.axis 0).sense.zeroN[0] == 0) = true := by decide +kernel
theorem test_zeroCalibration_out : senseF (calm 0) 0 12 < qabs (17 / 10 - entryZero (calm 0) 0 (curOff 0)) * qabs (entryGain (calm 0) 0 (curOff 0)) ∧
    after (.currentZeroCalibration 0 0) (calm (1024 * 17 / 10)) (fun t => (t.axis 0).sense.zero[0] == none && bitAt (t.axis 0).trip.src 21) = true := by decide +kernel
/-- The low-side switches of legs U and V have been on for 400 ns. -/
def guarded : State := ({ adcs with back := { adcs.back with copy := some (image [sysOne, sensed]) } }).setAxis 0 fun a => { a with pwm := { a.pwm with
  gates := a.pwm.gates.map fun (g : GateLeg) => { g with low := true, onLow := some (128 * 4999960) } } }
theorem test_lowSidePair : backRuns guarded = true ∧ pairWaits guarded 0 (tapNow guarded - 3968) = some (128 * 4999960) ∧ conduction guarded 0 (tapNow guarded) = some (128 * 4999960) ∧
    after (.lowSidePair 0 0 32768) guarded (fun t => (t.axis 0).sense.lsPairs == [(1500, 0, 4000000)] && (t.axis 0).bs.pairs.length == 1) = true := by decide +kernel
/-- Leg U has just turned off. -/
def fltOpened : State := guarded.setAxis 0 fun a => { a with pwm := { a.pwm with gates := vupd a.pwm.gates 0 fun g => { g with low := false, offLow := some (128 * 4999990) } } }
theorem test_lowSidePair_open : pairWaits fltOpened 0 (tapNow fltOpened - 3968) = some (128 * 4999960) ∧ conduction fltOpened 0 (tapNow fltOpened) = none ∧
    after (.lowSidePair 0 0 0) fltOpened (fun t => (t.axis 0).sense.lsInvalid == 1 && (t.axis 0).bs.pairs == []) = true := by decide +kernel
theorem test_plausibility : firmwareUp adcs = true ∧ pairAWorks adcs = true ∧ adcs.cfg.active.isSome = true ∧ conv8.countP (convMajority adcs) < 5 ∧
    after .plausibilityEvaluation adcs (fun t => t.sensing.unresolved && t.sensing.evaluations == 1) = true := by decide +kernel
def looped : State := onEngine (running up [sysOne, sensed, section_ 0x10 0 (body 80 [(1, [1])]), ctxs [(1, 0)]])
theorem test_currentLoop_hyps : (ctxRuns looped 1 0 0 && axEnabled looped 0 && axGroup looped 0 == 0 && !bitAt looped.clk.lost 1 && !bitAt looped.clk.lost 2 && !bitAt looped.clk.lost 3) = true ∧
    (looped.axis 0).core.st = .off ∧ (looped.axis 0).core.nextRun = none := by decide +kernel
theorem test_sampleMissing : ((reloadDue looped 0).map fun e => resultMissing looped 0 e) = some true ∧ (looped.axis 0).sense.missAt = none ∧ (looped.axis 0).sense.missFails + 1 < max 1 (senseU looped 0 1 1) ∧ (looped.axis 0).core.ss1Asked = false ∧
    after (.sampleMissing 0) looped (fun t => (t.axis 0).sense.missFails == 1 && (t.axis 0).pwm.pending == some CompareSet.reset) = true := by decide +kernel
def missing : State := looped.setAxis 0 fun a => { a with sense := { a.sense with missFails := 1 } }
theorem test_sampleLost : max 1 (senseU missing 0 1 1) ≤ (missing.axis 0).sense.missFails + 1 ∧
    after (.sampleMissing 0) missing (fun t => (t.axis 0).sense.missFails == 0 && bitAt (t.axis 0).trip.src 21) = true := by decide +kernel


/-! ## Position interfaces -/

/-- QEP0 in a mode for AX0 as its primary source: CPR 4096, INDEX_POS 100, IDX_WIN 2, index enabled, 12 serial bits. -/
def placed (mode : BitVec 8) : State := onEngine (running up [sysOne, ctxs [(6, 0)],
  section_ 0x14 0 (body 128 [(0, [mode, 0, 0, 0x10]), (4, leBytes 4 4096), (8, leBytes 4 100), (12, [2, 3]), (18, [12, 0, 0xFF, 3]), (36, leBytes 4 4096), (96, [0xFF])])])
def aware (mode : BitVec 8) (f : PosIfc → PosIfc) : State := (placed mode).setIfc 0 f
/-- The interface has counted forward. -/
def forward (mode : BitVec 8) : State := aware mode fun p => { p with lastDir := 1 }
theorem test_quadratureEdge_wraps : posMode (placed 1) 0 = 1 ∧ posFilter (placed 1) 0 + 1 ≤ 9 ∧ quadStep ((placed 1).ifc 0).levelA ((placed 1).ifc 0).levelB false true = some (-1) ∧
    after (.quadratureEdge 0 false true false 9) (placed 1) (fun t => (t.ifc 0).count == 4095 && (t.ifc 0).turns == -1) = true := by decide +kernel
theorem test_quadratureEdge_up : after (.quadratureEdge 0 true false false 9) (placed 1) (fun t => (t.ifc 0).count == 1 && (t.ifc 0).levelA) = true := by decide +kernel
theorem test_quadratureEdge_analog : after (.quadratureEdge 0 true false false 0) (placed 2) (fun t => (t.ifc 0).quad == 1) = true := by decide +kernel
theorem test_quadratureEdge_both : quadStep false false true true = none ∧ after (.quadratureEdge 0 true true false 0) (placed 4) (fun t => (t.ifc 0).quadErr == 1) = true := by decide +kernel
theorem test_index_references : posIndexEn (forward 1) 0 = true ∧ ((forward 1).ifc 0).awaitIndex = true ∧ gatePasses (forward 1) 0 = true ∧
    after (.index 0 true 9) (forward 1) (fun t => (t.ifc 0).count == 100 && (t.ifc 0).referenced) = true := by decide +kernel
def near : State := aware 1 fun p => { p with lastDir := 1, awaitIndex := false, count := 102, oow := 1 }
theorem test_index_snaps : (near.ifc 0).awaitIndex = false ∧ (indexDev (cpr near 0) (near.ifc 0).count (posU near 0 8 4)).natAbs ≤ posU near 0 12 1 ∧
    after (.index 0 true 9) near (fun t => (t.ifc 0).count == 100 && (t.ifc 0).oow == 0) = true := by decide +kernel
def far : State := aware 1 fun p => { p with lastDir := 1, awaitIndex := false, count := 103, oow := 2 }
theorem test_index_outOfWindow : ¬ (indexDev (cpr far 0) (far.ifc 0).count (posU far 0 8 4)).natAbs ≤ posU far 0 12 1 ∧
    after (.index 0 true 9) far (fun t => (t.ifc 0).st == .failed && (t.ifc 0).oow == 3 && (t.ifc 0).count == 103) = true := by decide +kernel
def framing : State := aware 3 fun p => { p with frameBusy := true, frameAt := 77 }
def reply (good : Bool) : SerialReply := { startHigh := good, word := 5000, parity := false, endGood := true }
theorem test_serialFrame : posMode framing 0 = 3 ∧ serialBad framing 0 (reply true) = false ∧ (framing.ifc 0).frameAt + frameTicks framing 0 ≤ framing.clk.drive.toNat ∧
    after (.serialFrame 0 (reply true)) framing (fun t => (t.ifc 0).count == 904 && (t.ifc 0).referenced && (t.ifc 0).time == 77) = true := by decide +kernel
theorem test_serialFrame_bad : serialBad framing 0 (reply false) = true ∧ after (.serialFrame 0 (reply false)) framing (fun t => (t.ifc 0).serErr == 1 && (t.ifc 0).frameErrs == 1) = true := by decide +kernel
theorem test_resolver_first : ctxRuns (placed 4) 6 0 0 = true ∧ ((placed 4).ifc 0).prevPos = none ∧ after (.positionContextDispatch 0) (placed 4) (fun t => (t.ifc 0).prevPos == some true) = true := by decide +kernel
def paired : State := aware 4 fun p => { p with prevPos := some false, prevC := 1 }
theorem test_resolver_pair : (paired.ifc 0).prevPos = some (!decide (slotTime paired (posU paired 0 84 1) (posU paired 0 87 1) ≤ slotTime paired (posU paired 0 84 1) (posU paired 0 86 1))) ∧
    after (.positionContextDispatch 0) paired (fun t => (t.ifc 0).viol == 1) = true := by decide +kernel
theorem test_sincos : posMode (placed 2) 0 = 2 ∧ after (.positionContextDispatch 0) (placed 2) (fun t => (t.ifc 0).viol == 1) = true := by decide +kernel
theorem test_positionSnapshot : posMode (aware 1 fun p => { p with count := 1024, snapped := true }) 0 ≠ 0 ∧
    after (.positionSnapshot 0) (aware 1 fun p => { p with count := 1024, snapped := true })
      (fun t => match (t.ifc 0).snap with | some r => r.count == 1024 && r.snapped && r.time == 4000000 | none => false) = true := by decide +kernel
def apart : State := (placed 1).setAxis 0 fun a => { a with ctl := { a.ctl with disSince := some 5 } }
theorem test_sourceDisagree : ifcOf apart 0 0 = some 0 ∧ 5 + ticksOf (posF apart 0 80) ≤ apart.clk.now ∧
    after (.sourceDisagree 0) apart (fun t => (t.axis 0).ctl.secBad) = true := by decide +kernel


/-! ## Tracking, observer, catch -/

/-- Three phase voltages by ADC0, an observer with LOCK_N 1 and a slack lock. -/
def volted : List Byte := section_ 0x12 0 (body 120 [(84, [1, 0, 2, 0] ++ f32Bytes 100), (72, [1, 0, 1, 0] ++ f32Bytes 100)])
def slBody (flags : BitVec 8) : List Byte := section_ 0x15 0 (body 64 [(0, [flags, 1, 1]), (24, f32Bytes (1 / 4)), (28, f32Bytes 1), (40, f32Bytes 10), (44, f32Bytes 100)])
def senseVolts : List Byte := (List.range 3).flatMap fun k => [1, 0, BitVec.ofNat 8 k, 0] ++ f32Bytes 100 ++ f32Bytes 0
def volts3 (flags : BitVec 8) : State :=
  onEngine (running up [sysOne, section_ 0x12 0 (body 120 [(voltOff 0, senseVolts)]), slBody flags, ctxs [(3, 0), (4, 0), (5, 0)]])
theorem test_trackingRun : (axEnabled (volts3 1) 0 && ctxRuns (volts3 1) 5 0 0) = true ∧ after (.trackingRun 0) ((volts3 1).setAxis 0 fun a => { a with core := { a.core with st := .runSpeed }, ctl := { a.ctl with n := 3 } })
    (fun t => (t.axis 0).ctl.n == 0 && t.log.counters[0].secondsRest == 100000) = true := by decide +kernel
theorem test_monitorRun_hyps : (hasMonitor (volts3 1) 0 && ctxRuns (volts3 1) 4 0 0) = true ∧ 13 ≤ (volts3 1).boot.phase ∧
    (volts3 1).clk.drive.toNat % 10000 = 0 ∧ ascApplied (volts3 1) 0 = false := by decide +kernel
def shorted : State := (volts3 1).setAxis 0 fun a => { a with core := { a.core with st := .axisSafe, sub := .ascLow }, bs := { a.bs with geRemoved := false } }
theorem test_monitorRun_asc : ascApplied { shorted with sto := { shorted.sto with aLow := false, bLow := false, intSet := false, discrepancy := false } } 0 = true := by decide +kernel
def switching : State := (volts3 1).setAxis 0 fun a => { a with core := { a.core with st := .runSpeed }, obs := { a.obs with st := .unlocked } }
theorem test_observerDispatch_hyps : (ctxRuns switching 3 0 0 && axEnabled switching 0 && obsEn switching 0 && regulates switching 0) = true ∧ (switching.axis 0).obs.st = .unlocked ∧
    (switching.axis 0).obs.inUse = false := by decide +kernel
def leaning : State := switching.setObs 0 fun o => { o with st := .valid, inUse := true, lossRun := 2 }
theorem test_observerLoss_hyps : (axEnabled leaning 0 && obsEn leaning 0 && axSwitching leaning 0) = true ∧ (leaning.axis 0).obs.st = .valid ∧ 2 ≤ (leaning.axis 0).obs.lossRun := by decide +kernel
def recapturing : State := switching.setObs 0 fun o => { o with st := .recapturing, inUse := true, lostAt := 5 }
theorem test_observerRecaptureFailed : axPresent recapturing 0 = true ∧ (recapturing.axis 0).obs.lostAt + ticksOf (slF recapturing 0 36 (1 / 50)) ≤ recapturing.clk.now := by decide +kernel
/-- A catch at step 1, with the monitor or without it. -/
def catching (s : State) (f : Axis → Axis) : State := s.setAxis 0 fun a => f { a with core := { a.core with st := .catching, target := .runSpeed }, catch_ := { a.catch_ with step := 1 } }
theorem test_catchStep_waits : after (.catchStep 0) (catching (volts3 1) fun a => { a with mon := { a.mon with above := 7, below := 0 }, catch_ := { a.catch_ with foundAt := 5000000 } }) (fun t => (t.axis 0).catch_.step == 1) = true := by decide +kernel
theorem test_catchStep_ends : acquireEnds (catching (volts3 1) fun a => { a with mon := { a.mon with above := 7, below := 0 } }) 0 = true ∧
    after (.catchStep 0) (catching (volts3 1) fun a => { a with mon := { a.mon with above := 7, below := 0 } })
      (fun t => (t.axis 0).core.st == .off && (t.axis 0).catch_.refusal == evCatchNoAngle) = true := by decide +kernel
theorem test_catchStep_noAngle : hasMonitor (catching (running up [sysOne]) id) 0 = false ∧ anySensor (catching (running up [sysOne]) id) 0 = none ∧
    after (.catchStep 0) (catching (running up [sysOne]) id) (fun t => (t.axis 0).core.st == .off && (t.axis 0).catch_.refusal == evCatchNoAngle) = true := by decide +kernel
def spun (flags : BitVec 8) (e : Q) : State := catching (volts3 flags) fun a => { a with mon := { a.mon with above := 8, speed := 200, angle := 1 / 4, eLine := e }, core := { a.core with ref := -1 } }
theorem test_catchStep_overspeed : catchFloor (spun 1 20) 0 ≤ qabs ((spun 1 20).axis 0).mon.speed ∧ 19 / 20 * udcOf (spun 1 20) 0 < 20 ∧ slFlag (spun 1 20) 0 3 = false ∧
    after (.catchStep 0) (spun 1 20) (fun t => (t.axis 0).core.st == .off && (t.axis 0).catch_.refusal == evCatchOverspeed) = true := by decide +kernel
theorem test_catchStep_direction : conflict (spun 1 (-1)) 0 = none ∧ againstCommand (spun 1 (-1)) 0 200 = true ∧ ¬ 19 / 20 * udcOf (spun 1 (-1)) 0 < -1 ∧
    after (.catchStep 0) (spun 1 (-1)) (fun t => (t.axis 0).catch_.step == 5 && (t.axis 0).catch_.waiting) = true := by decide +kernel
def bounded (s : State) : State := { (s.setAxis 0 fun a => { a with bs := { a.bs with mode := 1, held := false, geRemoved := false } }) with back := { s.back with armed := true } }
theorem test_catchStep_synchronises : slFlag (bounded (spun 5 (-1))) 0 2 = true ∧ catchSource (bounded (spun 5 (-1))) 0 = 3 ∧ boundedNow (bounded (spun 5 (-1))) 0 = true ∧
    conflict (bounded (spun 5 (-1))) 0 = none := by decide +kernel
def identifying : State := catching (volts3 3) fun a => { a with catch_ := { a.catch_ with identify := true } }
theorem test_identification_due : (identifying.axis 0).catch_.syncAt + 100000 + ticksOf (8 * tuOf identifying 0) ≤ identifying.clk.now := by decide +kernel
theorem test_identification_refused : ¬ 103 / 100 * qabs (10 : Q) ≤ qabs (10 : Q) ∧ after (.standstillIdentification 0 10 10) identifying (fun t => (t.axis 0).core.st == .off) = true := by decide +kernel
theorem test_identification : 103 / 100 * qabs (10 : Q) ≤ qabs (-11 : Q) ∧ (identifying.axis 0).catch_.identify = true ∧
    after (.standstillIdentification 0 10 (-11)) identifying (fun t => (t.axis 0).catch_.angle == 1 / 2 && !(t.axis 0).catch_.identify) = true := by decide +kernel
def settling (src : Nat) : State := catching (volts3 1) fun a => { a with catch_ := { a.catch_ with step := 7, syncAt := 5 }, ctl := { a.ctl with src := src, tqZero := true }, obs := { a.obs with st := .unlocked } }
theorem test_catchStep_identifies : hfEn (bounded (spun 3 (-1))) 0 = true ∧ anySensor (bounded (spun 3 (-1))) 0 = none ∧
    after (.catchStep 0) ((bounded (spun 3 (-1))).setAxis 0 fun a => { a with mon := { a.mon with above := 0, below := 8 } }) (fun t => (t.axis 0).catch_.identify) = true := by
  decide +kernel
theorem test_settleAndRelease : (settling 1 |>.axis 0).catch_.syncAt + settleTicks (settling 1) 0 ≤ (settling 1).clk.now ∧ ((settling 1).axis 0).ctl.fwExhausted = false ∧
    after (.settleAndRelease 0) (settling 1) (fun t => (t.axis 0).core.st == .runSpeed && (t.axis 0).catch_.catches == 1) = true := by decide +kernel
theorem test_settle_unlocked : after (.settleAndRelease 0) (settling 3) (fun t => (t.axis 0).core.st == .off && (t.axis 0).catch_.refusal == evCatchNoAngle) = true := by decide +kernel
theorem test_settle_exhausted : after (.settleAndRelease 0) ((settling 1).setAxis 0 fun a => { a with ctl := { a.ctl with fwExhausted := true } })
    (fun t => (t.axis 0).core.st == .off) = true := by decide +kernel
def waiting : State := catching (volts3 1) fun a => { a with catch_ := { a.catch_ with waiting := true, answerSlot := some 8 } }
def muchLater : State := { waiting with clk := { waiting.clk with now := 4000000000 } }
theorem test_catchTimeout : (muchLater.axis 0).catch_.startedAt + ticksOf (slF muchLater 0 48 30) ≤ muchLater.clk.now ∧
    after (.catchTimeout 0) muchLater (fun t => (t.axis 0).core.st == .off && (t.axis 0).catch_.refusal == evCatchTimeout) = true := by decide +kernel
def answering : State := { waiting with host := { waiting.host with jobs := [{ job 0x0301 [] with started := true }] } }
theorem test_axisStartResponse : (runningJob answering 8).isSome = true ∧ hostServed answering = true ∧ after (.axisStartResponse 0) answering (fun t => answer8 t == 0 && (t.axis 0).catch_.answerSlot == none) = true := by decide +kernel

/-! ## Safe state, stops, Backstay, discharge -/

/-- SAFETY: debounce 2, U_TH_MARGIN 0, BS_UDC 30, DISCH_DEADLINE 5 s, and AX0 with STOP_TYPE, brake output and times. -/
def safetied (ty brake : BitVec 8) : List Byte := section_ 0x20 0 (body 288 [(0, [1, 2, 30]), (4, f32Bytes 5), (8, f32Bytes (1 / 4)), (12, f32Bytes (1 / 4)), (16, f32Bytes 5), (20, f32Bytes 100),
  (32, [ty, 0, brake, 1, 1]), (44, f32Bytes 100), (48, f32Bytes 2), (52, f32Bytes 500), (80, f32Bytes (1 / 10)), (84, f32Bytes (1 / 10)), (92, [1])])
def safed (ty brake : BitVec 8) (f : Axis → Axis) : State := (onEngine (running up [sysOne, safetied ty brake, ctxs [(2, 0)]])).setAxis 0 f
theorem test_safeStateRun_hyps : (ctxRuns (safed 0 0xFF id) 2 0 0 && axEnabled (safed 0 0xFF id) 0) = true ∧ 13 ≤ (safed 0 0xFF id).boot.phase := by decide +kernel
theorem test_safeStateRun_unknown : eEst (safed 0 0xFF id) 0 = none ∧ after (.safeStateRun 0) (safed 0 0xFF id) (fun t => (t.axis 0).saf.speedUnknown) = true := by decide +kernel
/-- Loop speed 0 with a source and a monitor at rest. -/
def still : State := (onEngine (running up [sysOne, safetied 0 0xFF, section_ 0x12 0 (body 120 [(voltOff 0, senseVolts)]), ctxs [(2, 0)]])).setAxis 0 fun a => { a with saf := { a.saf with selection := .ascLow, ownAsc := true } }
theorem test_safeStateRun_rest : eEst still 0 = some 0 ∧ after (.safeStateRun 0) still (fun t => (t.axis 0).saf.selection == .freewheel && !(t.axis 0).saf.ownAsc) = true := by decide +kernel
def stopped (ty brake : BitVec 8) (f : SafetyAxis → SafetyAxis) : State := safed ty brake fun a => { a with core := { a.core with st := .stopping }, saf := f { a.saf with stopSs1 := true, stopDeadline := 5 } }
theorem test_standstill : pairAWorks (stopped 0 0xFF id) = true ∧ stopSpeedNow (stopped 0 0xFF id) 0 < safetyF (stopped 0 0xFF id) 0 16 ∧
    after (.ss1EnvelopeCheck 0) (stopped 0 0xFF id) (fun t => (t.axis 0).core.st == .off) = true := by decide +kernel
theorem test_standstill_brake : after (.ss1EnvelopeCheck 0) (stopped 0 2 id) (fun t => (t.axis 0).saf.brakeEngaging && (t.axis 0).core.st == .stopping) = true := by decide +kernel
/-- A stop on an axis that turns at 40 rad/s by its interface, 3 checks outside an envelope that has fallen to 0. -/
def fast (fails : Nat) : State :=
  let s := running up [sysOne, safetied 0 0xFF, section_ 0x14 0 (body 128 [(0, [1, 0, 0, 0x10]), (4, leBytes 4 4096)])]
  (s.setIfc 0 fun p => { p with speed := 40 }).setAxis 0 fun a => { a with
    core := { a.core with st := .stopping }, ctl := { a.ctl with src := 1, w := 40 }, mon := { a.mon with speed := 40 }
    bs := { a.bs with wBs := 400 }, saf := { a.saf with stopSs1 := true, stopDeadline := 5, envelopeFails := fails, stopSpeed := 0 } }
theorem test_envelope : ¬ stopSpeedNow (fast 2) 0 < safetyF (fast 2) 0 16 ∧ envelope (fast 2) 0 < stopSpeedNow (fast 2) 0 ∧ axPresent (fast 2) 0 = true ∧
    after (.ss1EnvelopeCheck 0) (fast 2) (fun t => bitAt (t.axis 0).trip.src bitStopDeadline && (t.axis 0).core.st == .axisSafe) = true := by decide +kernel
theorem test_stopDeadline_c : safetyU (stopped 1 0xFF id) 0 0 1 = 1 ∧ after (.stopDeadlineMissed 0) (stopped 1 0xFF id) (fun t => (t.axis 0).core.st == .off && (t.axis 0).trip.src == 0) = true := by decide +kernel
theorem test_stopDeadline_a : after (.stopDeadlineMissed 0) (stopped 0 0xFF id) (fun t => (t.axis 0).core.st == .axisSafe && bitAt (t.axis 0).trip.src bitStopDeadline) = true := by decide +kernel
def sped : State := safed 0 0xFF fun a => { a with core := { a.core with st := .runSpeed }, saf := { a.saf with slsOver := some 5 } }
theorem test_slsExceeded : slsActive sped 0 = true ∧ after (.slsExceeded 0) sped (fun t => (t.axis 0).core.ss1Asked) = true := by decide +kernel
def stillFast : State := safed 0 0xFF fun a => { a with core := { a.core with st := .runSpeed }, saf := { a.saf with slsOver := none, slsBraking := true, slsBy := 5 }, ctl := { a.ctl with src := 1, w := 60000 } }
theorem test_slsExceeded_late : safetyF stillFast 0 20 < qabs (speedOf stillFast 0) ∧ slsActive stillFast 0 = true ∧ after (.slsExceeded 0) stillFast (fun t => (t.axis 0).core.ss1Asked) = true := by
  decide +kernel
def braking : State := { (stopped 0 2 fun f => { f with brakeEngaging := true, brakeHolding := true, brakeAt := 5 }) with clk := { up.clk with now := 20000000 } }
theorem test_brake : (braking.axis 0).saf.brakeAt + ticksOf (safetyF braking 0 48) ≤ braking.clk.now ∧
    after (.brakeReleaseTime 0) braking (fun t => !(t.axis 0).saf.brakeHolding) = true ∧ after (.brakeEngageTime 0) braking (fun t => (t.axis 0).core.st == .off) = true := by decide +kernel
/-- The Backstay with its copy, AX0 BOUNDED and volts3 the wrong way. -/
def minded (f : BackstayAxis → BackstayAxis) : State :=
  let s := safed 0 0xFF fun a => { a with bs := f { a.bs with mode := 1, held := false, geRemoved := false, dir := 1, forbidden := 10, debounce := 1, pairs := [] } }
  { s with back := { s.back with copy := s.cfg.active, armed := true, feedDown := false, lastAccepted := 5 } }
theorem test_backstay_violation : backRuns (minded id) = true ∧ (bsLook (minded id) 0).bad ≠ 0 ∧ bsU (minded id) secSafety 0 1 1 ≤ 2 ∧
    after .backstayEvaluation (minded id) (fun t => (t.axis 0).bs.geRemoved && (t.axis 0).bs.held && bitAt (t.axis 0).trip.src bitBackstay) = true := by decide +kernel
theorem test_backstay_unarmed : after .backstayEvaluation { minded id with back := { (minded id).back with armed := false } } (fun t => (t.axis 0).bs.debounce == 0 && !(t.axis 0).bs.geRemoved) = true := by decide +kernel
theorem test_backstay_good : (bsLook (minded fun b => { b with dir := 0 }) 0).bad = 0 ∧ bsHolds (minded fun b => { b with held := true }) 0 = true ∧ bsHolds (minded id) 0 = false ∧
    after .backstayEvaluation (minded fun b => { b with dir := 0, debounce := 1 }) (fun t => (t.axis 0).bs.debounce == 0) = true ∧
    after .backstayEvaluation (minded fun b => { b with held := true }) (fun t => (t.axis 0).bs.violating != 0 && !(t.axis 0).bs.geRemoved) = true := by decide +kernel
theorem test_backstayGateRelease : after (.backstayGateRelease 0) (minded fun b => { b with geRemoved := true, releaseDue := true }) (fun t => !(t.axis 0).bs.geRemoved) = true := by decide +kernel
def lookedAt (f : BackstayAxis → BackstayAxis) : State := minded fun b => f { b with mode := 2, safeSince := some 5 }
theorem test_backstayPattern : mixedBalls 3 = true ∧ after (.backstayPattern 0 3) (lookedAt id) (fun t => (t.axis 0).bs.patternLock && (t.axis 0).bs.geRemoved) = true := by decide +kernel
theorem test_backstayPattern_again : after (.backstayPattern 0 1) (lookedAt fun b => { b with pattern := some 4, changedAt := some 4999000 }) (fun t => (t.axis 0).bs.patternLock) = true := by
  decide +kernel
theorem test_backstayPattern_passes : mixedBalls 21 = false ∧ after (.backstayPattern 0 21) (lookedAt id) (fun t => !(t.axis 0).bs.patternLock && (t.axis 0).bs.pattern == some 21) = true := by
  decide +kernel
/-- The check code of a long list, one byte after the other, for the kernel. -/
def crcRun : List Byte → Nat → Nat
  | [], c => c
  | b :: bs, 0 => crcRun bs (crc32Bits 0x82F63B78#32 8 (0#32 ^^^ b.setWidth 32)).toNat
  | b :: bs, c + 1 => crcRun bs (crc32Bits 0x82F63B78#32 8 (BitVec.ofNat 32 (c + 1) ^^^ b.setWidth 32)).toNat
theorem crcRun_eq (bs : List Byte) : ∀ c : BitVec 32,
    crcRun bs c.toNat = (bs.foldl (fun c b => crc32Bits 0x82F63B78#32 8 (c ^^^ (b.setWidth 32 : BitVec 32))) c).toNat := by
  induction bs with
  | nil => intro c; rfl
  | cons b bs ih =>
    intro c
    obtain h | ⟨k, h⟩ : c.toNat = 0 ∨ ∃ k, c.toNat = k + 1 := by cases c.toNat with | zero => exact .inl rfl | succ k => exact .inr ⟨k, rfl⟩
    · have hc : c = 0#32 := by apply BitVec.eq_of_toNat_eq; simpa using h
      subst hc; exact ih _
    · have hc : BitVec.ofNat 32 (k + 1) = c := by rw [← h]; simp
      rw [h, crcRun, hc, ih]; rfl
/-- A frame that names OFF for every axis, with sequence number 1 and its check code. -/
def offFrame : List Byte := [1#8] ++ List.replicate 111 0#8 ++ leBytes 4 0x42201acb
theorem offFrame_crc : (crc32c (offFrame.take 112)).toNat = 0x42201acb := by
  have h : crcRun (offFrame.take 112) (0xFFFFFFFF#32).toNat = 0xbddfe534 := by decide +kernel
  rw [crcRun_eq] at h
  have k := congrArg (BitVec.ofNat 32) h
  rw [BitVec.ofNat_toNat, BitVec.setWidth_eq] at k
  unfold crc32c
  rw [k]; decide
theorem test_windowFrame : frameOk (tackReached (minded id) [4]) offFrame = true ∧ 14 ≤ (minded id).boot.phase := by
  refine ⟨?_, by decide +kernel⟩
  unfold frameOk
  rw [offFrame_crc]; decide +kernel
theorem test_windowFrame_rejected : frameOk (tackReached (minded id) [4]) [1#8] = false ∧
    after (.windowFrame [1#8]) (minded id) (fun t => (t.axis 0).bs.mode == 1 && t.back.rejected == 1) = true := by decide +kernel
theorem test_backstayFeedLost : after .backstayFeedLost (minded id) (fun t => t.mode == .safe && t.back.feedLost && (t.axis 0).core.st == .axisSafe) = true := by decide +kernel
def fullSlot (code : Nat) : SarSlot := { code := code, ain := 5, valid := true, ovr := false, requeued := false, time := 3999990, before := none }
/-- A DC link read by ADC0 slot 5 and by ADC7 slot 2. -/
def linkOf (code : Nat) (s : State) : State :=
  (s.setConv 0 fun c => { c with slots := c.slots.set 5 (fullSlot code) }).setConv 7 fun c => { c with slots := c.slots.set 2 (fullSlot code) }
def linked : State := linkOf 100 (running up [sysOne, safetied 0 0xFF, section_ 0x12 0 (body 120 [(dcOff, [1, 0, 5, 0] ++ f32Bytes 1000 ++ f32Bytes 0)])])
def emptied (f : Discharge → Discharge) : State := let s := linked; { s with disch := f { s.disch with state := 1, axis := 0, startedAt := 5 } }
theorem test_dischargeDone : dischBelow (emptied id) 0 = true ∧ after .dischargeDone (emptied fun d => { d with ball := true }) (fun t => t.disch.state == 2 && !t.disch.ball && t.disch.ms == 49) = true := by decide +kernel
def wound (ending : Bool) : State := (emptied fun d => { d with ending := ending, method := 2 }).setAxis 0 fun a => { a with core := { a.core with st := .axisSafe, sub := .discharge } }
theorem test_dischargeWindings : after .dischargeDone (wound false) (fun t => t.disch.ending) = true ∧ after .dischargeDone (wound true) (fun t => (t.axis 0).core.st == .off && t.disch.state == 2) = true := by decide +kernel
def chargedNow : State := { linkOf 40000 (emptied id) with clk := { up.clk with now := 600000000 } }
theorem test_dischargeTimeout : dischBelow chargedNow 0 = false ∧ pairAWorks chargedNow = true ∧ after .dischargeTimeout chargedNow (fun t => t.disch.state == 3) = true := by decide +kernel

/-! ## Temperatures, profiles, the auxiliary channel -/

/-- THERMAL with thresholds at 400 K, hysteresis 5 K, T_COLD 250 K, T_WORST 300 K, UDC_LOW 0; PROFILE with its limits. -/
def thermal : List Byte := section_ 0x16 0 (body 688 ([4, 8, 12, 16, 20, 24, 28, 32, 36, 40, 44, 48].map (fun o => (o, f32Bytes 400)) ++ [(52, f32Bytes 5), (56, f32Bytes 250), (104, f32Bytes 300)]))
def profiled : List Byte := section_ 0x17 0 (body 64 [(12, f32Bytes 10), (16, f32Bytes 100), (48, f32Bytes (1 / 100)), (52, f32Bytes (1 / 10))])
def warm (f : Axis → Axis) : State :=
  (onEngine (running up [sysOne, thermal, profiled, ctxs [(7, 0), (8, 0)]])).setAxis 0 fun a => f { a with prof := { a.prof with valleys := 1 } }
theorem test_thermalStep : (axEnabled (warm id) 0 && cfgHas (warm id) secThermal 0 && cfgHas (warm id) secProfile 0) = true ∧ ((warm id).axis 0).core.overtemp = false ∧
    (ctxRuns (warm id) 7 0 0 && ctxRuns (warm id) 8 0 0 && pairAWorks (warm id)) = true ∧ thermalContexts (warm id) 0 = 1 ∧ profileDiv (warm id) 0 ≤ ((warm id).axis 0).prof.valleys ∧
    after (.thermalStep 0 0) (warm id) (fun t => (t.axis 0).th.eSw[0] == 0 && (t.axis 0).th.turn == 1) = true := by decide +kernel
def ignored : State := warm fun a => { a with th := { a.th with ignored := 1, inSince := #v[some 5, none, none] } }
theorem test_sensorRestored : 5 + 100000000 ≤ ({ ignored with clk := { up.clk with now := 200000000 } }).clk.now ∧
    after (.sensorRestored 0 0) { ignored with clk := { up.clk with now := 200000000 } } (fun t => (t.axis 0).th.ignored == 0) = true := by decide +kernel
theorem test_reef_hot : after (.reefEvaluation 0) (warm fun a => { a with th := { a.th with windRise := 150 } }) (fun t => (t.axis 0).th.reef == 3 && (t.axis 0).core.overtemp) = true := by decide +kernel
theorem test_reef_cold : coldest (warm fun a => { a with th := { a.th with rSw := Vector.replicate 6 (Vector.replicate 4 (-20)) } }) 0 < 250 := by decide +kernel
theorem test_profile_off : ((warm id).axis 0).core.st = .off ∧ after (.profileDispatch 0) (warm fun a => { a with prof := { a.prof with torque := 3, sumW := 4, nW := 2 } })
    (fun t => (t.axis 0).prof.torque == 0 && (t.axis 0).prof.wm == 2) = true := by decide +kernel
theorem test_profile_torque : tqShape (warm id) 0 = false ∧ after (.profileDispatch 0) (warm fun a => { a with core := { a.core with st := .runTorque }, ctl := { a.ctl with tRef := 7 } })
    (fun t => (t.axis 0).prof.torque == 7) = true := by decide +kernel
theorem test_profile_following : after (.profileDispatch 0) (warm fun a => { a with core := { a.core with st := .runPosition }, prof := { a.prof with p := 1 } })
    (fun t => (t.axis 0).prof.followErrors == 1 && (t.axis 0).core.ss1Asked) = true := by decide +kernel
theorem test_moveDone : after (.moveDone 0) (warm fun a => { a with core := { a.core with st := .runPosition }, prof := { a.prof with moving := true, settleSince := some 5 } })
    (fun t => !(t.axis 0).prof.moving && (t.axis 0).prof.moves == 1) = true := by decide +kernel
/-- AUX in a mode: full steps, I_RUN 1 A, I_FS 2 A, IDLE_OFF 1 s, rate limit 1000/s; REF_POS 500, both edges. The channel owns REFSW1. -/
def auxed (mode flags : BitVec 8) (f : Aux → Aux) : State :=
  (running up [sysOne, section_ 3 0 ([2, 0, 0, 0, 0, 0, 0, 0] ++ leBytes 4 (resSwitch 1) ++ [6, 0, 0, 0] ++ leBytes 4 (resSwitch 0) ++ [4, 0, 0, 0]),
    section_ 0x14 0 (body 128 [(0, [1, 0, 0, 0x10]), (4, leBytes 4 4096), (27, [3])]),
    section_ 0x23 0 (body 80 [(0, [mode, flags, 0]), (6, [1]), (7, [3]), (20, f32Bytes 2), (24, f32Bytes 1), (28, f32Bytes 1), (40, f32Bytes 1), (44, f32Bytes 1000), (48, f32Bytes 100), (64, leBytes 4 500)])]).setAux f
theorem test_refsw_owner : (ownerOf (auxed 1 0 id) (resSwitch 1)).isSome = true ∧ (ownerOf (auxed 1 0 id) (resSwitch 0)).isSome = true := by decide +kernel
theorem test_refsw_aux : after (.refswLatch 1 true 0) (auxed 1 0 fun a => { a with m := 20 }) (fun t => t.aux.m == 500 && t.aux.referenced && t.refsw[1].value == 500) = true := by decide +kernel
theorem test_refsw_position : after (.refswLatch 0 false 5) ((auxed 1 0 id).setIfc 0 fun p => { p with count := 77 }) (fun t => t.refsw[0].value == 77 && !t.refsw[0].rising) = true := by decide +kernel
theorem test_refsw_references : after (.refswLatch 0 false 5) ((auxed 1 0 id).setIfc 0 fun p => { p with count := 77, awaitSwitch := true })
    (fun t => t.refsw[0].value == 77 && (t.ifc 0).referenced && (t.ifc 0).count == 0) = true := by decide +kernel
def driving (mode flags : BitVec 8) (blank : Bool) : State := auxed mode flags fun a => { a with energised := true, bridges := #v[{ AuxBridge.reset with phase := 1, blank := blank, overRun := 1 }, AuxBridge.reset] }
theorem test_chopperCrossing : chopActive (driving 3 0 false) 0 3 = true ∧ after (.chopperCrossing 0 3) (driving 3 0 false) (fun t => t.aux.bridges[0].phase == 2) = true := by decide +kernel
theorem test_blankEnd_fault : chopVolts (driving 3 1 true) (auxF (driving 3 1 true) 32) < 3 ∧ after (.blankEnd 0 3) (driving 3 1 true) (fun t => t.aux.fault == 1 && !t.aux.energised) = true := by decide +kernel
theorem test_blankEnd : chopActive (driving 3 0 true) 0 0 = true ∧ after (.blankEnd 0 0) (driving 3 0 true) (fun t => t.aux.bridges[0].phase == 2 && t.aux.bridges[0].overRun == 0) = true := by decide +kernel
theorem test_toffEnd : after (.toffEnd 0) ((driving 1 0 false).setAux fun a => { a with bridges := #v[{ AuxBridge.reset with phase := 2 }, AuxBridge.reset] }) (fun t => t.aux.bridges[0].blank) = true := by decide +kernel
theorem test_auxOpenLoad : auxF (driving 3 0 false) 24 / 10 ≤ qabs (bridgeRef ((driving 3 0 false).setAux fun a => { a with solOn := #v[true, false] }) 0) ∧
    after (.auxOpenLoad 0) ((driving 3 0 false).setAux fun a => { a with solOn := #v[true, false] }) (fun t => t.aux.fault == 2 && !t.aux.energised) = true := by decide +kernel
theorem test_auxMicrostep : after .auxMicrostep ((driving 1 0 false).setAux fun a => { a with moving := true, target := 9, rate := 10 }) (fun t => t.aux.m == 1 && t.aux.moving) = true := by decide +kernel
theorem test_auxMicrostep_last : after .auxMicrostep ((driving 1 0 false).setAux fun a => { a with moving := true, target := -1, rate := -10 }) (fun t => t.aux.m == -1 && !t.aux.moving) = true := by decide +kernel
theorem test_auxMicrostep_far : after .auxMicrostep ((driving 1 0 false).setAux fun a => { a with moving := true, target := -1, rate := -100 }) (fun t => t.aux.m == -1 && t.aux.moving) = true := by decide +kernel
theorem test_holdDelay : after .holdDelay (driving 1 0 false) (fun t => t.aux.holdCurrent) = true := by decide +kernel
def muchLaterOf (s : State) : State := { s with clk := { s.clk with now := 600000000 } }
theorem test_idleOff : auxF (driving 1 0 false) 40 ≠ 0 ∧
    after .idleOff (muchLaterOf ((driving 1 0 false).setAux fun a => { a with m := 7, referenced := true })) (fun t => !t.aux.energised && t.aux.m == 0 && !t.aux.referenced) = true ∧
    after .idleOff (muchLaterOf ((driving 1 1 false).setAux fun a => { a with m := 7, referenced := true })) (fun t => t.aux.m == 7 && t.aux.kept == some 7) = true := by decide +kernel
theorem test_auxRunTimeEnd : after .auxRunTimeEnd ((driving 2 0 false).setAux fun a => { a with moving := true, target := 50 }) (fun t => !t.aux.moving && t.aux.bridges[0].phase == 0) = true := by decide +kernel
theorem test_tPullElapsed : after (.tPullElapsed 1) (auxed 3 0 fun a => { a with pullOn := #v[true, true] }) (fun t => t.aux.pullOn[0] && !t.aux.pullOn[1]) = true := by decide +kernel
theorem test_auxParkIncomplete : after .auxParkIncomplete ((driving 1 0 false).setAux fun a => { a with parking := true }) (fun t => t.power.parkShort && !t.aux.energised) = true := by decide +kernel
def asked (s : State) (code : Nat) (payload : List Byte) : State := withJob (running s [sysOne]) code payload
def auxAsked (mode : BitVec 8) (code : Nat) (payload : List Byte) (f : Aux → Aux) : State := withJob { (auxed mode 0 f) with sto := { up.sto with aLow := false, bLow := false, intSet := false, discrepancy := false } } code payload
theorem test_auxMove : ready (auxAsked 2 0x0380 (leBytes 4 30 ++ leBytes 4 0) id) 8 0x0380 (job 0x0380 (leBytes 4 30 ++ leBytes 4 0)) = true ∧ stoActive (auxAsked 2 0x0380 [] id) = false ∧
    after (.auxMove 8 false) (auxAsked 2 0x0380 (leBytes 4 30 ++ leBytes 4 0) id) (fun t => t.aux.moving && t.aux.runEnd == 8000000 && answer8 t == 0) = true := by decide +kernel
theorem test_auxMove_refused : after (.auxMove 8 true) (auxAsked 2 0x0380 (leBytes 4 30 ++ leBytes 4 0) fun a => { a with fault := 1 }) (fun t => answer8 t == evClearRefusedSourceActive) = true ∧
    after (.auxMove 8 true) { (auxAsked 2 0x0380 (leBytes 4 30 ++ leBytes 4 0) id) with sto := { up.sto with aLow := true } } (fun t => answer8 t == evModeRefused) = true := by decide +kernel
theorem test_auxStop : ready (auxAsked 2 0x0381 [] id) 8 0x0381 (job 0x0381 []) = true ∧
    after (.auxStop 8) (auxAsked 2 0x0381 [] fun a => { a with energised := true, moving := true, target := 30, runEnd := 7000000 }) (fun t => t.aux.held == some 20 && answerBytes8 t 4 == leBytes 4 20) = true ∧
    after (.auxStop 8) (auxAsked 2 0x0381 [] id) (fun t => answerBytes8 t 4 == leBytes 4 0) = true := by decide +kernel
theorem test_auxStop_stepper : after (.auxStop 8) (auxAsked 1 0x0381 [] fun a => { a with moving := true, target := 30, m := 10, rate := 5 }) (fun t => t.aux.stopping && t.aux.held == some 30 && answerBytes8 t 4 == leBytes 4 20) = true := by decide +kernel
theorem test_auxResume : ready (auxAsked 2 0x0382 [] id) 8 0x0382 (job 0x0382 []) = true ∧ after (.auxResume 8 false) (auxAsked 2 0x0382 [] fun a => { a with held := some 20 }) (fun t => t.aux.moving && t.aux.held == none) = true ∧
    after (.auxResume 8 false) (auxAsked 2 0x0382 [] id) (fun t => answer8 t == evModeRefused) = true := by decide +kernel
theorem test_auxResume_fault : after (.auxResume 8 true) (auxAsked 2 0x0382 [] fun a => { a with fault := 1 }) (fun t => answer8 t == evClearRefusedSourceActive) = true := by decide +kernel
theorem test_auxStatus : ready (auxAsked 1 0x0383 [] id) 8 0x0383 (job 0x0383 []) = true ∧
    after (.auxStatus 8) (auxAsked 1 0x0383 [] fun a => { a with m := -2, referenced := true }) (fun t => answerBytes8 t 9 == [0xFE, 0xFF, 0xFF, 0xFF, 0, 0, 0, 0, 1]) = true := by decide +kernel
/-- The worked example of R337: 16 microsteps, I_RUN 1.5 A, SENSE_GAIN 5 A/V, m = 5. -/
def stepped : State := (running up [sysOne, section_ 0x23 0 (body 80 [(0, [1, 0, 4]), (20, f32Bytes 5), (24, f32Bytes (3 / 2))])]).setAux fun a => { a with m := 5 }
theorem test_microstep_codes : chopCode stepped (bridgeRef stepped 0) = 90 ∧ chopCode stepped (bridgeRef stepped 1) = 48 ∧
    bridgeRef (stepped.setAux fun a => { a with m := 0 }) 0 = 3 / 2 ∧ bridgeRef (stepped.setAux fun a => { a with m := -64 }) 1 = 0 := by decide +kernel

/-! ## AXIS and SAFE commands, safe inputs and outputs -/

/-- AX0 may start: seated, both STO channels qualified, a fresh window, a certificate. -/
def startable (code : Nat) (payload : List Byte) (f : Axis → Axis) : State :=
  let s := (running up [sysOne, profiled, section_ 0x14 0 (body 128 [(0, [1, 0, 0, 0x10]), (4, leBytes 4 4096), (26, [1])]), volted]).setAxis 0 f
  withJob { s with
    sto := { s.sto with aLow := false, bLow := false, intSet := false, discrepancy := false, aQual := true, bQual := true }
    back := { s.back with armed := true, lastAccepted := s.clk.now } } code payload
def startAsk (target : BitVec 8) : List Byte := [0, target, 0, 0] ++ f32Bytes 5 ++ f32Bytes 0
theorem test_axisStart_hyps : ready (startable 0x0301 (startAsk 3) id) 8 0x0301 (job 0x0301 (startAsk 3)) = true ∧ axisOf (startable 0x0301 (startAsk 3) id) (job 0x0301 (startAsk 3)) = some 0 ∧
    startReason (startable 0x0301 (startAsk 3) id) 0 false = none ∧ refOf (job 0x0301 (startAsk 3)) .runSpeed false = some 5 ∧ (job 0x0301 (startAsk 3)).f 8 = some 0 := by decide +kernel
theorem test_axisStart : after (.axisStart 8) (startable 0x0301 (startAsk 3) id) (fun t => (t.axis 0).core.st == .catching && (t.axis 0).catch_.answerSlot == some 8 && t.mode == .run) = true := by decide +kernel
theorem test_axisStart_refused : startReason { (startable 0x0301 (startAsk 3) id) with power := { up.power with seated := false } } 0 false = some rsNotSeated ∧
    after (.axisStart 8) { (startable 0x0301 (startAsk 3) id) with power := { up.power with seated := false } } (fun t => answer8 t == evModeRefused && answerBytes8 t 2 == leBytes 2 rsNotSeated) = true := by decide +kernel
def runs (st : AxState) (a : Axis) : Axis := { a with core := { a.core with st := st }, obs := { a.obs with inUse := false } }
def runMode (s : State) : State := { s with mode := .run }
theorem test_axisStart_running : ready (runMode (startable 0x0301 (startAsk 3) (runs .runSpeed))) 8 0x0301 (job 0x0301 (startAsk 3)) = true ∧ warming (runMode (startable 0x0301 (startAsk 3) (runs .runSpeed))) 0 = false ∧
    after (.axisStart 8) (runMode (startable 0x0301 (startAsk 3) (runs .runTorque))) (fun t => (t.axis 0).core.nextRun.isSome && (t.axis 0).core.st == .runTorque) = true := by decide +kernel
theorem test_axisStopRamp : ready (runMode (startable 0x0302 [0, 0] (runs .runSpeed))) 8 0x0302 (job 0x0302 [0, 0]) = true ∧
    after (.axisStopRamp 8) (runMode (startable 0x0302 [0, 0] (runs .runSpeed))) (fun t => (t.axis 0).core.st == .stopping && answerBytes8 t 1 == [5]) = true := by decide +kernel
theorem test_axisStopSs1 : after (.axisStopSs1 8) (runMode (startable 0x0302 [0, 1] (runs .runSpeed))) (fun t => (t.axis 0).core.ss1Asked && answerBytes8 t 1 == [3]) = true ∧
    after (.axisStopSs1 8) (runMode (startable 0x0302 [0, 1] (runs .catching))) (fun t => (t.axis 0).core.st == .off && t.mode == .idle) = true := by decide +kernel
def refAsk : List Byte := [0, 0, 0, 0] ++ f32Bytes 5
theorem test_axisTorque : ctlU (startable 0x0303 refAsk id) 0 3 1 = 0 ∧ ready (runMode (startable 0x0303 refAsk (runs .runTorque))) 8 0x0303 (job 0x0303 refAsk) = true ∧
    after (.axisTorque 8) (runMode (startable 0x0303 refAsk (runs .runTorque))) (fun t => (t.axis 0).core.ref == 5) = true := by decide +kernel
theorem test_axisSpeed : after (.axisSpeed 8) (runMode (startable 0x0304 refAsk (runs .runSpeed))) (fun t => (t.axis 0).core.ref == 5) = true ∧
    after (.axisSpeed 8) (runMode (startable 0x0304 refAsk (runs .runTorque))) (fun t => answer8 t == evModeRefused) = true := by decide +kernel
def referenced (s : State) : State := s.setIfc 0 fun p => { p with referenced := true, mechRef := true }
def moveAsk : List Byte := [0, 0, 0, 0] ++ leBytes 4 2 ++ leBytes 2 32768 ++ [0, 0] ++ f32Bytes 1
theorem test_axisMove : positionReady (referenced (runMode (startable 0x0305 moveAsk (runs .runPosition)))) 0 = true ∧ ready (referenced (runMode (startable 0x0305 moveAsk (runs .runPosition)))) 8 0x0305 (job 0x0305 moveAsk) = true ∧
    after (.axisMove 8) (referenced (runMode (startable 0x0305 moveAsk (runs .runPosition)))) (fun t => (t.axis 0).prof.target == some 10240 && (t.axis 0).prof.moving) = true := by decide +kernel
theorem test_axisResume : after (.axisResume 8) (referenced (runMode (startable 0x0306 [0] fun a => { runs .runPosition a with prof := { a.prof with held := some 4096 } })))
    (fun t => (t.axis 0).prof.target == some 4096 && answerBytes8 t 6 == [1, 0, 0, 0, 0, 0]) = true := by decide +kernel
theorem test_axisStatus : ready (startable 0x0307 [0] id) 8 0x0307 (job 0x0307 [0]) = true ∧ after (.axisStatus 8) (running (startable 0x0307 [0] id) [sysOne, thermal]) (fun t => answer8 t == 0 && answerBytes8 t 1 == [0]) = true := by decide +kernel
theorem test_axisReference : busyWith (startable 0x0308 [0, 0] id) 0 0 (resIndex 0) = none ∧ ready (startable 0x0308 [0, 0] id) 8 0x0308 (job 0x0308 [0, 0]) = true ∧
    after (.axisReference 8) (startable 0x0308 [0, 0] id) (fun t => t.cfg.claims.length == 1 && answer8 t == 0) = true ∧
    after (.axisReference 8) (startable 0x0308 [0, 2] id) (fun t => (t.ifc 0).awaitSwitch && answer8 t == 0) = true := by decide +kernel
def safeNow (code : Nat) (payload : List Byte) (f : Axis → Axis) : State := { (startable code payload f) with mode := .safe }
def freewheels (a : Axis) : Axis := { a with core := { a.core with st := .axisSafe, sub := .freewheel } }
theorem test_safeClear : ready (safeNow 0x0401 [] freewheels) 8 0x0401 (job 0x0401 []) = true ∧ clearReason (safeNow 0x0401 [] freewheels) = none ∧
    after (.safeClear 8) (safeNow 0x0401 [] freewheels) (fun t => t.mode == .idle && (t.axis 0).core.st == .off && answer8 t == 0) = true := by decide +kernel
def latched (src : Nat) (a : Axis) : Axis := { freewheels a with trip := { a.trip with src := src } }
theorem test_safeClear_refused : clearReason (safeNow 0x0401 [] (latched 2)) = some rsTripLatched ∧
    after (.safeClear 8) (safeNow 0x0401 [] (latched 2)) (fun t => t.mode == .safe && answerBytes8 t 2 == leBytes 2 rsTripLatched) = true := by decide +kernel
/-- A STOP_DEADLINE trip, which has no active source; a FIRMWARE trip whose cause stands. -/
def deadlineTrip (a : Axis) : Axis := latched (setBit 0 bitStopDeadline true) a
theorem test_safeClearTrip : ready (safeNow 0x0402 [0] deadlineTrip) 8 0x0402 (job 0x0402 [0]) = true ∧ activeSources (reportGood (safeNow 0x0402 [0] deadlineTrip) 0 0) (clearSet (safeNow 0x0402 [0] deadlineTrip) 0) = 0 ∧
    after (.safeClearTrip 8 0 0) (safeNow 0x0402 [0] deadlineTrip) (fun t => (t.axis 0).trip.src == 0 && answer8 t == 0) = true := by decide +kernel
def lostSample (a : Axis) : Axis := { latched (setBit 0 21 true) a with trip := { a.trip with src := setBit 0 21 true, fwCauses := [evSampleLost] }, sense := { a.sense with completeSince := false } }
theorem test_safeClearTrip_active : after (.safeClearTrip 8 0 0) (safeNow 0x0402 [0] lostSample) (fun t => (t.axis 0).trip.src == 2097152 && answer8 t == evClearRefusedSourceActive) = true := by decide +kernel
theorem test_safeStatus : ready (safeNow 0x0403 [] id) 8 0x0403 (job 0x0403 []) = true ∧ after (.safeStatus 8) (safeNow 0x0403 [] id) (fun t => answer8 t == 0) = true := by decide +kernel
def discharger (payload : List Byte) (f : Axis → Axis) : State :=
  let s := startable 0x0406 payload f
  running { s with mode := .safe } [sysOne, section_ 0x20 0 (body 288 [(0, [1]), (20, f32Bytes 100), (35, [8])]), slBody 3]
theorem test_dischargeResistor : ready (discharger [0, 0] freewheels) 8 0x0406 (job 0x0406 [0, 0]) = true ∧ rotating (discharger [0, 0] freewheels) = false ∧
    after (.safeDischargeResistor 8) (discharger [0, 0] freewheels) (fun t => t.disch.ball && answer8 t == 0) = true := by decide +kernel
def spinning (a : Axis) : Axis := { freewheels a with mon := { a.mon with speed := 200 } }
theorem test_dischargeRotating : rotating (discharger [0, 0] spinning) = true ∧ after (.safeDischargeResistor 8) (discharger [0, 0] spinning) (fun t => !t.disch.ball && answerBytes8 t 2 == leBytes 2 rsRotating) = true := by decide +kernel
theorem test_dischargeWindings_command : windingsOk (discharger [0, 1] freewheels) 0 = true ∧ stoQualified (discharger [0, 1] freewheels) = true ∧
    after (.safeDischargeWindings 8) (discharger [0, 1] freewheels) (fun t => (t.axis 0).core.sub == .discharge && t.disch.method == 2) = true := by decide +kernel
/-- Function 0 of a kind on SI0 and SI1, with SI2 and SI3, result 2 on AX0; TP0 used by SI0. -/
def inputs (kind : BitVec 8) (g : SafeIn → SafeIn) : State :=
  let s := running up [sysOne, section_ 0x21 0 (body 160 [(0, [1]), (12, [1]), (32, [kind, 2, 1, 0, 0, 1, if kind = 3 then 2 else 255, if kind = 3 then 3 else 255])]),
    section_ 0x22 0 (body 48 [(0, [1]), (12, [1]), (24, [3])])]
  { s with si := g s.si }
theorem test_safeInputSample : siRuns (inputs 1 id) = true ∧ siKind (inputs 1 id) 0 = 1 ∧
    after (.safeInputSample 2 2) (inputs 1 id) (fun t => t.si.filtered == 2 && t.si.raw == 2 && t.si.riseAt[1] == 5000000 && (t.fn 0).active) = true := by decide +kernel
theorem test_safeInputSample_fault : after (.safeInputSample 2 0) (inputs 1 fun x => { x with differ := x.differ.set 1 2 }) (fun t => t.si.fault && t.sto.intSet) = true := by decide +kernel
def differing (x : SafeIn) : SafeIn := { x with filtered := 1, fns := x.fns.set 0 { x.fns[0] with differAt := #v[some 5, none] } }
theorem test_siDiscrepancy : ticksOf (cfgF (inputs 1 id) secSafeIn 0 44) ≤ 4999995 ∧
    after (.siDiscrepancy 0 false) (inputs 1 differing) (fun t => (t.fn 0).lockDisc && (t.axis 0).saf.inSls) = true := by decide +kernel
theorem test_testPulse : bitAt (cfgU (inputs 1 id) secSafeIn 0 0 1) 0 = true ∧ tpMap (inputs 1 id) 0 = 1 ∧ siUses (inputs 1 id) 0 0 = true ∧
    after (.testPulse 0 false) (inputs 1 fun x => { x with raw := 1 }) (fun t => t.si.tpAt == some 5000000 && t.si.tpClosed == 1) = true ∧
    after (.testPulse 0 true) (inputs 1 fun x => { x with tpAt := some 5, tp := 0, tpClosed := 1, tpLow := 0, tpHigh := 1 }) (fun t => t.si.testFail == 1) = true := by decide +kernel
def firstHand (x : SafeIn) : SafeIn := { x with fns := x.fns.set 0 { x.fns[0] with firstAt := some 5 } }
def later (s : State) (now : Nat) : State := { s with clk := { s.clk with now := now } }
theorem test_twoHandSync : after (.twoHandSync 0) (later (inputs 3 firstHand) 60000000) (fun t => (t.fn 0).awaitRelease) = true := by decide +kernel
theorem test_safeInCrossCheck : pairAWorks (inputs 1 id) = true ∧ after (.safeInCrossCheck true) (inputs 1 fun x => { x with crossFails := 2 }) (fun t => t.si.crossFails == 0) = true ∧
    after (.safeInCrossCheck false) (inputs 1 fun x => { x with crossFails := 1 }) (fun t => t.si.crossFails == 2 && !t.si.fault) = true ∧
    after (.safeInCrossCheck false) (inputs 1 fun x => { x with crossFails := 2 }) (fun t => t.si.fault && t.sto.intSet && (t.fn 0).active) = true := by decide +kernel
def inputAsk (code : Nat) (payload : List Byte) (g : SafeIn → SafeIn) : State := withJob (inputs 4 g) code payload
theorem test_safeInputs : ready (inputAsk 0x0404 [] id) 8 0x0404 (job 0x0404 []) = true ∧ after (.safeInputs 8) (inputAsk 0x0404 [] fun x => { x with filtered := 7 }) (fun t => answerBytes8 t 2 == [7, 0]) = true := by decide +kernel
def pendingRestart (level : Nat) (x : SafeIn) : SafeIn := { x with filtered := level, fns := x.fns.set 0 { x.fns[0] with restart := true, active := true } }
theorem test_safeRestart : ready (inputAsk 0x0405 [0] id) 8 0x0405 (job 0x0405 [0]) = true ∧ siHealthy (inputAsk 0x0405 [0] (pendingRestart 3)) 0 = true ∧
    after (.safeRestart 8) (inputAsk 0x0405 [0] (pendingRestart 3)) (fun t => !(t.fn 0).restart && !(t.fn 0).active) = true ∧
    after (.safeRestart 8) (inputAsk 0x0405 [0] (pendingRestart 1)) (fun t => (t.fn 0).restart && answer8 t == evClearRefusedSourceActive) = true := by decide +kernel
def outOn (pulsing : Bool) (now : Nat) (f : SafeOut → SafeOut) : State :=
  let s := later (inputs 1 id) now
  { s with so := f { up.so with on := #v[true, true, true, true], driven := #v[true, true, true, true], pulsing := #v[pulsing, pulsing, pulsing, pulsing] } }
theorem test_soPulse : soUse (outOn false 0 id) 0 ≠ 0 ∧ firmwareUp (outOn false 100000000 id) = true ∧
    after (.soPulse 0 false) (outOn false 100000000 id) (fun t => t.so.pulsing[0] && !t.so.driven[0] && t.so.drivenAt[0] == 100000000) = true ∧
    after (.soPulse 0 true) (outOn true 100000000 id) (fun t => !t.so.pulsing[0] && t.so.testing[0]) = true := by decide +kernel
theorem test_soReadback_follows : after (.soReadbackFail 0 true) (outOn false 5000000 fun x => { x with testing := #v[true, false, false, false] })
    (fun t => t.so.shown[0] && t.so.pulses[0] == 1 && !t.so.failed[0]) = true := by decide +kernel
theorem test_soReadbackFail : after (.soReadbackFail 0 true) (outOn false 5000000 fun x => { x with driven := #v[false, true, true, true], shown := #v[false, true, true, true] }) (fun t => t.so.failed[0] && t.sto.intSet && t.so.reason[0] == 1) = true ∧
    after (.soReadbackFail 2 false) (outOn false 5000000 fun x => { x with shown := #v[true, true, true, true], strayAt := #v[none, none, some 5, none] })
      (fun t => t.so.failed[2] && t.so.noStart == 15 && t.so.reason[2] == 2) = true := by decide +kernel

/-! ## Lockstep, memories, engines -/

def paired2 (f : Lockstep → Lockstep) (g : LockPair → LockPair) : State :=
  let s := running up [sysOne]
  { s with lock := f { s.lock with pairs := s.lock.pairs.map g } }
theorem test_inLockstep : inLockstep (paired2 id id) false = true ∧ inLockstep (paired2 id id) true = true ∧ (paired2 id id).lock.pairs[0].firstClass = 0 := by decide +kernel
def cyc (parity : Nat) (reports : List (Fin 32 × Fin 4 × Fin 4)) : LockCycle := { parity := parity, slice := 2, reports := reports }
theorem test_cycleClass : cycleClass (cyc 0 [(3, 2, 0)]) = some (1, 3) ∧ cycleClass (cyc 1 [(3, 2, 0)]) = some (2, 2) ∧ cycleClass (cyc 0 [(3, 1, 2)]) = some (3, 3) ∧
    cycleClass (cyc 0 [(3, 1, 1)]) = none := by decide +kernel
theorem test_coreMismatch_A : after (.coreMismatch false (cyc 0 [(3, 2, 0)])) (paired2 id id) (fun t => t.mode == .safe && t.lock.pairAFailed && t.lock.pairs[0].firstGroup == 3 && t.host.outSystem) = true := by decide +kernel
def ranB : State := { ((paired2 id id).setAxis 0 (runs .runSpeed)) with mode := .run }
theorem test_delayParity_B : pairBAffects ranB 0 = true ∧ after (.delayParity true (cyc 1 [])) ranB (fun t => t.lock.takeover && t.mode == .run && t.lock.noStart == 1 && (t.axis 0).core.ss1Asked) = true := by decide +kernel
theorem test_comparatorDisagree : after (.comparatorDisagree true (cyc 0 [(2, 1, 2)])) ranB (fun t => t.lock.inhibit && t.lock.pairs[1].disagree && (t.axis 0).core.ss1Asked) = true ∧
    after (.comparatorDisagree true (cyc 0 [(2, 1, 2)])) (paired2 id fun p => { p with firstClass := 1 }) (fun t => !t.lock.inhibit && t.lock.pairs[1].later == 1) = true := by decide +kernel
def goodReports : List (Fin 4 × Fin 4) := [(2, 1), (0, 1), (1, 3), (1, 2)]
theorem test_runInjection : testGroup (paired2 id id) = some 0 ∧ after (.runInjection goodReports) (paired2 id id) (fun t => t.lock.nextGroup == 1 && t.lock.pairs[0].runTests == 1) = true ∧
    after (.runInjection (goodReports.drop 1)) (paired2 id id) (fun t => t.lock.inhibit && t.lock.pairs[0].testFail) = true := by decide +kernel
theorem test_registerSignature : after (.registerSignature true) (paired2 id id) (fun t => t.lock.pairs[1].regsigAt == 5000000 && t.lock.pairs[1].regsigRuns == 1) = true ∧
    after (.regsigLate false) (paired2 id id) (fun t => t.lock.inhibit && t.lock.pairs[0].testFail) = true := by decide +kernel
theorem test_diagPairB : ready (withJob (paired2 id id) 0x0805 [1]) 8 0x0805 (job 0x0805 [1]) = true ∧ splitSound (paired2 id id) = true ∧
    after (.diagPairBSplit 8 8000) (withJob (paired2 id id) 0x0805 [1]) (fun t => t.lock.splitDue && answer8 t == 0) = true ∧
    after (.diagPairBSplit 8 8001) (withJob (paired2 id id) 0x0805 [1]) (fun t => !t.lock.splitDue && answerBytes8 t 2 == leBytes 2 rsTakeover) = true ∧
    after (.diagPairBRejoin 8) (withJob (paired2 (fun l => { l with pairBSplit := true }) id) 0x0805 [0]) (fun t => t.lock.rejoin == 1 && answer8 t == 0) = true := by decide +kernel
theorem test_pairBSplit : after .pairBSplit (paired2 (fun l => { l with splitDue := true }) id) (fun t => t.lock.pairBSplit && t.lock.takeover) = true ∧
    after (.rejoinPartL none) (paired2 (fun l => { l with rejoin := 1 }) id) (fun t => t.lock.rejoin == 4) = true ∧
    after (.rejoinPartL (some 3)) (paired2 (fun l => { l with rejoin := 1 }) id) (fun t => t.lock.pairBFailed && t.lock.inhibit) = true ∧
    after .pairBRejoined (paired2 (fun l => { l with rejoin := 5, pairBSplit := true, takeover := true }) id) (fun t => !t.lock.pairBSplit && !t.lock.takeover) = true := by decide +kernel
def opened (s : State) : State := { s with sec := { s.sec with debugOpen := true } }
theorem test_debugHalt : after (.debugHalt false 0) (opened (paired2 id id)) (fun t => t.lock.dbgSplitA && t.lock.pairs[0].halted) = true ∧
    cfgBench ranB = false ∧ after (.debugHalt true 0) (opened ranB) (fun t => t.lock.pairs[1].haltHeld && (t.axis 0).core.ss1Asked && !t.lock.dbgSplitB) = true ∧
    after (.debugHalt true 8000) (opened (paired2 id id)) (fun t => t.lock.splitDue && t.lock.haltAfterSplit && !t.lock.pairs[1].halted) = true ∧
    after (.debugHalt true 8000) (opened (paired2 (fun l => { l with takeover := true }) id)) (fun t => t.lock.dbgSplitB && t.lock.pairs[1].halted) = true ∧
    after (.dbgSplit true) (paired2 id fun p => { p with haltHeld := true }) (fun t => t.lock.dbgSplitB && t.lock.pairs[1].halted) = true ∧
    after (.debugRelease true) (paired2 id fun p => { p with halted := true }) (fun t => !t.lock.pairs[1].halted) = true := by decide +kernel
theorem test_ecc : after (.eccUncorrectable (.sramBank 2) 8 [] true) up (fun t => t.ecc.corrected[2] == 1) = true ∧
    after (.eccUncorrectable (.sramBank 0) 8 [] false) (paired2 id id) (fun t => t.ecc.bad[0] == 1 && t.lock.pairAFailed && t.mode == .safe) = true ∧
    after (.eccUncorrectable (.engine 2) 8 [] false) up (fun t => t.rig.engines[2].failed && t.rig.migrating == [2]) = true := by decide +kernel
theorem test_scrubPass : after (.scrubPass [0, 0, 2] [7]) { up with ecc := { up.ecc with pool := [(7, 1), (9, 2)] } } (fun t => t.ecc.scrubs == 1 && t.ecc.pool == [(7, 1)] && t.ecc.corrected[2] == 2) = true := by decide +kernel
theorem test_captureFrozen : after (.captureFrozen 1) (up.setAxis 1 fun a => { a with cap := { a.cap with state := 2 } }) (fun t => (t.axis 1).cap.state == 3 && (t.axis 1).cap.store.length == 64) = true := by decide +kernel
def loaded (f : Engine → Engine) : State :=
  let s := onEngine (running up [sysOne, ctxs [(1, 0), (5, 0)]])
  { s with rig := { s.rig with engines := s.rig.engines.set 0 (f s.rig.engines[0]) } }
theorem test_engines : firmwareUp (loaded id) = true ∧ pairAWorks (loaded id) = true ∧ engineRuns (loaded id) (loaded id).rig.engines[0] = true ∧
    after (.engineSelftestCheck 2) (loaded id) (fun t => t.rig.engines[1].failed && !t.rig.engines[0].failed) = true ∧
    after (.contextOverrun 0 1) (loaded id) (fun t => t.rig.engines[0].overruns == 1 && !t.rig.engines[0].failed) = true ∧
    after (.contextOverrun 0 1) (loaded fun e => { e with overran := [1] }) (fun t => t.rig.engines[0].failed) = true ∧
    after (.reservationNotStarted 0) (loaded id) (fun t => t.rig.engines[0].failed && t.rig.engines[0].hung) = true := by decide +kernel
def migrating : State := { up with rig := { up.rig with migrating := [1, 2], declaredAt := [5, 5], plans := up.rig.plans.set 1 { up.rig.plans[1] with shed := 1, trip := 2 } } }
theorem test_contextMigrated : migrationDue migrating 5 = true ∧
    after (.contextMigrated 0) migrating (fun t => t.rig.migrating == [2] && t.rig.engines[1].stopped && (t.axis 0).core.shed && bitAt (t.axis 1).trip.src 21) = true := by decide +kernel
theorem test_fabric : starveLimit up < 50000 ∧ arbPresent up 3 = true ∧ after (.fabricStarved 3 50000) up (fun t => t.rig.starved == 1 && t.rig.maxWait[3] == 50000) = true ∧
    after (.fabricAccessFault 3 16) up (fun t => t.rig.accessFaults == 1 && t.rig.lastReq == 3) = true := by decide +kernel

/-! ## Host interface and configuration -/

theorem test_registerWrite : hspiActs up = true ∧ after (.registerWrite 5 32 []) up (fun t => t.host.hspiErr) = true ∧ outsideMap 0 4 = false ∧
    after (.registerWrite 2 32 (leBytes 4 0xA0000003)) up (fun t => t.host.maskSrc == 5 && t.host.maskDone == 3 && !t.host.hspiErr) = true ∧
    after (.registerWrite 2 32 [1]) up (fun t => t.host.hspiErr && t.host.maskDone == up.host.maskDone) = true := by decide +kernel
theorem test_registerRead : after (.registerWrite 0x0B 0 [0, 0, 0, 0, 0]) up (fun t => t.host.sdo.length == 6 && !t.host.hspiErr) = true ∧ inMap 0xFFFF = false ∧
    after (.registerWrite 0x0B 0x1604 [0, 0]) { up with host := { up.host with ram := [(0x1604, 7)] } } (fun t => t.host.sdo.drop 1 == [7, 0]) = true ∧
    after (.registerWrite 0x0B 0x3000 [0]) up (fun t => t.host.sdo.drop 1 == [0] && t.host.hspiErr) = true := by decide +kernel
theorem test_mailboxWrite : slotFree up 3 = true ∧ after (.mailboxWrite 0x1604 [7, 8]) up (fun t => cellsRead t.host.ram 0x1604 2 == [7, 8]) = true ∧
    slotFree { up with host := { up.host with done := 8 } } 3 = false ∧ after (.mailboxWrite 0x1604 [7, 8]) { up with host := { up.host with done := 8 } } (fun t => t.host.ram == [] && t.host.hspiErr) = true := by decide +kernel
theorem test_doorbell : mailServed up = true ∧ after (.doorbellRing 8) up (fun t => t.host.posted == [] && bitAt t.host.done 3) = true ∧
    mailServed (casting 7) = false ∧ after (.doorbellRing 8) (casting 7) (fun t => t.host.posted == [3]) = true ∧
    after (.doorbellRing 8) (casting 5) (fun t => t.host.posted == [] && t.host.hspiErr) = true := by decide +kernel
theorem test_w1c : after (.doneClear 1) { up with host := { up.host with done := 3 } } (fun t => t.host.done == 2) = true ∧
    after (.faultsumClear 0x01000000 0x00400000) { up with host := { up.host with logGap := true } } (fun t => !t.host.logGap && t.host.hspiErr) = true ∧
    after (.doorbellOutClear 0xC0000000 0x40000000) { up with host := { up.host with outSystem := true, outEvent := true } } (fun t => !t.host.outSystem && t.host.outEvent) = true := by decide +kernel
def hosted : State := { (running up [sysOne, section_ 2 0 (body 24 [(0, [10, 0, 255])])]) with mode := .run, axes := (up.setAxis 0 (runs .runSpeed)).axes }
theorem test_heartbeatLost : beatTimeout hosted = some 1000000 ∧ beatLate hosted 1000000 = true ∧ after .hostHeartbeatLost hosted (fun t => t.host.beatLost && (t.axis 0).core.ss1Asked) = true := by decide +kernel
def rateWindow (n : Nat) : State := later { up with host := { up.host with windows := [{ code := evEccCorrected, instance_ := 2, count := n, unit := 0xFF, rest := 0, opened := 5 }] } } 200000000
theorem test_rateWindow : after (.rateLimitWindowEnd evEccCorrected 2) (rateWindow 0) (fun t => t.host.windows == []) = true ∧
    after (.rateLimitWindowEnd evEccCorrected 2) (rateWindow 3) (fun t => t.host.windows.map (fun w => (w.count, w.opened)) == [(0, 200000000)]) = true := by decide +kernel
theorem test_sysStatus : ready (withJob (running up [sysOne]) 0x0101 []) 8 0x0101 (job 0x0101 []) = true ∧
    after (.sysStatus 8) (withJob (running up [sysOne]) 0x0101 []) (fun t => answer8 t == 0 && answerBytes8 t 4 == leBytes 4 (regMode up)) = true := by decide +kernel
theorem test_sysVersion : ready (withJob up 0x0102 []) 8 0x0102 (job 0x0102 []) = true ∧ romServes (withJob up 0x0102 []) = false := by decide +kernel
theorem test_sysTime : after (.sysTime 8) (withJob up 0x0106 []) (fun t => answerBytes8 t 8 == leBytes 8 4000000) = true := by decide +kernel
def queued : State := withJob { up with host := { up.host with events := [⟨0x0101, 0, 0xFF, 5, 6, false⟩, ⟨0x0102, 0, 0xFF, 5, 7, false⟩] } } 0x0107 [1]
theorem test_sysEvents : ready queued 8 0x0107 (job 0x0107 [1]) = true ∧ after (.sysEvents 8) queued (fun t => t.host.events.length == 1 && answerBytes8 t 6 == [1, 1, 0, 0, 1, 1]) = true := by decide +kernel
theorem test_sysHeartbeat : after (.sysHeartbeat 8) { (withJob up 0x0108 [1, 2, 3, 4]) with host := { (withJob up 0x0108 [1, 2, 3, 4]).host with beatLost := true, owedSpi := true, owedCan := false } }
    (fun t => !t.host.beatLost && t.host.beatSpi == 5000000 && answerBytes8 t 4 == [1, 2, 3, 4]) = true := by decide +kernel
def slots (a b : SlotState) (s : State) : State := { s with cfg := { s.cfg with slotA := { s.cfg.slotA with state := a }, slotB := { s.cfg.slotB with state := b } } }
def beginAsk : List Byte := [1, 0, 0, 0] ++ leBytes 4 512
theorem test_cfgWriteBegin : ready (slots .current .differing (withJob up 0x0201 beginAsk)) 8 0x0201 (job 0x0201 beginAsk) = true ∧
    after (.cfgWriteBegin 8) (slots .current .differing (withJob up 0x0201 beginAsk)) (fun t => t.cfg.slotB.state == .invalid && (runningJob t 8).isSome) = true ∧
    after (.cfgWriteBegin 8) (slots .pending .current (withJob up 0x0201 beginAsk)) (fun t => answer8 t == evBadParameter) = true := by decide +kernel
def started (s : State) (code : Nat) (payload : List Byte) : State := { s with host := { s.host with jobs := [{ job code payload with started := true }] } }
theorem test_writeBegin_done : after (.longCommandComplete 8) (started up 0x0201 beginAsk) (fun t => t.cfg.writing == some (true, 512) && answer8 t == 0) = true := by decide +kernel
def writing (code : Nat) (payload : List Byte) : State := let s := withJob up code payload; { s with cfg := { s.cfg with writing := some (false, 8) } }
theorem test_cfgWriteData : ready (writing 0x0202 [4, 0, 0, 0, 1, 2, 3, 4]) 8 0x0202 (job 0x0202 [4, 0, 0, 0, 1, 2, 3, 4]) = true ∧
    after (.cfgWriteData 8) (writing 0x0202 [4, 0, 0, 0, 1, 2, 3, 4]) (fun t => t.cfg.slotA.bytes == [0xFF, 0xFF, 0xFF, 0xFF, 1, 2, 3, 4] && answer8 t == 0) = true ∧
    after (.cfgWriteData 8) (writing 0x0202 [8, 0, 0, 0, 1, 2, 3, 4]) (fun t => answer8 t == evBadParameter) = true := by decide +kernel
theorem test_cfgWriteEnd : ready (writing 0x0203 [0]) 8 0x0203 (job 0x0203 [0]) = true ∧ after (.cfgWriteEnd 8) (writing 0x0203 [0]) (fun t => (runningJob t 8).isSome) = true ∧
    (loadCheck (writing 0x0203 [0]) (slotImg (writing 0x0203 [0]).cfg.slotA) none).isSome = true ∧ (runningJob (started up 0x0203 [0]) 8).isSome = true := by decide +kernel
theorem test_cfgDigest_hyps : ready (withJob (running up [sysOne]) 0x0204 [0]) 8 0x0204 (job 0x0204 [0]) = true ∧ (digestSet (running up [sysOne]) 0).isSome = true := by decide +kernel
theorem test_cfgStage : ready (slots .pending .current (withJob up 0x0205 [0])) 8 0x0205 (job 0x0205 [0]) = true ∧
    after (.cfgStage 8) (slots .pending .current (withJob up 0x0205 [0])) (fun t => (runningJob t 8).isSome) = true ∧
    after (.cfgStage 8) (slots .current .current (withJob up 0x0205 [0])) (fun t => answer8 t == evBadParameter) = true ∧
    after (.longCommandComplete 8) (started up 0x0205 [0]) (fun t => t.cfg.shadow == none && t.cfg.slotA.state == .invalid) = true := by decide +kernel
theorem test_cfgDiscard : ready (slots .pending .current (withJob up 0x0207 [])) 8 0x0207 (job 0x0207 []) = true ∧
    after (.cfgDiscard 8) { (slots .pending .current (withJob up 0x0207 [])) with cfg := { (slots .pending .current (withJob up 0x0207 [])).cfg with shadow := some [1] } } (fun t => t.cfg.slotA.state == .copying && t.cfg.shadow == none) = true := by decide +kernel
theorem test_twinCopyDone : after .twinCopyDone (slots .copying .current (running up [sysOne])) (fun t => t.cfg.slotA.state == .current && t.cfg.slotA.bytes.length == 152) = true ∧
    after .twinCopyDone (slots .current .copying (running up [sysOne])) (fun t => t.cfg.slotB.state == .current) = true := by decide +kernel
def sysNext : List Byte := image [section_ 1 0 (body 16 [(4, [3])])]
def tackable (code : Nat) (payload : List Byte) : State :=
  let s := withJob (running up [sysOne]) code payload
  { s with cfg := { s.cfg with shadow := some (sysNext.take 4 ++ leBytes 4 0 ++ sysNext.drop 8) } }
theorem test_cfgTack_refused : ready (withJob up 0x0206 [0, 0, 0, 0, 9, 0, 0, 0]) 8 0x0206 (job 0x0206 [0, 0, 0, 0, 9, 0, 0, 0]) = true ∧ tackReason up 9 false = some 1 ∧
    after (.cfgTack 8) (withJob up 0x0206 [0, 0, 0, 0, 9, 0, 0, 0]) (fun t => answer8 t == evTackRefused && answerBytes8 t 2 == [1, 0]) = true := by decide +kernel
theorem test_cfgTack : tackReason (tackable 0x0206 (List.replicate 8 0)) 0 false = none ∧ (tackable 0x0206 []).ring.role ≠ .master ∧
    after (.cfgTack 8) (tackable 0x0206 (List.replicate 8 0)) (fun t => t.cfg.tack.isSome && t.cfg.shadow.isSome) = true := by decide +kernel
def tacking (ts : Nat) : State := let s := tackable 0 []; { s with cfg := { s.cfg with tack := some ⟨ts, 0, false⟩ } }
theorem test_tackSwap_hyps : (tacking 4000000).cfg.tack.isSome = true ∧ (tacking 4000000).cfg.active.isSome = true ∧ (tacking 4000000).cfg.shadow.isSome = true ∧ (tacking 4000000).cfg.prev = none := by decide +kernel
theorem test_tackSwap_early : after .tackSwap (tacking 4000001) (fun t => t.cfg.shadow.isSome) = true := by decide +kernel

/-! ## Diagnostics and the drive log -/

theorem test_diagSelftest : ready (withJob up 0x0801 []) 8 0x0801 (job 0x0801 []) = true ∧ unitPresent up 0 = true ∧ unitPresent up 5 = false := by decide +kernel
def readMap (map off n : Nat) : List Byte := leBytes 4 map ++ leBytes 4 off ++ [BitVec.ofNat 8 n]
theorem test_diagMapRead : ready (withJob up 0x0802 (readMap 0x111 5 1)) 8 0x0802 (job 0x0802 (readMap 0x111 5 1)) = true ∧
    after (.diagMapRead 8) (withJob { up with log := { up.log with droppedTotal := 9 } } 0x0802 (readMap 0x111 5 1)) (fun t => answer8 t == 0 && answerBytes8 t 8 == [1, 0, 0, 0, 9, 0, 0, 0]) = true ∧
    after (.diagMapRead 8) (withJob up 0x0802 (readMap 0x121 0 1)) (fun t => answer8 t == evBadParameter) = true ∧
    after (.diagMapRead 8) (withJob up 0x0802 (readMap 0x111 0 124)) (fun t => answer8 t == evBadParameter) = true := by decide +kernel
def writeMap (map off v : Nat) : List Byte := leBytes 4 map ++ leBytes 4 off ++ leBytes 4 v
def serviced (dropped : Nat) (payload : List Byte) : State := withJob { up with mode := .service, log := { up.log with droppedTotal := dropped } } 0x0803 payload
theorem test_diagMapWrite : ready (serviced 9 (writeMap 0x111 6 1)) 8 0x0803 (job 0x0803 (writeMap 0x111 6 1)) = true ∧
    after (.diagMapWrite 8) (serviced 9 (writeMap 0x111 6 1)) (fun t => answer8 t == 0 && t.log.droppedTotal == 0) = true ∧
    after (.diagMapWrite 8) (serviced 9 (writeMap 0x111 5 1)) (fun t => answer8 t == evBadParameter && t.log.droppedTotal == 9) = true := by decide +kernel
def captured : State := up.setAxis 0 fun a => { a with cap := { a.cap with state := 3, later := 0x0102, store := [0x54, 0x43, 0x38, 0x43] } }
def capAsk (off len : Nat) : List Byte := leBytes 4 off ++ leBytes 2 len
theorem test_diagCapture : ready (withJob captured 0x0804 (capAsk 1 3)) 8 0x0804 (job 0x0804 (capAsk 1 3)) = true ∧
    (captured.axis 0).cap.store[1]? = some 0x43 ∧ captureByte captured 1 0 = 0x43 ∧ captureByte captured 20 0 = 2 ∧ captureByte captured 21 0 = 1 ∧ captureByte captured 23 0 = 3 ∧
    after (.diagCapture 8) (withJob captured 0x0804 (capAsk 0x100000 1)) (fun t => answer8 t == evBadParameter) = true := by decide +kernel
/-- A log with a region of 128 records in sectors of 64. -/
def logged : State := running up [sysOne, section_ 7 0 (body 48 [(8, leBytes 4 8192), (12, leBytes 4 4096)])]
def aRecord (i : Nat) : LogRecord := { index := i, time := 7, rtc := 1, type := 0x0010, severity := 1, unit := 0xFF, link := List.replicate 8 0, body := List.replicate 32 0 }
def stagedLog (i : Nat) : State := { logged with log := { logged.log with staged := [aRecord i], next := i + 1 } }
theorem test_logFlush : regionRecords (stagedLog 5) = 128 ∧ storeAccepts (stagedLog 5) 5 0 0 = true ∧ storeAccepts (stagedLog 5) 5 0 1 = false ∧
    after (.logFlush 0 0) (stagedLog 5) (fun t => t.log.region == [aRecord 5] && t.log.staged == [] && t.log.storeOk && t.log.writeAt == 5000000) = true ∧
    after (.logFlush 0 1) (stagedLog 5) (fun t => t.log.region == [] && t.log.staged == [aRecord 5] && !t.log.storeOk) = true := by decide +kernel
theorem test_logStall_hyps : (stagedLog 5).log.staged ≠ [] ∧ firmwareUp (stagedLog 5) = true ∧ (stagedLog 5).log.writeAt + ticksOf (cfgF (stagedLog 5) secLog 0 32) ≤ (stagedLog 5).clk.now := by decide +kernel
theorem test_checkpointSigned : after .checkpointSigned { up with log := { up.log with signing := true, blockFirst := some 3, next := 257, chain := [1, 2] } }
    (fun t => t.log.ckpts == [⟨3, 258, [1, 2], List.replicate 64 0⟩] && t.log.blockFirst == none && !t.log.signing) = true := by decide +kernel
theorem test_countersRecord_hyps : firmwareUp up = true ∧ pairBTasksWork up = true ∧ up.log.resumed = true ∧ up.log.countersAt + ticksOf (cfgF up secLog 0 28) ≤ up.clk.now := by decide +kernel
theorem test_logInfo : ready (withJob (stagedLog 5) 0x0501 []) 8 0x0501 (job 0x0501 []) = true ∧
    after (.logInfo 8) (withJob (stagedLog 5) 0x0501 []) (fun t => answerBytes8 t 20 == leBytes 8 5 ++ leBytes 8 5 ++ leBytes 4 0) = true := by decide +kernel
theorem test_logRead : ready (withJob (stagedLog 5) 0x0502 (leBytes 8 5 ++ [2])) 8 0x0502 (job 0x0502 (leBytes 8 5 ++ [2])) = true ∧
    after (.logRead 8) (withJob (stagedLog 5) 0x0502 (leBytes 8 5 ++ [2])) (fun t => t.log.exporting && bitAt t.host.done 8) = true ∧
    after (.logRead 8) (withJob (stagedLog 5) 0x0502 (leBytes 8 4 ++ [2])) (fun t => answer8 t == evBadParameter) = true := by decide +kernel
theorem test_logExported : ready (withJob (stagedLog 5) 0x0503 (leBytes 8 6)) 8 0x0503 (job 0x0503 (leBytes 8 6)) = true ∧
    after (.logExported 8) (withJob { (stagedLog 5) with log := { (stagedLog 5).log with exporting := true } } 0x0503 (leBytes 8 6)) (fun t => t.log.exported == 6 && !t.log.exporting) = true ∧
    after (.logExported 8) (withJob (stagedLog 5) 0x0503 (leBytes 8 7)) (fun t => answer8 t == evBadParameter && t.log.exported == 0) = true := by decide +kernel
theorem test_logCheckpoint : after (.logCheckpoint 8) (withJob { (stagedLog 5) with log := { (stagedLog 5).log with ckpts := [⟨5, 9, [1], [2]⟩] } } 0x0504 (leBytes 8 6)) (fun t => answerBytes8 t 10 == leBytes 8 5 ++ [1, 2]) = true ∧
    ready (withJob up 0x0504 (leBytes 8 6)) 8 0x0504 (job 0x0504 (leBytes 8 6)) = true := by decide +kernel
theorem test_logCounters : ready (withJob (running up [sysOne]) 0x0505 [0]) 8 0x0505 (job 0x0505 [0]) = true ∧
    after (.logCounters 8) (withJob { (running up [sysOne]) with log := { up.log with counters := up.log.counters.set 0 { Counters.reset with motorWh := 9 } } } 0x0505 [0]) (fun t => answerBytes8 t 16 == leBytes 8 0 ++ leBytes 8 9) = true := by decide +kernel
theorem test_exportTimeout : after .exportTimeout { (later up 1000000000) with log := { up.log with exporting := true } } (fun t => !t.log.exporting) = true ∧
    after .exportTimeout { (later up 999999999) with log := { up.log with exporting := true } } (fun t => t.log.exporting) = true := by decide +kernel

/-! ## Security -/

/-- A device with every tamper source enabled, a log key and a nonce of each purpose. -/
def meshed (encErase : Bool) : State := { up with sec := { up.sec with
  tamperCfg := (if encErase then 31 else 15), logKey := some 5, canary := true, life := .development, debugOpen := true
  nonces := Vector.replicate 3 (some ⟨List.replicate 16 1, 4999999⟩) } }
theorem test_tamper_hyps : bitAt (meshed true).sec.tamperCfg 0 = true ∧ bitAt (meshed true).sec.tamperCfg 1 = true ∧ (meshed true).power.seated = true ∧ bitAt (meshed false).sec.tamperCfg 2 = true ∧
    bitAt (meshed false).sec.tamperCfg 3 = true ∧ bitAt (meshed false).sec.tamperCfg 4 = false ∧ after (.tamperMesh false true) up (fun t => !t.sec.locked) = true ∧ after (.tamperEnclosure true true) up (fun t => !t.sec.locked) = true := by decide +kernel
/-- The same before firmware runs: the report waits, and the effect can be seen. -/
def meshedEarly (encErase : Bool) : State := { (meshed encErase) with boot := (casting 3).boot, mode := .boot }
def sampled (encErase : Bool) (mesh enc temp : Nat) : State :=
  let s := meshedEarly encErase
  { s with sec := { s.sec with meshRun := #v[mesh, mesh], encRun := #v[enc, enc], tempRun := temp } }
theorem test_tamperMesh_released : after (.tamperMesh false true) { (sampled false 1 3 1) with sec := { (sampled false 1 3 1).sec with meshFirst := #v[true, false] } }
    (fun t => !t.sec.locked && !t.sec.meshFirst[0]) = true := by decide +kernel
theorem test_tamperMesh : meshSampled (sampled false 1 3 1) = true ∧ (sampled false 1 3 1).sec.meshFirst[1] = false ∧
    after (.tamperMesh true true) (sampled false 1 3 1) (fun t => t.sec.erased && t.sec.locked && t.sec.logKey == none && t.sec.tamperHeld == 2 ^ 31 && t.sec.nonces[0] == none) = true ∧
    after (.tamperMesh true true) (sampled false 0 3 1) (fun t => !t.sec.locked && t.sec.meshRun[1] == 1) = true ∧
    after (.tamperMesh true false) (sampled false 1 3 1) (fun t => !t.sec.locked && t.sec.meshRun[1] == 0) = true := by decide +kernel
theorem test_tamperLight : after .tamperLight (meshedEarly false) (fun t => t.sec.erased && t.sec.tamperHeld == 2 ^ 29) = true := by decide +kernel
theorem test_tamperEnclosure : bitAt (sampled false 1 3 1).sec.tamperCfg 5 = false ∧
    after (.tamperEnclosure false false) (sampled false 1 3 1) (fun t => t.sec.locked && !t.sec.erased && t.sec.logKey == some 5 && t.sec.tamperHeld == 2 ^ 27) = true ∧
    after (.tamperEnclosure false false) (sampled true 1 3 1) (fun t => t.sec.erased && t.sec.logKey == none) = true ∧
    after (.tamperEnclosure false false) (sampled true 1 2 1) (fun t => !t.sec.locked && t.sec.encRun[0] == 3) = true ∧
    after (.tamperEnclosure false true) (sampled true 1 3 1) (fun t => !t.sec.locked && t.sec.encRun[0] == 0) = true := by decide +kernel
theorem test_tamperTemperature : after (.tamperTemperature 166) (sampled false 1 3 1) (fun t => t.sec.locked && !t.sec.erased && !t.sec.debugOpen && t.sec.tamperHeld == 2 ^ 26) = true ∧
    after (.tamperTemperature (-56)) (sampled false 1 3 0) (fun t => !t.sec.locked && t.sec.tempRun == 1) = true ∧
    after (.tamperTemperature 165) (sampled false 1 3 1) (fun t => !t.sec.locked && t.sec.tempRun == 0) = true := by decide +kernel
theorem test_tamperGlitch : after (.tamperGlitch true) { (meshedEarly false) with sec := { (meshedEarly false).sec with glitchTimes := [0, 0] } } (fun t => t.sec.locked && t.sec.suspended && t.sec.glitchReset && !t.sec.erased) = true ∧
    after (.tamperGlitch false) (meshedEarly false) (fun t => !t.sec.locked && t.sec.glitchTotal == 1) = true ∧ up.mode ≠ .sleep ∧ up.power.inReset = false := by decide +kernel
def glitched : State := { up with sec := { up.sec with glitchReset := true } }
theorem test_glitchReset : after .glitchReset glitched (fun t => t.boot.phase == 1 && t.boot.wakeCause == 6) = true ∧
    after .glitchReset ({ (running glitched [sysOne]) with axes := (up.setAxis 0 (runs .runSpeed)).axes }) (fun t => t.boot.phase == 15) = true := by decide +kernel
theorem test_secChallenge : ready (withJob up 0x0901 [2]) 8 0x0901 (job 0x0901 [2]) = true ∧ (job 0x0901 [2]).u 0 1 = 2 ∧ after (.secChallenge 8) (withJob up 0x0901 [3]) (fun t => answer8 t == evBadParameter) = true := by decide +kernel
theorem test_secUnlock : ready (withJob up 0x0902 []) 8 0x0902 (job 0x0902 []) = true ∧ after (.secUnlock 8) (withJob up 0x0902 []) (fun t => answer8 t == evAuthRequired) = true ∧
    (nonceOf (withJob (meshed false) 0x0902 []) 0).isSome = true := by decide +kernel
theorem test_secClearLock : ready (withJob up 0x0903 []) 8 0x0903 (job 0x0903 []) = true ∧ after (.secClearLock 8) (withJob up 0x0903 []) (fun t => answer8 t == evAuthRequired) = true ∧
    (nonceOf (withJob (meshed false) 0x0903 []) 1).isSome = true := by decide +kernel
theorem test_secCert : ready (withJob up 0x0904 []) 8 0x0904 (job 0x0904 []) = true ∧ after (.secCert 8) (withJob up 0x0904 []) (fun t => answer8 t == evAuthRequired) = true ∧
    after (.secCert 8) (withJob { up with sec := { up.sec with locked := true } } 0x0904 []) (fun t => answerBytes8 t 2 == leBytes 2 rsLocked) = true ∧
    nonceOf (meshed false) 2 = some (slice (List.replicate 216 1) 24 16) := by decide +kernel
theorem test_secStatus : after (.secStatus 8) (withJob { up with sec := { up.sec with tamperHeld := 2 ^ 29 } } 0x0905 []) (fun t => answerBytes8 t 8 == leBytes 4 (regLifecycle up) ++ leBytes 4 (2 ^ 29)) = true := by decide +kernel
theorem test_lifecycleFuseWrite : after (.lifecycleFuseWrite true) (meshed false) (fun t => t.sec.life == .scrapped && !t.sec.debugOpen && t.sec.fuses.identityKey == 2 ^ 256 - 1) = true ∧
    after (.lifecycleFuseWrite false) { (meshed false) with sec := { (meshed false).sec with fuses := { up.sec.fuses with fwKeyHash := [1], cfgKeyHash := [1], authKeyHash := [1], fekFused := true } } } (fun t => t.sec.life == .production && !t.sec.debugOpen) = true := by decide +kernel
theorem test_vbatLoss : after .vbatLoss { (stagedLog 5) with sec := { up.sec with logKey := some 5, certFloor := 3 } } (fun t => t.log.staged == [] && t.log.next == 6 && t.sec.logKey == none && t.sec.certFloor == 0 && t.clk.rtc == 0) = true ∧
    after .x32CrystalSwitch up (fun t => t.power.crystal) = true := by decide +kernel

/-! ## CAN -/

/-- A CAN section: its first 72 bytes, filled up, and the first two buffer entries. -/
def canBody (head b0 b1 : List Byte) : List Byte := head ++ (List.replicate (1856 - head.length) 0 ++ (b0 ++ (b1 ++ List.replicate (4096 - b0.length - b1.length) 0)))
def canFirst (flags : Byte) (filter : List Byte) : List Byte :=
  [flags, 0, 2, 0] ++ List.replicate 18 0 ++ [if filter.isEmpty then 0 else 1, 0, 0, 0, 0, 3] ++ List.replicate 12 0 ++ [2] ++ List.replicate 23 0 ++ filter
def canSys (flags : Byte) (filter : List Byte) (rx : List Byte) : List Byte := section_ 0x30 0 (canBody (canFirst flags filter)
  ([1, 0, 0, 0] ++ leBytes 4 0x123 ++ leBytes 2 8 ++ leBytes 2 0 ++ leBytes 4 50) ([2, 0] ++ rx ++ leBytes 4 0x124 ++ leBytes 2 10 ++ leBytes 2 8 ++ leBytes 4 60))
/-- CAN0 online with a TX buffer (0) and a SAFETY RX buffer (1) that ramps axis AX0. -/
def onBus : State :=
  let s := running up [sysOne, canSys 1 [] [1, 1]]
  s.setCan 0 fun c => { c with link := .online, descs := canDescs s 0 }
def frameOf (data : List Byte) : CanFrame :=
  { extended := false, ident := 0x124, format := 1, data := data, brs := false, esi := false, rtr := false, sec := false, af := 0, sdt := 0, vcid := 0, stamp := 77, sof := 88 }
def onDesc (b : Nat) (f : CanDesc → CanDesc) : State := onBus.setDesc 0 b f
theorem test_can_config : canListens onBus 0 = true ∧ (onBus.canCtl 0).pexc = false ∧ canFlag onBus 0 0 = true ∧ canXl onBus 0 = false ∧ canFlag onBus 0 4 = false ∧
    canFlag onBus 0 6 = false ∧ canPresent onBus 0 = true ∧ bufKind onBus 0 0 = 1 ∧ bufKind onBus 0 1 = 2 ∧ bufLifetime onBus 0 0 = 50 ∧ (onBus.canCtl 0).descs.length = 2 := by decide +kernel
theorem test_canRx_pexc : after (.canRxFrame 0 { frameOf [] with format := 2 } 0) onBus (fun t => (t.canCtl 0).pexc && (t.canCtl 0).pexcs == 1) = true := by decide +kernel
theorem test_canRx_none : (canFilter onBus 0 (frameOf [])).action = 0 ∧ after (.canRxFrame 0 (frameOf [1]) 0) onBus (fun t => t.can.ram == [] && (t.canCtl 0).rec_ == 0) = true := by decide +kernel
/-- The same with every frame stored to buffer 0 by one filter entry. -/
def filtered (flags : List Byte) : State :=
  let s := running up [sysOne, canSys 1 (leBytes 4 (0x90010000 + 0x124) ++ leBytes 4 0) flags]
  s.setCan 0 fun c => { c with link := .online, descs := canDescs s 0 }
theorem test_canRx_store : (canFilter (filtered [0, 0]) 0 (frameOf [])).action = 1 ∧ (canFilter (filtered [0, 0]) 0 (frameOf [])).target = 1 ∧
    after (.canRxFrame 0 (frameOf [9]) 0) (filtered [0, 0]) (fun t => cellsRead t.can.ram (slotBase 10 + 24) 1 == [9] && (canDesc t 0 1).map (·.req) == some true) = true := by decide +kernel
def safetyData (ctr : Byte) (bad : Nat) : List Byte :=
  let d : List Byte := [0, 0, ctr, 0, 1, 2, 3, 4]
  leBytes 2 ((e2eCrc (filtered [1, 1]) 0 1 d + bad) % 65536) ++ d.drop 2
def validSafety : State := (filtered [1, 1]).setDesc 0 1 fun d => { d with valid := true, counter := 5, okRun := 2, timing := true, acceptedAt := 39900 }
theorem test_e2e_hyps : bufFlag validSafety 0 1 0 = true ∧ (canDesc validSafety 0 1).map (·.valid) = some true ∧ bufU validSafety 0 1 10 2 = 8 ∧ canU validSafety 0 27 1 = 3 ∧
    fieldU (safetyData 6 0) 0 2 = e2eCrc validSafety 0 1 (safetyData 6 0) ∧ bufKind validSafety 0 1 = 2 := by decide +kernel
theorem test_e2e_step : after (.canRxFrame 0 (frameOf (safetyData 6 0)) 0) validSafety (fun t => (canDesc t 0 1).map (fun d => (d.valid, d.counter)) == some (true, 6)) = true := by decide +kernel
theorem test_e2e_jump : after (.canRxFrame 0 (frameOf (safetyData 9 0)) 0) validSafety (fun t => (canDesc t 0 1).map (·.valid) == some false && (t.canCtl 0).e2eFails == 1) = true := by decide +kernel
theorem test_e2e_crc : after (.canRxFrame 0 (frameOf (safetyData 6 1)) 0) validSafety (fun t => (canDesc t 0 1).map (·.valid) == some true && (t.canCtl 0).e2eFails == 1) = true := by decide +kernel
def validRunning : State := { validSafety with axes := (up.setAxis 0 (runs .runSpeed)).axes }
theorem test_e2eTimeout : bufLifetime validRunning 0 1 = 60 ∧ refGroup validRunning 0 1 = none ∧ bufAxis validRunning 0 1 0 = true ∧ pairBTasksWork validRunning = true ∧
    after (.e2eTimeout 0 1) validRunning (fun t => (canDesc t 0 1).map (·.valid) == some false && (t.axis 0).core.ss1Asked) = true := by decide +kernel
def shadowed : State := onDesc 1 fun d => { d with lock := true, shadowFull := true, slot := 10, shadow := 11 }
theorem test_rxLock : after (.rxLock 0 ⟨1, 0⟩ true) onBus (fun t => (canDesc t 0 1).map (·.lock) == some true) = true ∧
    after (.rxLock 0 ⟨1, 2 ^ 29⟩ false) shadowed (fun t => (canDesc t 0 1).map (fun d => (d.lock, d.slot, d.shadow, d.req)) == some (false, 11, 10, true)) = true ∧
    after (.rxLock 0 ⟨1, 2 ^ 29⟩ false) (onDesc 1 fun d => { d with req := true }) (fun t => (canDesc t 0 1).map (·.req) == some false) = true := by decide +kernel
theorem test_txreq : after (.txreq 0 ⟨0, 0⟩) onBus (fun t => (canDesc t 0 0).map (fun d => (d.req, d.enq)) == some (true, 40000)) = true ∧ (canDesc onBus 0 0).map (·.req) = some false := by decide +kernel
/-- TX buffer 0 is protected. -/
def protectedTx : State :=
  let s := running up [sysOne, section_ 0x30 0 (canBody (canFirst 1 []) ([1, 0, 1, 0] ++ leBytes 4 0x123 ++ leBytes 2 8 ++ leBytes 2 8 ++ leBytes 4 50) [])]
  s.setCan 0 fun c => { c with link := .online, descs := (canDescs s 0).map fun d => { d with counter := 255, sent := true } }
theorem test_txreq_safety : bufFlag protectedTx 0 0 0 = true ∧ after (.txreq 0 ⟨0, 2 ^ 26⟩) protectedTx (fun t => (canDesc t 0 0).map (fun d => (d.counter, d.sent)) == some (0, false) &&
    fieldU (cellsRead t.can.ram (slotBase 8 + 24) 8) 0 2 == e2eCrc protectedTx 0 0 (List.replicate 8 0) && cellsRead t.can.ram (slotBase 8) 8 == leBytes 4 8 ++ leBytes 4 0x123) = true := by decide +kernel
def sendingNow : State := onDesc 0 fun d => { d with req := true, enq := 39950 }
theorem test_cancel : canPending sendingNow 0 0 = true ∧ after (.cancelReq 0 ⟨0, 0⟩ false) sendingNow (fun t => (canDesc t 0 0).map (·.cancelled) == some true && (t.canCtl 0).txCancelled == 1) = true ∧
    after (.cancelReq 0 ⟨0, 0⟩ true) sendingNow (fun t => canPending t 0 0 && (canDesc t 0 0).map (·.cancelDue) == some true) = true ∧ canPending onBus 0 0 = false := by decide +kernel
def arbitrated : State := (onDesc 0 fun d => { d with req := true, enq := 39950, reqAt := 3999000 }).setCan 0 fun c => { c with tec := 3 }
theorem test_txComplete : canTalks arbitrated 0 = true ∧ canHead arbitrated 0 0 3999500 = true ∧
    after (.canTxComplete 0 0 7 3999500) arbitrated (fun t => (canDesc t 0 0).map (·.sent) == some true && (t.canCtl 0).tec == 2 &&
      cellsRead t.can.ram (slotBase 8 + 16) 8 == leBytes 4 39995 ++ leBytes 4 3999500) = true := by decide +kernel
theorem test_txComplete_not_head : canHead arbitrated 0 0 3998999 = false ∧ after (.canTxComplete 0 0 7 3998999) arbitrated (fun t => canPending t 0 0) = true := by decide +kernel
theorem test_can_fabric : canTalks { onBus with clk := { onBus.clk with lost := 2 } } 0 = false ∧ canListens { onBus with clk := { onBus.clk with lost := 2 } } 0 = true := by decide +kernel
/-- The host's controller is CAN0, with a lifetime of 50 units, and one response waits. -/
def hostOn : State :=
  let s := running up [sysOne, section_ 2 0 (body 24 [(2, [0]), (20, leBytes 4 50)]), canSys 1 [] [1, 1]]
  { s.setCan 0 fun c => { c with link := .online, tec := 3, descs := canDescs s 0 } with
    host := { s.host with canOut := [⟨false, 0x200, false, [1, 2], 39950, false⟩] } }
theorem test_hostTx : hostCan hostOn = some 0 ∧ hostU hostOn 20 4 = 50 ∧ canListens hostOn 0 = true ∧ canTalks hostOn 0 = true ∧ canFlag hostOn 0 4 = false ∧
    canFlag hostOn 0 6 = false ∧ after (.canTxComplete 0 256 0 0) hostOn (fun t => t.host.canOut == [] && (t.canCtl 0).tec == 2) = true ∧
    after (.txExpired 0 256 false) hostOn (fun t => t.host.canOut == [] && (t.canCtl 0).txExpired == 1) = true ∧
    after (.txExpired 0 256 true) hostOn (fun t => t.host.canOut.map (·.due) == [true]) = true := by decide +kernel
/-- CAN0 does not exist. -/
def noCan : State := { onBus with sec := { onBus.sec with fuses := { onBus.sec.fuses with units := onBus.sec.fuses.units &&& (2 ^ 32 - 1 - 256) } } }
theorem test_can_absent : canPresent noCan 0 = false ∧ after (.txreq 0 ⟨0, 0⟩) noCan (fun t => t.rig.accessFaults == 1 && t.can == noCan.can) = true := by decide +kernel
theorem test_txExpired : after (.txExpired 0 0 false) sendingNow (fun t => (canDesc t 0 0).map (·.expired) == some true && (t.canCtl 0).txExpired == 1) = true ∧
    after (.txExpired 0 0 true) sendingNow (fun t => canPending t 0 0 && (canDesc t 0 0).map (·.expireDue) == some true) = true ∧
    after (.txExpired 0 0 false) (onDesc 0 fun d => { d with req := true, enq := 39951 }) (fun t => canPending t 0 0) = true := by decide +kernel
theorem test_busError : after (.canBusError 0 true false 1 0) (onBus.setCan 0 fun c => { c with tec := 248 }) (fun t => (t.canCtl 0).tec == 256 && (t.canCtl 0).busOff && (t.canCtl 0).recovering) = true ∧
    after (.canBusError 0 true false 1 0) (onBus.setCan 0 fun c => { c with tec := 247 }) (fun t => (t.canCtl 0).tec == 255 && !(t.canCtl 0).busOff) = true ∧
    after (.canBusError 0 false true 2 0) onBus (fun t => (t.canCtl 0).rec_ == 8 && (t.canCtl 0).lastError == 2) = true := by decide +kernel
def offBus : State := onBus.setCan 0 fun c => { c with busOff := true, recovering := true, tec := 256 }
theorem test_canRecovered : after (.canRecovered 0) offBus (fun t => !(t.canCtl 0).busOff && (t.canCtl 0).tec == 0) = true ∧ after (.canRecovered 0) onBus (fun t => (t.canCtl 0).tec == 0) = true := by decide +kernel
theorem test_busIntegration : canRuns onBus 0 = true ∧ after (.busIntegration 0) (onBus.setCan 0 fun c => { c with link := .integrating, pexc := true, test := 2 }) (fun t => (t.canCtl 0).link == .online && !(t.canCtl 0).pexc && (t.canCtl 0).test == 0) = true := by decide +kernel
theorem test_canStatus : ready (withJob offBus 0x0601 [0]) 8 0x0601 (job 0x0601 [0]) = true ∧ after (.canStatus 8) (withJob offBus 0x0601 [0]) (fun t => answerBytes8 t 4 == [2, 0, 0, 1]) = true := by decide +kernel
def waitsHost : State :=
  let s := running up [sysOne, canSys 32 [] [1, 1]]
  s.setCan 0 fun c => { c with busOff := true, waitHost := true, tec := 256 }
theorem test_canRecover : ready (withJob waitsHost 0x0602 [0]) 8 0x0602 (job 0x0602 [0]) = true ∧ canFlag waitsHost 0 5 = true ∧
    after (.canRecover 8) (withJob waitsHost 0x0602 [0]) (fun t => (t.canCtl 0).recovering && answer8 t == 0) = true ∧
    after (.canRecover 8) (withJob onBus 0x0602 [0]) (fun t => answer8 t == evBadParameter) = true := by decide +kernel
theorem test_canSelftest : ready (withJob onBus 0x0603 [0, 0]) 8 0x0603 (job 0x0603 [0, 0]) = true ∧ ready (withJob onBus 0x0603 [0, 1]) 8 0x0603 (job 0x0603 [0, 1]) = true ∧
    after (.canSelftestInternal 8 false) (withJob onBus 0x0603 [0, 0]) (fun t => (t.canCtl 0).failed && answerBytes8 t 1 == [1]) = true ∧
    after (.canSelftestInternal 8 true) (withJob up 0x0603 [0, 0]) (fun t => answerBytes8 t 1 == [2]) = true ∧
    after (.canSelftestExternal 8 true) (withJob onBus 0x0603 [0, 1]) (fun t => (t.canCtl 0).test == 2 && t.cfg.claims.length == 2 && answerBytes8 t 1 == [0]) = true := by decide +kernel
theorem test_canBalls_free : ((canBalls 0).all fun r => match ownerOf onBus r with | none => true | some e => e.function == 7 && e.inst == 0) = true := by decide +kernel
/-- The TX ball of CAN0 belongs to Pair A firmware. -/
def ballTaken : State := running up [sysOne, canSys 1 [] [1, 1], section_ 3 0 (body 16 [(0, [1]), (8, leBytes 4 (0x01000000 + 19 * 32 + 13) ++ [15, 0])])]
theorem test_canSelftest_busy : ready (withJob ballTaken 0x0603 [0, 1]) 8 0x0603 (job 0x0603 [0, 1]) = true ∧
    ownerOf ballTaken (0x01000000 + 19 * 32 + 13) = some ⟨0x01000000 + 19 * 32 + 13, 15, 0, 0⟩ ∧
    after (.canSelftestExternal 8 true) (withJob ballTaken 0x0603 [0, 1]) (fun t => answer8 t == evResourceBusy && answerBytes8 t 6 == leBytes 4 (0x01000000 + 19 * 32 + 13) ++ [15, 0]) = true ∧
    after (.canSelftestExternal 8 false) (withJob onBus 0x0603 [0, 1]) (fun t => (t.canCtl 0).failed && t.cfg.claims == [] && answerBytes8 t 1 == [1]) = true ∧
    after (.canSelftestExternal 8 true) (withJob (onBus.setCan 0 fun c => { c with failed := true }) 0x0603 [0, 1]) (fun t => t.cfg.claims == [] && answerBytes8 t 1 == [0]) = true := by decide +kernel
theorem test_segmentTimeout : after .segmentTimeout (later { up with host := { up.host with reassembly := some ⟨1, 2, [3], 0⟩ } } 1000000) (fun t => t.host.reassembly == none) = true ∧
    after .segmentTimeout (later { up with host := { up.host with reassembly := some ⟨1, 2, [3], 0⟩ } } 999999) (fun t => t.host.reassembly.isSome) = true := by decide +kernel

/-! ## The Halyard -/

/-- A device with both ports, in a ring of three devices as position 0; AX0 in group 0. -/
def ringSys : List Byte := section_ 0x31 0 (body 256 [(1, [3]), (4, leBytes 4 0x3A03126F), (32, [0]), (64, [0xFF]), (96, [0xFF]), (128, [0xFF]), (52, leBytes 4 0x3A83126F)])
def ringed (role : RingRole) : State :=
  let s := running { up with sec := { up.sec with fuses := { up.sec.fuses with units := 2 ^ 32 - 1 } } } [section_ 1 0 (body 16 [(0, [2]), (4, [3])]), ringSys]
  { s with ring := { s.ring with role := role, pos := (if role == .follower then 1 else 0), masterPos := 0, ports := s.ring.ports.map fun p => { p with st := .up, measured := true } } }
def stepMember (k : Nat) (s : State) : State := s.setMember k fun m => { m with inStep := true, heardAt := some s.clk.now }
/-- A master with two followers in step, and a follower of it. -/
def ringMaster : State := stepMember 1 (stepMember 2 (ringed .master))
def ringFollower : State := stepMember 0 (stepMember 2 (ringed .follower))
def headOf (src : Nat) : FrameHead := ⟨src, 1, 7, true⟩
def portSt (st : PortState) : State := { ringMaster with ring := { ringMaster.ring with ports := ringMaster.ring.ports.map fun p => { p with st := st } } }
theorem test_ring_config : portRuns ringMaster 0 = true ∧ portRuns ringMaster 1 = true ∧ ringMember ringMaster = true ∧ ringDevices ringFollower = 3 ∧ hears ringMaster 0 (headOf 1) = true ∧
    hears ringFollower 1 (headOf 0) = true ∧ grpAxis ringMaster 0 = some 0 ∧ axPresent ringMaster 0 = true := by decide +kernel
theorem test_linkTraining : after (.linkTraining 0) (portSt .down) (fun t => (t.port 0).st == .training && !(t.port 0).measured) = true := by decide +kernel
theorem test_linkUp : after (.linkUp 0) (portSt .training) (fun t => (t.port 0).st == .up && (t.port 1).st == .training && !t.ring.closed) = true ∧
    after (.linkUp 0) { (portSt .training) with ring := { (portSt .training).ring with ports := (portSt .training).ring.ports.map fun p => { p with measured := false } } } (fun t => (t.port 0).st == .training) = true ∧
    after (.linkUp 0) (later (portSt .training) 99999) (fun t => (t.port 0).st == .training) = true ∧ after (.linkUp 0) (later (portSt .training) 100000) (fun t => (t.port 0).st == .up) = true := by decide +kernel
theorem test_linkDown : after (.linkDown 1 0) ringMaster (fun t => (t.port 1).st == .down && t.ring.role == .master && (t.port 1).downs == 1) = true ∧
    after (.linkDown 0 0) ringFollower (fun t => t.ring.role == .isolated && t.ring.pllPort == none) = true := by decide +kernel
theorem test_delay : after (.delayRsp 1 (headOf 0) 90) ringFollower (fun t => (t.port 1).delay == 45) = true ∧ after (.delayReq 1 (headOf 0)) ringFollower (fun t => t.ring.sent.length == 1 && t.ring.seq == 1 && (t.ring.sent.map fun x => (x.1, x.2.1, x.2.2.take 12)) == [(1, 3, [1, 0, 0, 0] ++ leBytes 8 160000000)]) = true ∧ driversOn ringFollower = true := by decide +kernel
theorem test_serviceFrame : after (.serviceFrame 0 (headOf 1) [5]) (later ringMaster 6000000) (fun t => t.ring.frames == [(1, 7)] && (t.member 1).heardAt == some 6000000) = true ∧
    after (.serviceFrame 0 { headOf 1 with crcOk := false } []) ringMaster (fun t => (t.port 0).crcErrors == 1 && t.ring.frames == []) = true ∧
    after (.serviceFrame 0 { headOf 1 with hops := 7 } []) ringMaster (fun t => t.ring.frames == []) = true := by decide +kernel
theorem test_tripOrderedSet : after (.tripOrderedSet 0 1 1) ringMaster (fun t => bitAt (t.axis 0).trip.src bitHalyard && (t.member 1).trips == 1 && (t.member 1).tripAt[0] == some 5000000 && t.ring.sent.head? == some (1, 0, [33])) = true ∧
    after (.tripOrderedSet 0 1 1) (ringMaster.setMember 1 fun m => { m with trips := 1 }) (fun t => !bitAt (t.axis 0).trip.src bitHalyard) = true ∧
    after (.tripOrderedSet 0 0 1) ringMaster (fun t => (t.axis 0).trip.src == 0) = true := by decide +kernel
/-- A joining device whose sets do not differ, and that has heard the master's digest. -/
def waitsForSync (digest : List Byte) : State :=
  let s := ringed .joining
  { s with cfg := { s.cfg with diff := .same } }.setMember 0 fun m => { m with digest := digest }
def aSync : SyncFrame := ⟨5000000, 100000, 0, 3, 80⟩
theorem test_sync : after (.sync 1 (headOf 0) aSync) ringFollower (fun t => t.clk.drive == 5000002 && t.ring.pos == 2 && t.ring.epoch == 100000 && t.ring.pllPort == some 1) = true ∧
    after (.sync 1 (headOf 0) aSync) (waitsForSync (ownDigest (ringed .joining)).2) (fun t => t.ring.role == .follower && t.clk.drive == 5000002) = true ∧
    after (.sync 1 (headOf 0) aSync) (waitsForSync []) (fun t => t.ring.role == .joining && t.clk.drive == 4000000) = true ∧
    after (.sync 1 (headOf 0) aSync) (waitsForSync [1]) (fun t => t.ring.role == .none && t.clk.drive == 4000000) = true ∧
    (ownDigest (ringed .joining)).2.length = 32 ∧
    after (.sync 1 (headOf 0) aSync) { (ringed .joining) with cfg := { (ringed .joining).cfg with diff := .latent } } (fun t => t.ring.role == .none && t.clk.drive == 4000000) = true ∧
    after (.sync 1 (headOf 0) aSync) { ringFollower with clk := { ringFollower.clk with driveRuns := false } } (fun t => t.clk.drive == 4000000) = true ∧
    after (.sync 0 (headOf 1) aSync) ringMaster (fun t => t.clk.drive == 4000000 && t.ring.epoch == ringMaster.ring.epoch) = true := by decide +kernel
def differed (n : Nat) : State := { ringFollower with ring := { ringFollower.ring with differs := n } }
theorem test_digest : after (.digest 1 (headOf 0) 1 [9] false) (differed 0) (fun t => t.ring.differs == 1 && !t.ring.divergent && (t.member 0).digest == [9]) = true ∧
    after (.digest 1 (headOf 0) 1 [9] false) (differed 1) (fun t => t.ring.divergent) = true ∧ (differed 0).ring.announced = none ∧
    after (.digest 1 (headOf 0) 1 (ownDigest (differed 1)).2 false) { (differed 1) with ring := { (differed 1).ring with divergent := true, matched := 2 } } (fun t => !t.ring.divergent && t.ring.matched == 3) = true := by decide +kernel
/-- The same with AX1 enabled and running beside the group. -/
def besideGroup : State :=
  let s := differed 1
  { s with axes := (s.setAxis 1 (runs .runSpeed)).axes }
theorem test_digest_stops : axPresent besideGroup 1 = true ∧ grpOf besideGroup 1 = none ∧ isRun (besideGroup.axis 1).core.st = true ∧
    after (.digest 1 (headOf 0) 1 [9] false) besideGroup (fun t => (t.axis 1).core.ss1Asked) = true := by decide +kernel
def aShare (r : Option Q) : ShareFrame := ⟨0, true, 3, 4, true, r⟩
theorem test_share : after (.share 1 (headOf 0) (aShare (some 9))) ringFollower (fun t => (t.group 0).reference == 9 && (t.group 0).sharedAt == 5000000 && bitAt (t.member 0).run 0) = true ∧
    after (.share 0 (headOf 1) (aShare none)) ringMaster (fun t => (t.member 1).iq[0] == 4 && (t.group 0).reference == 0) = true := by decide +kernel
theorem test_shareStale_master : (grpAxis ringMaster 0).isSome = true ∧ refValid ringMaster 0 = false ∧
    after .shareStale { ringMaster with ring := { ringMaster.ring with groups := ringMaster.ring.groups.map fun g => { g with stale := false } } } (fun t => (t.group 0).stale) = true := by decide +kernel
theorem test_shareStale : after .shareStale (later { ringFollower with ring := { ringFollower.ring with groups := ringFollower.ring.groups.map fun g => { g with stale := false } } } 100000000) (fun t => (t.group 0).stale) = true ∧
    grpF ringFollower 0 20 = grpF ringFollower 0 20 ∧ after .shareStale (ringed .none) (fun t => !(t.group 0).stale) = true := by decide +kernel
def prepared (s : State) (since : Nat) : State := { s with
  cfg := { s.cfg with tack := some ⟨2 ^ 64, 0, true⟩ }, ring := { s.ring with tack := some ⟨[1], 8, since, false⟩, epoch := 0 } }
theorem test_tackPrepare : after (.tackPrepare 1 (headOf 0) 1 [9]) ringFollower (fun t => t.cfg.tack == none && t.ring.sent.any fun x => x.2.1 == 7 && x.2.2.drop 4 == [1]) = true ∧ followerReason ringFollower 1 [9] = 1 ∧ driversOn ringFollower = true := by decide +kernel
theorem test_tackAck : uncommitted (prepared ringMaster 0) = true ∧ othersInStep ringMaster = [1, 2] ∧
    after (.tackAck 0 (headOf 2) 0) (prepared ringMaster 0) (fun t => match t.cfg.tack with | some k => decide (4000000 + 4 * ringPeriod ringMaster ≤ k.ts) && k.ts % ringPeriod ringMaster == 0 | none => false) = true ∧
    after (.tackAck 0 (headOf 2) 3) (prepared ringMaster 0) (fun t => t.cfg.tack == none && t.ring.tack == none) = true ∧
    after (.tackAck 0 (headOf 1) 0) (prepared ringMaster 0) (fun t => t.ring.tack.map (·.acked) == some [1, 1]) = true := by decide +kernel
theorem test_tackCommit : after (.tackCommit 1 (headOf 0) 900) (prepared ringFollower 0) (fun t => t.cfg.tack == some ⟨900 * ringPeriod ringFollower, 900, true⟩ && t.ring.tack.map (·.committed) == some true) = true := by decide +kernel
theorem test_tackAbort : after (.tackAbort 1 (headOf 0)) (prepared ringFollower 0) (fun t => t.cfg.tack == none && t.ring.tack == none) = true := by decide +kernel
theorem test_ringTackTimeout : after .ringTackTimeout (prepared ringMaster 3000000) (fun t => t.cfg.tack == none && t.ring.tack == none) = true ∧
    after .ringTackTimeout (prepared ringMaster 3000001) (fun t => t.cfg.tack.isSome) = true := by decide +kernel
theorem test_followerTackDrop : after .followerTackDrop (prepared ringFollower 1000000) (fun t => t.cfg.tack == none) = true ∧ after .followerTackDrop (prepared ringFollower 1000001) (fun t => t.cfg.tack.isSome) = true := by decide +kernel
def joiner : State := { (ringed .joining) with ring := { (ringed .joining).ring with frames := [] } }
theorem test_elect : ownBid joiner = (0, 0) ∧ betterBid (ownBid joiner) (0, 5) = ownBid joiner ∧ betterBid (ownBid joiner) (3, 5) ≠ ownBid joiner ∧ joiner.ring.best = none ∧
    after (.elect 0 (headOf 1) 0 5 true) joiner (fun t => t.ring.role == .master && t.ring.epoch == 4000000 / ringPeriod joiner * ringPeriod joiner) = true ∧
    after (.elect 0 (headOf 1) 3 5 true) joiner (fun t => t.ring.role == .joining && t.ring.best == none && t.ring.awaited) = true ∧
    after (.elect 0 (headOf 1) 3 5 false) joiner (fun t => t.ring.best == some (3, 5)) = true := by decide +kernel
theorem test_join : after (.join 0 (headOf 5) 77) ringMaster (fun t => (t.member 5).inStep && t.ring.role == .master) = true := by decide +kernel
theorem test_leave : after (.leave 0 (headOf 2)) ringMaster (fun t => !(t.member 2).inStep && (t.member 1).inStep && t.ring.role == .master) = true := by decide +kernel
theorem test_linkStatus : ready (withJob ringMaster 0x0701 []) 8 0x0701 (job 0x0701 []) = true ∧ after (.linkStatus 8) (withJob ringMaster 0x0701 []) (fun t => answerBytes8 t 8 == [3, 0, 0, 0, 1, 1, 1, 0]) = true := by decide +kernel
theorem test_linkJoin : ready (withJob (ringed .none) 0x0702 []) 8 0x0702 (job 0x0702 []) = true ∧ (joinReason up).isSome = true ∧ ready (withJob up 0x0702 []) 8 0x0702 (job 0x0702 []) = true ∧
    after (.linkJoin 8) (withJob up 0x0702 []) (fun t => answer8 t == evJoinRefused) = true := by decide +kernel
def joinable : State := { (stepMember 0 (ringed .none)) with cfg := { (ringed .none).cfg with diff := .same } }
theorem test_linkJoin_begins : joinReason (withJob joinable 0x0702 []) = none ∧ after (.linkJoin 8) (withJob joinable 0x0702 []) (fun t => t.ring.role == .joining && (runningJob t 8).isSome) = true := by decide +kernel
def groupRuns (s : State) : State := { s with axes := (s.setAxis 0 (runs .runTorque)).axes }
theorem test_linkLeave : ready (withJob ringMaster 0x0703 []) 8 0x0703 (job 0x0703 []) = true ∧ after (.linkLeave 8) (withJob ringMaster 0x0703 []) (fun t => t.ring.role == .none && answer8 t == 0) = true ∧
    groupAxesOff (groupRuns ringMaster) = false ∧ after (.linkLeave 8) (withJob { (groupRuns ringMaster) with mode := .run } 0x0703 []) (fun t => t.ring.leaving && t.ring.role == .master && answer8 t == 0) = true := by decide +kernel
/-- A timing master that can tack, with a follower in step. -/
def tackMaster : State := stepMember 1 { tackable 0x0206 (List.replicate 8 0) with ring := { (tackable 0x0206 []).ring with role := .master } }
theorem test_cfgTack_ring : ready tackMaster 8 0x0206 (job 0x0206 (List.replicate 8 0)) = true ∧ tackReason tackMaster 0 false = none ∧ othersInStep tackMaster = [1] ∧
    after (.cfgTack 8) tackMaster (fun t => (t.cfg.tack.map (·.ring)) == some true && t.ring.tack.isSome && t.cfg.shadow.isSome) = true := by decide +kernel

/-! ## The whole machine -/

theorem test_reset : State.reset.mode = .boot ∧ memWf State.reset.host.ram = true ∧ HaltCodeLegal State.reset := by decide +kernel
theorem test_step_front : ({ up with pending := [.x32CrystalSwitch, .vbatLow 1] } : State).pending = .x32CrystalSwitch :: [.vbatLow 1] ∧
    (match step { up with pending := [.x32CrystalSwitch, .vbatLow 1] } with | .next t => t.power.crystal && !t.power.vbatLow && t.pending == [.vbatLow 1] | _ => false) = true := by decide +kernel
theorem test_step_idle : (match step State.reset with | .next t => t.clk.now == 1 && t.pending == [] && t.clk.drive == State.reset.clk.drive | _ => false) = true ∧
    (match step up with | .next t => t.clk.now == 5000001 && t.clk.drive == 4000001 | _ => false) = true := by decide +kernel
/-- A device in SAFE with a latched trip, and PORST_N about to go low. -/
def inSafe : State := { (up.setAxis 0 fun a => { a with trip := { a.trip with src := 2 ^ 21 } }) with mode := .safe, pending := [.porstNLow] }
theorem test_safe_leaves : inSafe.mode = .safe ∧ inSafe.power.inReset = false ∧ bitAt (inSafe.axis 0).trip.src 21 = true ∧
    (match step inSafe with | .next t => t.mode == .boot && t.power.inReset && (t.axis 0).trip.src == 0 | _ => false) = true := by decide +kernel
theorem test_halt : HaltCodeLegal (casting 2) ∧ (match step { (casting 2) with pending := [.xinStartFail] } with | .next t => t.boot.halt && t.boot.haltCode == 0x0105 | _ => false) = true := by decide +kernel
theorem test_memories : MemoriesCanonical { up with host := { up.host with ram := [(0x1600, 7)] } } ∧ ¬MemoriesCanonical { up with host := { up.host with ram := [(0x1600, 0)] } } := by decide +kernel
theorem test_mayChange : mayChange .can (.txreq 0 ⟨0, 0⟩) = true ∧ mayChange .can (.vbatLow 1) = false ∧ mayChange .can .porstNLow = true ∧ mayChange .switchLatches (.refswLatch 0 true 0) = true := by decide +kernel

/-! ## WellFormed: one ill-formed term for each check -/

def illFormed0 : List Instr :=
  [.supplyBelowReset 9 0, .supplyBelowReset 0 (-1), .supplyOutOfRange 9 0, .supplyOutOfRange 0 (-1), .vbatLow (-1), .handover 0 (2 ^ 24) 0 0,
   .handover 0 0 (2 ^ 16) 0, .handover 0 0 0 8, .carrierReload 0 false (2 ^ 24) 0, .carrierReload 0 false 0 (2 ^ 16), .shadowWrite 0 (.period) (2 ^ 23),
   .safepatWrite 0 4, .firmwareTripRequest 0 (2 ^ 16), .edgeRecord 0 0 false [2, 1], .injectedTrigger 256, .sarResult 0 (2 ^ 16) false,
   .lowSidePair 0 (2 ^ 16) 0, .lowSidePair 0 0 (2 ^ 16), .backstayPattern 0 64, .chopperCrossing 0 (-1), .blankEnd 0 (-1), .runInjection [],
   .safeInputSample (2 ^ 16) 0, .safeInputSample 0 (2 ^ 16), .logFlush (-1) 0, .logFlush 0 (-1), .coreMismatch false ⟨16, 0, []⟩,
   .delayParity false ⟨16, 0, []⟩, .comparatorDisagree false ⟨16, 0, []⟩, .engineSelftestCheck 16, .contextOverrun 0 128, .fabricStarved 13 0,
   .fabricAccessFault 13 0, .fabricAccessFault 0 (2 ^ 32), .registerWrite 256 0 [], .registerWrite 0 (2 ^ 16) [], .mailboxWrite (2 ^ 16) [],
   .doorbellRing (2 ^ 32), .doneClear (2 ^ 32), .faultsumClear (2 ^ 32) 0, .doorbellOutClear (2 ^ 32) 0, .sysStatus 25, .sysVersion 25,
   .sysReset 25, .sysServiceEnter 25, .sysServiceExit 25, .sysBindOff 25, .sysTime 25, .sysEvents 25]
def illFormed1 : List Instr :=
  [.sysHeartbeat 25, .cfgWriteBegin 25, .cfgWriteData 25, .cfgWriteEnd 25, .cfgDigest 25, .cfgStage 25, .cfgTack 25, .cfgDiscard 25,
   .axisStart 25, .axisStopRamp 25, .axisStopSs1 25, .axisTorque 25, .axisSpeed 25, .axisMove 25, .axisResume 25, .axisStatus 25,
   .axisReference 25, .auxMove 25 false, .auxStop 25, .auxResume 25 false, .auxStatus 25, .safeClear 25, .safeClearTrip 25 0 0,
   .safeClearTrip 0 1024 0, .safeClearTrip 0 0 512, .safeStatus 25, .safeInputs 25, .safeRestart 25, .safeDischargeResistor 25,
   .safeDischargeWindings 25, .logInfo 25, .logRead 25, .logExported 25, .logCheckpoint 25, .logCounters 25, .canStatus 25, .canRecover 25,
   .canSelftestInternal 25 false, .canSelftestExternal 25 false, .linkStatus 25]
def illFormed2 : List Instr :=
  [.linkJoin 25, .linkLeave 25, .diagSelftest 25, .diagMapRead 25, .diagMapWrite 25, .diagCapture 25, .diagPairBSplit 25 0,
   .diagPairBSplit 0 (2 ^ 32), .diagPairBRejoin 25, .secChallenge 25, .secUnlock 25, .secClearLock 25, .secCert 25, .secStatus 25,
   .sysLoaderBegin 25, .sysLoaderData 25, .sysLoaderEnd 25, .canRxFrame 0 { frameOf [] with ident := 2 ^ 29 } 0,
   .canRxFrame 0 { frameOf [] with format := 3 } 0, .canRxFrame 0 (frameOf (List.replicate 2049 0)) 0, .txreq 0 ⟨256, 0⟩, .cancelReq 0 ⟨256, 0⟩ false,
   .rxLock 0 ⟨256, 0⟩ false, .canTxComplete 0 257 0 0, .canBusError 0 false false (7 + 1) 0, .canBusError 0 false false 0 257,
   .txExpired 0 257 false, .e2eTimeout 0 256, .linkDown 0 256, .tripOrderedSet 0 8 0, .tripOrderedSet 0 0 16,
   .sync 0 ⟨8, 0, 0, true⟩ ⟨0, 0, 0, 0, 0⟩, .sync 0 ⟨0, 8, 0, true⟩ ⟨0, 0, 0, 0, 0⟩, .delayReq 0 ⟨8, 0, 0, true⟩, .delayReq 0 ⟨0, 8, 0, true⟩,
   .delayRsp 0 ⟨8, 0, 0, true⟩ 0, .delayRsp 0 ⟨0, 8, 0, true⟩ 0, .digest 0 ⟨8, 0, 0, true⟩ 0 (List.replicate 32 0) false,
   .digest 0 ⟨0, 8, 0, true⟩ 0 (List.replicate 32 0) false, .digest 0 ⟨0, 0, 0, true⟩ (2 ^ 32) (List.replicate 32 0) false]
def illFormed3 : List Instr :=
  [.share 0 ⟨8, 0, 0, true⟩ ⟨0, false, 0, 0, false, none⟩, .share 0 ⟨0, 8, 0, true⟩ ⟨0, false, 0, 0, false, none⟩,
   .tackPrepare 0 ⟨8, 0, 0, true⟩ 0 (List.replicate 32 0), .tackPrepare 0 ⟨0, 8, 0, true⟩ 0 (List.replicate 32 0),
   .tackPrepare 0 ⟨0, 0, 0, true⟩ (2 ^ 32) (List.replicate 32 0), .tackAck 0 ⟨8, 0, 0, true⟩ 0, .tackAck 0 ⟨0, 8, 0, true⟩ 0,
   .tackAck 0 ⟨0, 0, 0, true⟩ 256, .tackCommit 0 ⟨8, 0, 0, true⟩ 0, .tackCommit 0 ⟨0, 8, 0, true⟩ 0, .tackAbort 0 ⟨8, 0, 0, true⟩,
   .tackAbort 0 ⟨0, 8, 0, true⟩, .elect 0 ⟨8, 0, 0, true⟩ 0 0 false, .elect 0 ⟨0, 8, 0, true⟩ 0 0 false, .elect 0 ⟨0, 0, 0, true⟩ 256 0 false,
   .elect 0 ⟨0, 0, 0, true⟩ 0 (2 ^ 64) false, .join 0 ⟨8, 0, 0, true⟩ 0, .join 0 ⟨0, 8, 0, true⟩ 0, .join 0 ⟨0, 0, 0, true⟩ (2 ^ 64),
   .leave 0 ⟨8, 0, 0, true⟩, .leave 0 ⟨0, 8, 0, true⟩, .serviceFrame 0 ⟨8, 0, 0, true⟩ [], .serviceFrame 0 ⟨0, 8, 0, true⟩ [],
   .debugHalt false (2 ^ 32), .longCommandComplete 25, .digest 0 ⟨0, 0, 0, true⟩ 0 [] false, .tackPrepare 0 ⟨0, 0, 0, true⟩ 0 []]
theorem test_wellFormed_refuses : ((illFormed0 ++ illFormed1 ++ illFormed2 ++ illFormed3).all fun i => !i.wellFormed) = true := by decide +kernel
theorem test_wellFormed_accepts : ([.supplyBelowReset 8 0, .handover 0 0 0 7, .registerWrite 255 65535 [], .sysStatus 24, .canRxFrame 0 (frameOf []) 0,
    .sync 0 ⟨7, 7, 0, true⟩ ⟨0, 0, 0, 0, 0⟩, .digest 0 ⟨7, 7, 0, true⟩ 0 (List.replicate 32 0) true, .porstNRelease] : List Instr).all Instr.wellFormed = true := by decide +kernel

end Sys2Proof.Tests
end

/-! SEC.CHALLENGE: the nonce drawn fits every response, stands at its purpose, and leaves the other purposes alone. -/
namespace Sys2Proof.Machine
open Sys2Proof

/-! ## Answers within the limit -/

@[simp] theorem drawBytes_length (s : State) (n : Nat) : (drawBytes s n).1.length = n := by
  simp [drawBytes]

/-- Both protocols carry 52 bytes of response payload (R75). -/
theorem le_responseLimit (proto : Nat) : 52 ≤ responseLimit proto := by
  unfold responseLimit
  split <;> omega

/-- A payload within the limit is answered with success, and the command has its effect (R75). -/
theorem succeed_of_length_le (s t : State) {j : Job} {payload : List Byte} (h : payload.length ≤ responseLimit j.proto) :
    succeed s t j payload = respond t j 0 payload :=
  if_neg (Nat.not_lt.mpr h)

/-! ## The nonce issued -/

/-- The state in which SEC.CHALLENGE has issued a nonce for purpose `k`: 16 bytes drawn, issued now (R525). -/
def issueNonce (s : State) (k : Fin 3) : State :=
  let (bs, t) := drawBytes s 16
  { t with sec := { t.sec with nonces := vupd t.sec.nonces k fun _ => some ⟨bs, t.clk.now⟩ } }

theorem issueNonce_nonce (s : State) (k : Fin 3) : (issueNonce s k).sec.nonces[k] = some ⟨(drawBytes s 16).1, s.clk.now⟩ :=
  vupd_get s.sec.nonces k _

theorem issueNonce_nonce_ne (s : State) {k m : Fin 3} (h : m ≠ k) : (issueNonce s k).sec.nonces[m] = s.sec.nonces[m] :=
  vupd_get_ne s.sec.nonces k m _ h

@[simp] theorem issueNonce_host (s : State) (k : Fin 3) : (issueNonce s k).host = s.host := rfl
@[simp] theorem issueNonce_axes (s : State) (k : Fin 3) : (issueNonce s k).axes = s.axes := rfl

/-! ## SEC.CHALLENGE -/

/-- A challenge for one of the three purposes issues its nonce and answers with it. -/
theorem exec_secChallenge_issues {s : State} {slot : Nat} {j : Job} {k : Fin 3} (hr : Ready s slot 0x0901 j) (hk : j.u 0 1 = k.val) :
    exec (.secChallenge slot) s = .next (settle s (respond (issueNonce s k) j 0 (drawBytes s 16).1)) := by
  have hlt : j.u 0 1 < 3 := hk ▸ k.isLt
  have fits : (drawBytes s 16).1.length ≤ responseLimit j.proto := by
    rw [drawBytes_length]
    exact Nat.le_trans (by decide) (le_responseLimit j.proto)
  obtain rfl : k = ⟨j.u 0 1, hlt⟩ := Fin.ext hk.symm
  calc exec (.secChallenge slot) s
      = execSecChallenge slot s := rfl
    _ = .next (settle s (succeed s (issueNonce s ⟨j.u 0 1, hlt⟩) j (drawBytes s 16).1)) := by
        rw [execSecChallenge, command_ready hr, dif_pos hlt]
        rfl
    _ = .next (settle s (respond (issueNonce s ⟨j.u 0 1, hlt⟩) j 0 (drawBytes s 16).1)) := by
        rw [succeed_of_length_le _ _ fits]

/-- A challenge for any other purpose is answered with BAD_PARAMETER. -/
theorem exec_secChallenge_badParameter {s : State} {slot : Nat} {j : Job} (hr : Ready s slot 0x0901 j) (hk : 3 ≤ j.u 0 1) :
    exec (.secChallenge slot) s = .next (settle s (badParameter s j)) := by
  calc exec (.secChallenge slot) s
      = execSecChallenge slot s := rfl
    _ = .next (settle s (badParameter s j)) := by
        rw [execSecChallenge, command_ready hr, dif_neg (Nat.not_lt.mpr hk)]

/-- Settles O43: the state that a challenge issues its nonce in differs from the one before in that nonce alone, as `vupd` writes
one entry. -/
theorem challengeReplacesTheNonceOfItsPurpose : Obligations.ChallengeReplacesTheNonceOfItsPurpose := by
  constructor
  · intro s slot j k hr hk
    exact ⟨issueNonce s k, (drawBytes s 16).1, exec_secChallenge_issues hr hk, drawBytes_length s 16, issueNonce_nonce s k,
      fun _ hm => issueNonce_nonce_ne s hm, issueNonce_host s k, issueNonce_axes s k⟩
  · intro s slot j hr hk
    exact exec_secChallenge_badParameter hr hk

end Sys2Proof.Machine
/-! HALT and HALT_CODE of BOOTSTAT (R44, R584). The record of cast-on (`boot`) is written by cast-on and by an entry into reset alone:
one lemma for each other operation, in the order of the model, says that it leaves the record as it is. What is left are the entries
into reset, which clear HALT, and the steps of cast-on, which halt with the codes of Table 2.5. -/
namespace Sys2Proof.Machine
open Sys2Proof

/-- Where the outcome is a next state, cast-on stands in it as it stood in `s`. -/
def KeepsBoot (s : State) (r : Result) : Prop := ∀ t, r = .next t → t.boot = s.boot

@[simp] theorem keepsBoot_next {s t : State} : KeepsBoot s (.next t) ↔ t.boot = s.boot :=
  ⟨fun h => h t rfl, fun h u e => by cases e; exact h⟩

@[simp] theorem settle_boot (old s : State) : (settle old s).boot = s.boot :=
  (settle_steady old s).boot

@[simp] theorem keepsBoot_finish {s old t : State} : KeepsBoot s (finish old t) ↔ t.boot = s.boot := by
  rw [finish, keepsBoot_next, settle_boot]

@[simp] theorem keepsBoot_ite {s : State} {p : Prop} [Decidable p] {a b : Result} :
    KeepsBoot s (if p then a else b) ↔ if p then KeepsBoot s a else KeepsBoot s b := by
  split <;> rfl

@[simp] theorem ite_boot {p : Prop} [Decidable p] (a b : State) : (if p then a else b).boot = if p then a.boot else b.boot :=
  apply_ite State.boot p a b

@[simp] theorem dite_boot {p : Prop} [Decidable p] (a : p → State) (b : ¬p → State) :
    (if h : p then a h else b h).boot = if h : p then (a h).boot else (b h).boot :=
  apply_dite State.boot p a b

@[simp] theorem ite_fst_boot {α : Type} {p : Prop} [Decidable p] (a b : State × α) :
    (if p then a else b).1.boot = if p then a.1.boot else b.1.boot :=
  apply_ite (fun x => x.1.boot) p a b

@[simp] theorem ite_snd_boot {α : Type} {p : Prop} [Decidable p] (a b : α × State) :
    (if p then a else b).2.boot = if p then a.2.boot else b.2.boot :=
  apply_ite (fun x => x.2.boot) p a b

@[simp] theorem foldl_boot {α : Type} {f : State → α → State} (h : ∀ s a, (f s a).boot = s.boot) (l : List α) (s : State) :
    (l.foldl f s).boot = s.boot := by
  induction l generalizing s with
  | nil => rfl
  | cons a l ih => rw [List.foldl_cons, ih, h]

@[simp] theorem forAxes_boot {f : State → Fin 4 → State} (h : ∀ s n, (f s n).boot = s.boot) (p : State → Fin 4 → Bool) (s : State) :
    (s.forAxes p f).boot = s.boot := by
  simp [State.forAxes, h]

/-! A fold of one setter over axes or interfaces: `simp` cannot give its premise, which holds by unfolding. -/

@[simp] theorem foldl_setAxis_boot {α : Type} (n : State → α → Fin 4) (g : State → α → Axis → Axis) (l : List α) (s : State) :
    (l.foldl (fun t a => t.setAxis (n t a) (g t a)) s).boot = s.boot :=
  foldl_boot (fun t a => State.setAxis_boot t (n t a) _) l s

@[simp] theorem forAxes_setAxis_boot (p : State → Fin 4 → Bool) (g : State → Fin 4 → Axis → Axis) (s : State) :
    (s.forAxes p fun t n => t.setAxis n (g t n)).boot = s.boot :=
  forAxes_boot (fun t n => State.setAxis_boot t n _) p s

@[simp] theorem forAxes_setBs_boot (p : State → Fin 4 → Bool) (g : State → Fin 4 → BackstayAxis → BackstayAxis) (s : State) :
    (s.forAxes p fun t n => t.setBs n (g t n)).boot = s.boot :=
  forAxes_boot (fun t n => State.setBs_boot t n _) p s

@[simp] theorem forAxes_setTh_boot (p : State → Fin 4 → Bool) (g : State → Fin 4 → ThermalAxis → ThermalAxis) (s : State) :
    (s.forAxes p fun t n => t.setTh n (g t n)).boot = s.boot :=
  forAxes_boot (fun t n => State.setTh_boot t n _) p s

@[simp] theorem forAxes_setIfc_boot (p : State → Fin 4 → Bool) (g : State → Fin 4 → PosIfc → PosIfc) (s : State) :
    (s.forAxes p fun t n => t.setIfc n (g t n)).boot = s.boot :=
  forAxes_boot (fun t n => State.setIfc_boot t n _) p s

/-! ## Setters, records, events and axis states -/

@[simp] theorem linkSend_boot (s : State) (frames : List (Nat × Nat × List Byte)) : (linkSend s frames).boot = s.boot :=
  (linkSend_steady s frames).boot

@[simp] theorem portsSend_boot (s : State) (ports : List Nat) (type : Nat) (payload : List Byte) :
    (portsSend s ports type payload).boot = s.boot := by
  simp [portsSend]

@[simp] theorem ringSend_boot (s : State) (type : Nat) (payload : List Byte) : (ringSend s type payload).boot = s.boot :=
  (ringSend_steady s type payload).boot

@[simp] theorem drawQ_boot (s : State) : (drawQ s).2.boot = s.boot := by simp [drawQ]
@[simp] theorem drawNat_boot (s : State) : (drawNat s).2.boot = s.boot := by simp [drawNat]
@[simp] theorem drawBytes_boot (s : State) (n : Nat) : (drawBytes s n).2.boot = s.boot := by simp [drawBytes]
@[simp] theorem logAppend_boot (s : State) (d : LogDraft) : (logAppend s d).boot = s.boot := (logAppend_steady s d).boot
@[simp] theorem logWrite_boot (s : State) (d : LogDraft) : (logWrite s d).boot = s.boot := (logWrite_steady s d).boot

@[simp] theorem logRec_boot (s : State) (type severity unit : Nat) (body : List Byte) : (logRec s type severity unit body).boot = s.boot :=
  (logRec_steady s type severity unit body).boot

@[simp] theorem logDrain_boot (s : State) : (logDrain s).boot = s.boot := by simp [logDrain]

@[simp] theorem logCheckpoint_boot (s : State) : (logCheckpoint s).boot = s.boot := by
  unfold logCheckpoint
  split <;> simp

@[simp] theorem logIdSig_boot (s : State) : (logIdSig s).boot = s.boot := by simp [logIdSig]

@[simp] theorem raiseSev_boot (s : State) (code severity unit data : Nat) (extra : List Byte) (logged : Bool) :
    (raiseSev s code severity unit data extra logged).boot = s.boot :=
  (raiseSev_steady s code severity unit data extra logged).boot

@[simp] theorem raise_boot (s : State) (code unit data : Nat) : (raise s code unit data).boot = s.boot := (raise_steady s code unit data).boot

@[simp] theorem raiseLogged_boot (s : State) (code unit data : Nat) (extra : List Byte) : (raiseLogged s code unit data extra).boot = s.boot :=
  (raiseLogged_steady s code unit data extra).boot

@[simp] theorem raiseAxis_boot (s : State) (code : Nat) (n : Fin 4) (low : Nat) : (raiseAxis s code n low).boot = s.boot :=
  (raiseAxis_steady s code n low).boot

@[simp] theorem raiseLimited_boot (s : State) (code inst unit rest : Nat) : (raiseLimited s code inst unit rest).boot = s.boot :=
  (raiseLimited_steady s code inst unit rest).boot

@[simp] theorem hspiError_boot (s : State) (cause : Nat) : (hspiError s cause).boot = s.boot := by simp [hspiError]
@[simp] theorem fabricFault_boot (s : State) (requester address : Nat) : (fabricFault s requester address).boot = s.boot := by simp [fabricFault]
@[simp] theorem absentWrite_boot (s : State) (requester : Nat) : (absentWrite s requester).boot = s.boot := by simp [absentWrite]
@[simp] theorem absentEngineWrite_boot (s : State) : (absentEngineWrite s).boot = s.boot := by simp [absentEngineWrite]
@[simp] theorem brakeOff_boot (s : State) (n : Fin 4) : (brakeOff s n).boot = s.boot := (brakeOff_steady s n).boot

@[simp] theorem enterAxisSafe_boot (s : State) (n : Fin 4) (sub : SafeSub) : (enterAxisSafe s n sub).boot = s.boot :=
  (enterAxisSafe_steady s n sub).boot

@[simp] theorem latchTrip_boot (s : State) (n : Fin 4) (bit : Nat) : (latchTrip s n bit).boot = s.boot := (latchTrip_steady s n bit).boot

@[simp] theorem firmwareTrip_boot (s : State) (n : Fin 4) (cause : Nat) : (firmwareTrip s n cause).boot = s.boot :=
  (firmwareTrip_steady s n cause).boot

@[simp] theorem tripAll_boot (s : State) (bit : Nat) : (tripAll s bit).boot = s.boot := (tripAll_steady s bit).boot
@[simp] theorem firmwareTripAll_boot (s : State) (cause : Nat) : (firmwareTripAll s cause).boot = s.boot := (firmwareTripAll_steady s cause).boot
@[simp] theorem tackAbort_boot (s : State) : (tackAbort s).boot = s.boot := (tackAbort_steady s).boot
@[simp] theorem latchSafe_boot (s : State) : (latchSafe s).boot = s.boot := (latchSafe_steady s).boot
@[simp] theorem freewheelAll_boot (s : State) : (freewheelAll s).boot = s.boot := (freewheelAll_steady s).boot
@[simp] theorem axisOff_boot (s : State) (n : Fin 4) : (axisOff s n).boot = s.boot := (axisOff_steady s n).boot

/-! ## Claims of resources -/

@[simp] theorem raiseTrigger_boot (s : State) (code : Nat) : (raiseTrigger s code).boot = s.boot := by simp [raiseTrigger]

/-! ## Auxiliary channel: bridges, holds and discarded moves -/

@[simp] theorem auxDiscard_boot (s : State) : (auxDiscard s).boot = s.boot := (auxDiscard_steady s).boot
@[simp] theorem auxKeep_boot (s : State) : (auxKeep s).boot = s.boot := (auxKeep_steady s).boot
@[simp] theorem auxHold_boot (s : State) : (auxHold s).boot = s.boot := (auxHold_steady s).boot

@[simp] theorem setPhase_boot (s : State) (b : Fin 2) (phase : Nat) (forward blank : Bool) : (setPhase s b phase forward blank).boot = s.boot :=
  (setPhase_steady s b phase forward blank).boot

@[simp] theorem auxOff_boot (s : State) : (auxOff s).boot = s.boot := (auxOff_steady s).boot
@[simp] theorem driveBridge_boot (s : State) (b : Fin 2) : (driveBridge s b).boot = s.boot := (driveBridge_steady s b).boot
@[simp] theorem driveAll_boot (s : State) : (driveAll s).boot = s.boot := (driveAll_steady s).boot
@[simp] theorem auxOn_boot (s : State) : (auxOn s).boot = s.boot := by simp [auxOn]
@[simp] theorem auxFault_boot (s : State) (code event : Nat) : (auxFault s code event).boot = s.boot := by simp [auxFault]
@[simp] theorem auxStand_boot (s : State) : (auxStand s).boot = s.boot := by simp [auxStand]
@[simp] theorem parkDone_boot (s : State) : (parkDone s).boot = s.boot := by simp [parkDone]
@[simp] theorem auxReference_boot (s : State) : (auxReference s).boot = s.boot := by simp [auxReference]

@[simp] theorem auxCastOn_boot (s : State) : (auxCastOn s).boot = s.boot := by
  unfold auxCastOn
  repeat' split
  all_goals simp

@[simp] theorem auxPark_boot (s : State) : (auxPark s).boot = s.boot := by
  unfold auxPark
  dsimp only
  repeat' split
  all_goals simp

/-! ## Gate outputs and forced charges -/

@[simp] theorem eachLeg_boot (s : State) (n : Fin 4) (f : Fin 3 → GateLeg → GateLeg) : (eachLeg s n f).boot = s.boot := by simp [eachLeg]
@[simp] theorem runLegs_boot (s : State) (n : Fin 4) (pos stop t t1 : Nat) : (runLegs s n pos stop t t1).boot = s.boot := by simp [runLegs]
@[simp] theorem dsTrigger_boot (s : State) (m : Fin 4) (peak : Bool) : (dsTrigger s m peak).boot = s.boot := by simp [dsTrigger]
@[simp] theorem axisTrigger_boot (s : State) (m : Fin 4) (peak : Bool) : (axisTrigger s m peak).boot = s.boot := by simp [axisTrigger]
@[simp] theorem carrierTriggers_boot (s : State) (l : Fin 4) (a b : Nat) : (carrierTriggers s l a b).boot = s.boot := by simp [carrierTriggers]
@[simp] theorem tickGates_boot (s : State) (n : Fin 4) : (tickGates s n).boot = s.boot := by simp [tickGates]

/-! ## Stops of an axis -/

@[simp] theorem enterStopping_boot (s : State) (n : Fin 4) (ss1 : Bool) : (enterStopping s n ss1).boot = s.boot := by simp [enterStopping]
@[simp] theorem requestSs1_boot (s : State) (n : Fin 4) : (requestSs1 s n).boot = s.boot := (requestSs1_steady s n).boot
@[simp] theorem requestSs1All_boot (s : State) : (requestSs1All s).boot = s.boot := by simp [requestSs1All]
@[simp] theorem raiseStop_boot (s : State) (code : Nat) (n : Fin 4) (low : Nat) : (raiseStop s code n low).boot = s.boot := by simp [raiseStop]

/-! ## Position interfaces: counts, references and failures -/

@[simp] theorem shiftOdo_boot (s : State) (i : Fin 4) (d : Int) : (shiftOdo s i d).boot = s.boot := by simp [shiftOdo]
@[simp] theorem failSource_boot (s : State) (i : Fin 4) (reason : Nat) : (failSource s i reason).boot = s.boot := by simp [failSource]
@[simp] theorem noteRestored_boot (s : State) (i : Fin 4) : (noteRestored s i).boot = s.boot := by simp [noteRestored]

@[simp] theorem compareHits_boot (s : State) (i : Fin 4) (k : Fin 3) (a b : Int) (t0 t1 : Q) (inter snapped : Bool) (fuel : Nat) :
    (compareHits s i k a b t0 t1 inter snapped fuel).boot = s.boot := by
  induction fuel generalizing s with
  | zero => rfl
  | succ fuel ih => simp [compareHits, ih]

@[simp] theorem compareAll_boot (s : State) (i : Fin 4) (a b : Int) (t0 t1 : Q) (inter snapped : Bool) :
    (compareAll s i a b t0 t1 inter snapped).boot = s.boot := by
  simp [compareAll]

@[simp] theorem emuTick_boot (s : State) (i : Fin 4) : (emuTick s i).boot = s.boot := by simp [emuTick]
@[simp] theorem emulate_boot (s : State) (i : Fin 4) (a b : Int) : (emulate s i a b).boot = s.boot := by simp [emulate]
@[simp] theorem checkIndexMissing_boot (s : State) (i : Fin 4) : (checkIndexMissing s i).boot = s.boot := by simp [checkIndexMissing]

@[simp] theorem moveP_boot (s : State) (i : Fin 4) (p' : Int) (t0 t1 : Nat) (inter : Bool) : (moveP s i p' t0 t1 inter).boot = s.boot := by
  simp [moveP]

@[simp] theorem releaseClaim_boot (s : State) (resource : Nat) : (releaseClaim s resource).boot = s.boot := by simp [releaseClaim]
@[simp] theorem shiftPlan_boot (s : State) (i : Fin 4) (d : Int) : (shiftPlan s i d).boot = s.boot := by simp [shiftPlan]
@[simp] theorem refEvent_boot (s : State) (i : Fin 4) (pos : Nat) : (refEvent s i pos).boot = s.boot := by simp [refEvent]
@[simp] theorem snapBy_boot (s : State) (i : Fin 4) (d : Int) : (snapBy s i d).boot = s.boot := by simp [snapBy]

@[simp] theorem tickExc_boot (s : State) (e : Fin 2) : (tickExc s e).boot = s.boot := by
  unfold tickExc
  split <;> simp

/-! ## Thermal networks -/

@[simp] theorem noteChain_boot (s : State) (n : Fin 4) : (noteChain s n).boot = s.boot := by simp [noteChain]
@[simp] theorem ignoreEntry_boot (s : State) (n : Fin 4) (c : Fin 3) : (ignoreEntry s n c).boot = s.boot := by simp [ignoreEntry]
@[simp] theorem chainConversion_boot (s : State) (n : Fin 4) (c : Fin 3) : (chainConversion s n c).boot = s.boot := by simp [chainConversion]
@[simp] theorem chainSlot_boot (s : State) (conv slot : Nat) : (chainSlot s conv slot).boot = s.boot := by simp [chainSlot]
@[simp] theorem chainConverter_boot (s : State) (bad : Nat → Bool) : (chainConverter s bad).boot = s.boot := by simp [chainConverter]
@[simp] theorem chargeSw_boot (s : State) (n : Fin 4) (k : Fin 6) (e : Q) : (chargeSw s n k e).boot = s.boot := by simp [chargeSw]
@[simp] theorem chargeD_boot (s : State) (n : Fin 4) (k : Fin 6) (e : Q) : (chargeD s n k e).boot = s.boot := by simp [chargeD]

@[simp] theorem chargeLeg_boot (s : State) (n : Fin 4) (leg : Fin 3) (fH fL tu : Q) : (chargeLeg s n leg fH fL tu).boot = s.boot := by
  simp [chargeLeg]

@[simp] theorem chargeEdge_boot (s : State) (n : Fin 4) (leg : Fin 3) (rising : Bool) (amps : Q) :
    (chargeEdge s n leg rising amps).boot = s.boot := by
  simp [chargeEdge]

@[simp] theorem chargeEdges_boot (s : State) (n : Fin 4) (amps : Fin 3 → Q) (hold : Nat) : (chargeEdges s n amps hold).boot = s.boot := by
  simp [chargeEdges]

@[simp] theorem stepElement_boot (s : State) (n : Fin 4) (k : Fin 6) (dt : Q) : (stepElement s n k dt).boot = s.boot := by simp [stepElement]
@[simp] theorem windStep_boot (s : State) (n : Fin 4) : (windStep s n).boot = s.boot := by simp [windStep]

/-! ## Driver faults -/

@[simp] theorem faultAct_boot (s : State) (n : Fin 4) (leg : Fin 3) : (faultAct s n leg).boot = s.boot := (faultAct_steady s n leg).boot

/-! ## Halyard: frames sent and members -/

@[simp] theorem lockPll_boot (s : State) : (lockPll s).boot = s.boot := by simp [lockPll]

@[simp] theorem ringTake_boot {f : State → State} (hf : ∀ s, (f s).boot = s.boot) (s : State) (p : Fin 2) (h : FrameHead) (type : Nat)
    (broadcast : Bool) : (ringTake s p h type broadcast f).boot = s.boot := by
  unfold ringTake
  repeat' split
  all_goals simp [hf]

@[simp] theorem ringLeaveNow_boot (s : State) : (ringLeaveNow s).boot = s.boot := (ringLeaveNow_steady s).boot
@[simp] theorem aimShare_boot (s : State) (g : Fin 4) (goal : Q) : (aimShare s g goal).boot = s.boot := by simp [aimShare]
@[simp] theorem sendTrip_boot (s : State) : (sendTrip s).boot = s.boot := (sendTrip_steady s).boot

@[simp] theorem markDivergent_boot {stop : State → Fin 4 → State} (h : ∀ s n, (stop s n).boot = s.boot) (s : State) :
    (markDivergent s stop).boot = s.boot := by
  simp [markDivergent, h]

/-! ## Mailbox: requests taken and answers given -/

@[simp] theorem canStamp_boot (s : State) (n : Fin 4) : (canStamp s n).2.boot = s.boot := by simp [canStamp]

@[simp] theorem sendHost_boot (s : State) (proto : Nat) (frame : List Byte) : (sendHost s proto frame).boot = s.boot := by
  unfold sendHost
  split <;> simp

@[simp] theorem deliver_boot (s : State) (slot : Nat) (frame : List Byte) : (deliver s slot frame).boot = s.boot := by simp [deliver]

@[simp] theorem respond_boot (s : State) (j : Job) (status : Nat) (payload : List Byte) : (respond s j status payload).boot = s.boot :=
  (respond_steady s j status payload).boot

@[simp] theorem succeed_boot (s t : State) (j : Job) (payload : List Byte) :
    (succeed s t j payload).boot = if responseLimit j.proto < payload.length then s.boot else t.boot := by
  simp [succeed]

@[simp] theorem refuse_boot (s : State) (j : Job) (reason : Nat) : (refuse s j reason).boot = s.boot := by simp [refuse]
@[simp] theorem badParameter_boot (s : State) (j : Job) : (badParameter s j).boot = s.boot := by simp [badParameter]
@[simp] theorem absent_boot (s : State) (j : Job) (unit : Nat) : (absent s j unit).boot = s.boot := by simp [absent]
@[simp] theorem authRequired_boot (s : State) (j : Job) : (authRequired s j).boot = s.boot := by simp [authRequired]
@[simp] theorem reject_boot (s : State) (j : Job) (status : Nat) : (reject s j status).boot = s.boot := by simp [reject]

@[simp] theorem intake_boot (s : State) (slot : Nat) (f : List Byte) : (intake s slot f).boot = s.boot := by
  unfold intake
  dsimp only
  repeat' split
  all_goals simp

@[simp] theorem serve_boot (s : State) : (serve s).boot = s.boot := by simp [serve]
@[simp] theorem markStarted_boot (s : State) (slot : Nat) : (markStarted s slot).boot = s.boot := by simp [markStarted]

theorem gate_boot {s : State} {j : Job} {body : State → Job → State} (h : (body s j).boot = s.boot) : (gate s j body).boot = s.boot := by
  unfold gate
  repeat' split
  all_goals simp [h]

/-! ## Moves held and discarded -/

@[simp] theorem holdMove_boot (s : State) (n : Fin 4) : (holdMove s n).boot = s.boot := by simp [holdMove]

@[simp] theorem enterRun_boot (s : State) (n : Fin 4) (st : AxState) (fromCatch : Bool) : (enterRun s n st fromCatch).boot = s.boot := by
  simp [enterRun]

@[simp] theorem rampStop_boot (s : State) (n : Fin 4) : (rampStop s n).boot = s.boot := by simp [rampStop]
@[simp] theorem discardMove_boot (s : State) (n : Fin 4) : (discardMove s n).boot = s.boot := (discardMove_steady s n).boot

/-! ## Safe Torque Off -/

@[simp] theorem setGden_boot (s : State) (on : Bool) : (setGden s on).boot = s.boot := (setGden_steady s on).boot
@[simp] theorem askGden_boot (s : State) : (askGden s).boot = s.boot := (askGden_steady s).boot
@[simp] theorem stoSplit_boot (old s : State) : (stoSplit old s).boot = s.boot := (stoSplit_steady old s).boot
@[simp] theorem stoEngage_boot (s : State) (src : StoSource) : (stoEngage s src).boot = s.boot := (stoEngage_steady s src).boot
@[simp] theorem settleStoInt_boot (s : State) : (settleStoInt s).boot = s.boot := (settleStoInt_steady s).boot

/-! ## Safe inputs -/

@[simp] theorem stepLock_boot (s : State) (f : Fin 8) : (stepLock s f).boot = s.boot := by simp [stepLock]
@[simp] theorem stepRestart_boot (old s : State) (f : Fin 8) : (stepRestart old s f).boot = s.boot := by simp [stepRestart]
@[simp] theorem stepTwoHand_boot (s : State) (f : Fin 8) : (stepTwoHand s f).boot = s.boot := by simp [stepTwoHand]
@[simp] theorem siDemand_boot (s : State) (f : Fin 8) : (siDemand s f).boot = s.boot := by simp [siDemand]
@[simp] theorem stepDiffer_boot (s : State) (f : Fin 8) : (stepDiffer s f).boot = s.boot := by simp [stepDiffer]
@[simp] theorem stepActive_boot (s : State) (f : Fin 8) (changed : Nat) : (stepActive s f changed).boot = s.boot := by simp [stepActive]
@[simp] theorem siResults_boot (s : State) : (siResults s).boot = s.boot := (siResults_steady s).boot
@[simp] theorem siEvaluate_boot (old s : State) (changed : Nat) : (siEvaluate old s changed).boot = s.boot := by simp [siEvaluate]

/-! ## Tack: records and twin copies -/

@[simp] theorem counterRecord_boot (s : State) (n : Fin 4) : (counterRecord s n).boot = s.boot := by simp [counterRecord]
@[simp] theorem counterRecords_boot (s : State) : (counterRecords s).boot = s.boot := by simp [counterRecords]

@[simp] theorem tackLine_boot (s : State) (oldGeneration : Nat) (oldDigest new : List Byte) (flags carrier ts : Nat) :
    (tackLine s oldGeneration oldDigest new flags carrier ts).boot = s.boot := by
  simp [tackLine]

@[simp] theorem tackRecords_boot (s : State) (old new : List Byte) (castOn ring : Bool) (carrier ts : Nat) :
    (tackRecords s old new castOn ring carrier ts).boot = s.boot := by
  simp [tackRecords]

@[simp] theorem startCopy_boot (s : State) (b : Bool) : (startCopy s b).boot = s.boot := by simp [startCopy]
@[simp] theorem announce_boot (s : State) (generation : Nat) (digest : List Byte) : (announce s generation digest).boot = s.boot := by simp [announce]

@[simp] theorem tackDone_boot (s : State) : (tackDone s).boot = s.boot := by
  unfold tackDone
  dsimp only
  repeat' split
  all_goals simp

@[simp] theorem tackReached_boot (s : State) (bits : List Nat) : (tackReached s bits).boot = s.boot := by simp [tackReached]

/-! ## What follows a command, and mailbox commands -/

@[simp] theorem settleFault_boot (old s : State) : (settleFault old s).boot = s.boot := (settleFault_steady old s).boot

/-- A mailbox command leaves cast-on as it is where its body does, since the gate before it only answers. -/
theorem keepsBoot_command {s : State} {slot code : Nat} {body : State → Job → State} (h : ∀ j, (body s j).boot = s.boot) :
    KeepsBoot s (command s slot code body) := by
  unfold command
  split
  · simp [gate_boot (h _)]
  · simp

/-! ## Auxiliary channel: commands and steps -/

@[simp] theorem positionSwitch_boot (s : State) (sw i : Fin 4) (rising : Bool) : (positionSwitch s sw i rising).boot = s.boot := by
  simp [positionSwitch]

@[simp] theorem auxSwitch_boot (s : State) (sw : Fin 4) (rising : Bool) : (auxSwitch s sw rising).boot = s.boot := by simp [auxSwitch]

theorem execRefswLatch_keepsBoot (sw : Fin 4) (rising : Bool) (held : Nat) (s : State) : KeepsBoot s (execRefswLatch sw rising held s) := by
  unfold execRefswLatch
  repeat' split
  all_goals simp

theorem execChopperCrossing_keepsBoot (bridge : Fin 2) (volts : Q) (s : State) : KeepsBoot s (execChopperCrossing bridge volts s) := by
  simp [execChopperCrossing]

theorem execBlankEnd_keepsBoot (bridge : Fin 2) (volts : Q) (s : State) : KeepsBoot s (execBlankEnd bridge volts s) := by simp [execBlankEnd]
theorem execToffEnd_keepsBoot (bridge : Fin 2) (s : State) : KeepsBoot s (execToffEnd bridge s) := by simp [execToffEnd]
theorem execAuxOpenLoad_keepsBoot (bridge : Fin 2) (s : State) : KeepsBoot s (execAuxOpenLoad bridge s) := by simp [execAuxOpenLoad]
@[simp] theorem stepperArrived_boot (s : State) : (stepperArrived s).boot = s.boot := by simp [stepperArrived]
theorem execAuxMicrostep_keepsBoot (s : State) : KeepsBoot s (execAuxMicrostep s) := by simp [execAuxMicrostep]
theorem execHoldDelay_keepsBoot (s : State) : KeepsBoot s (execHoldDelay s) := by simp [execHoldDelay]
theorem execIdleOff_keepsBoot (s : State) : KeepsBoot s (execIdleOff s) := by simp [execIdleOff]
theorem execAuxRunTimeEnd_keepsBoot (s : State) : KeepsBoot s (execAuxRunTimeEnd s) := by simp [execAuxRunTimeEnd]
theorem execTPullElapsed_keepsBoot (solenoid : Fin 2) (s : State) : KeepsBoot s (execTPullElapsed solenoid s) := by simp [execTPullElapsed]
theorem execAuxParkIncomplete_keepsBoot (s : State) : KeepsBoot s (execAuxParkIncomplete s) := by simp [execAuxParkIncomplete]

@[simp] theorem auxBegin_boot (s : State) (target : Int) (rate : Q) : (auxBegin s target rate).boot = s.boot := by
  unfold auxBegin
  split <;> simp

@[simp] theorem auxMoveBody_boot (overActive : Bool) (s : State) (j : Job) : (auxMoveBody overActive s j).boot = s.boot := by simp [auxMoveBody]

theorem execAuxMove_keepsBoot (slot : Nat) (overActive : Bool) (s : State) : KeepsBoot s (execAuxMove slot overActive s) :=
  keepsBoot_command fun j => by simp

@[simp] theorem auxStopBody_boot (s : State) (j : Job) : (auxStopBody s j).boot = s.boot := by simp [auxStopBody]
theorem execAuxStop_keepsBoot (slot : Nat) (s : State) : KeepsBoot s (execAuxStop slot s) := keepsBoot_command fun j => by simp

@[simp] theorem auxResumeBody_boot (overActive : Bool) (s : State) (j : Job) : (auxResumeBody overActive s j).boot = s.boot := by
  unfold auxResumeBody
  repeat' split
  all_goals simp

theorem execAuxResume_keepsBoot (slot : Nat) (overActive : Bool) (s : State) : KeepsBoot s (execAuxResume slot overActive s) :=
  keepsBoot_command fun j => by simp

@[simp] theorem auxStatusBody_boot (s : State) (j : Job) : (auxStatusBody s j).boot = s.boot := by simp [auxStatusBody]
theorem execAuxStatus_keepsBoot (slot : Nat) (s : State) : KeepsBoot s (execAuxStatus slot s) := keepsBoot_command fun j => by simp

/-! ## CAN: descriptors, buffers and end-to-end checks -/

@[simp] theorem canCancel_boot (s : State) (n : Fin 4) (b : Nat) : (canCancel s n b).boot = s.boot := by simp [canCancel]
@[simp] theorem canExpire_boot (s : State) (n : Fin 4) (b : Nat) : (canExpire s n b).boot = s.boot := by simp [canExpire]

@[simp] theorem canPut_boot (s : State) (n : Fin 4) (addr : Nat) (f : CanFrame) (h : FilterHit) (safety : Bool) :
    (canPut s n addr f h safety).boot = s.boot := by
  simp [canPut]

@[simp] theorem canLose_boot (s : State) (n : Fin 4) (b : Nat) : (canLose s n b).boot = s.boot := by simp [canLose]
@[simp] theorem canOver_boot (s : State) (n : Fin 4) (b : Nat) : (canOver s n b).boot = s.boot := by simp [canOver]

@[simp] theorem storeBuffer_boot (s : State) (n : Fin 4) (d : CanDesc) (f : CanFrame) (h : FilterHit) : (storeBuffer s n d f h).boot = s.boot := by
  simp [storeBuffer]

@[simp] theorem storeFifo_boot (s : State) (n k : Fin 4) (f : CanFrame) (h : FilterHit) (taken : Nat) :
    (storeFifo s n k f h taken).boot = s.boot := by
  simp [storeFifo]

@[simp] theorem e2eUse_boot (s : State) (n : Fin 4) (b : Nat) (data : List Byte) : (e2eUse s n b data).boot = s.boot := by
  unfold e2eUse
  split <;> simp

@[simp] theorem e2eFail_boot (s : State) (n : Fin 4) (b code : Nat) : (e2eFail s n b code).boot = s.boot := by simp [e2eFail]
@[simp] theorem e2eCheck_boot (s : State) (n : Fin 4) (d : CanDesc) (f : CanFrame) : (e2eCheck s n d f).boot = s.boot := by simp [e2eCheck]
@[simp] theorem canCounts_boot (s : State) (n : Fin 4) (tec rec_ : Nat) : (canCounts s n tec rec_).boot = s.boot := by simp [canCounts]
@[simp] theorem canAdopt_boot (old s : State) (n : Fin 4) : (canAdopt old s n).boot = s.boot := by simp [canAdopt]
@[simp] theorem canRamFaultAt_boot (s : State) (n : Fin 4) (g : Nat) : (canRamFaultAt s n g).boot = s.boot := by simp [canRamFaultAt]
@[simp] theorem canRamFault_boot (s : State) (word : Nat) : (canRamFault s word).boot = s.boot := by simp [canRamFault]

/-! ## Contexts -/

@[simp] theorem noteCtx_boot (s : State) (k : Nat) : (noteCtx s k).boot = s.boot := by simp [noteCtx]

@[simp] theorem noteDispatch_boot (s : State) (kind inst which : Nat) : (noteDispatch s kind inst which).boot = s.boot := by
  unfold noteDispatch
  split <;> simp

@[simp] theorem filterDispatches_boot (s : State) (n : Fin 4) : (filterDispatches s n).boot = s.boot := by simp [filterDispatches]

/-! ## Trips -/

@[simp] theorem blockScope_boot (s : State) (n : Fin 4) (off : Nat) : (blockScope s n off).boot = s.boot := by simp [blockScope]
@[simp] theorem escalate_boot (s : State) (n : Fin 4) : (escalate s n).boot = s.boot := by simp [escalate]
@[simp] theorem countBlocked_boot (s : State) (n : Fin 4) : (countBlocked s n).boot = s.boot := by simp [countBlocked]
@[simp] theorem cbcTrip_boot (s : State) (n : Fin 4) (off : Nat) : (cbcTrip s n off).boot = s.boot := by simp [cbcTrip]
@[simp] theorem actCmp_boot (s : State) (n : Fin 4) (cmp : Fin 24) (off : Nat) : (actCmp s n cmp off).boot = s.boot := by simp [actCmp]

theorem execCmpTrip_keepsBoot (cmp : Fin 24) (volts : Q) (s : State) : KeepsBoot s (execCmpTrip cmp volts s) := by
  unfold execCmpTrip
  split <;> simp

@[simp] theorem blankCmp_boot (s : State) (k : Fin 24) : (blankCmp s k).boot = s.boot := by
  unfold blankCmp
  split <;> simp

@[simp] theorem blankEnds_boot (s : State) : (blankEnds s).boot = s.boot := by simp [blankEnds]
@[simp] theorem actDsf_boot (s : State) (n : Fin 4) (ch : Fin 16) (off : Nat) : (actDsf s n ch off).boot = s.boot := by simp [actDsf]

theorem execDsfTrip_keepsBoot (ch : Fin 16) (value : Q) (s : State) : KeepsBoot s (execDsfTrip ch value s) := by
  unfold execDsfTrip
  split <;> simp

theorem execDriverFault_keepsBoot (axis : Fin 4) (leg : Fin 3) (s : State) : KeepsBoot s (execDriverFault axis leg s) := by simp [execDriverFault]
theorem execFaultNHigh_keepsBoot (axis : Fin 4) (leg : Fin 3) (s : State) : KeepsBoot s (execFaultNHigh axis leg s) := by simp [execFaultNHigh]

theorem execHandover_keepsBoot (axis : Fin 4) (cmps dsfs flts : Nat) (s : State) : KeepsBoot s (execHandover axis cmps dsfs flts s) := by
  simp [execHandover]

@[simp] theorem stoPasses_boot (s : State) (ticks : Nat) : (stoPasses s ticks).2.boot = s.boot := by simp [stoPasses]

theorem execStoEngaged_keepsBoot (src : StoSource) (ticks : Nat) (s : State) : KeepsBoot s (execStoEngaged src ticks s) := by
  unfold execStoEngaged
  split <;> simp

theorem execStoQualifying_keepsBoot (src : StoSource) (s : State) : KeepsBoot s (execStoQualifying src s) := by simp [execStoQualifying]
theorem execStoReleased_keepsBoot (src : StoSource) (s : State) : KeepsBoot s (execStoReleased src s) := by simp [execStoReleased]
theorem execStoDiscrepancy_keepsBoot (s : State) : KeepsBoot s (execStoDiscrepancy s) := by simp [execStoDiscrepancy]

theorem execFirmwareTripRequest_keepsBoot (axis : Fin 4) (cause : Nat) (s : State) : KeepsBoot s (execFirmwareTripRequest axis cause s) := by
  simp [execFirmwareTripRequest]

@[simp] theorem clockTripOne_boot (s : State) (n : Fin 4) (d : Nat) : (clockTripOne s n d).boot = s.boot := by simp [clockTripOne]
theorem execPwmClockLoss_keepsBoot (s : State) : KeepsBoot s (execPwmClockLoss s) := by simp [execPwmClockLoss]

/-! ## PWM units: carriers, compare sets and gates -/

@[simp] theorem startCarriers_boot (s : State) : (startCarriers s).boot = s.boot := by simp [startCarriers]
@[simp] theorem restartCarriers_boot (s : State) : (restartCarriers s).boot = s.boot := by simp [restartCarriers]

@[simp] theorem transferOne_boot (s : State) (l n : Fin 4) (set : CompareSet) (period : Nat) : (transferOne s l n set period).boot = s.boot := by
  simp [transferOne]

@[simp] theorem transferMember_boot (l : Fin 4) (s : State) (m : Fin 4) : (transferMember l s m).boot = s.boot := by
  unfold transferMember
  split <;> simp

@[simp] theorem countOverrun_boot (s : State) (n : Fin 4) : (countOverrun s n).boot = s.boot := by simp [countOverrun]
@[simp] theorem countLate_boot (s : State) (n : Fin 4) : (countLate s n).boot = s.boot := by simp [countLate]
@[simp] theorem deferLate_boot (s : State) (l : Fin 4) (ms : List (Fin 4)) : (deferLate s l ms).boot = s.boot := by simp [deferLate]
@[simp] theorem endDispatch_boot (s : State) (l : Fin 4) (ms : List (Fin 4)) : (endDispatch s l ms).boot = s.boot := by simp [endDispatch]
@[simp] theorem selectedReload_boot (s : State) (l : Fin 4) (ms : List (Fin 4)) : (selectedReload s l ms).boot = s.boot := by simp [selectedReload]
@[simp] theorem countCarrier_boot (s : State) (l : Fin 4) (ms : List (Fin 4)) : (countCarrier s l ms).boot = s.boot := by simp [countCarrier]
@[simp] theorem valleyCount_boot (s : State) (cmps dsfs : Nat) (n : Fin 4) : (valleyCount s cmps dsfs n).boot = s.boot := by simp [valleyCount]
@[simp] theorem valleyBlocks_boot (s : State) (n : Fin 4) : (valleyBlocks s n).boot = s.boot := by simp [valleyBlocks]
@[simp] theorem reachEvent_boot (s : State) (peak : Bool) (n : Fin 4) : (reachEvent s peak n).boot = s.boot := by simp [reachEvent]

@[simp] theorem leaveEvent_boot (s : State) (peak moved : Bool) (owed : Fin 3 → Bool) (n : Fin 4) :
    (leaveEvent s peak moved owed n).boot = s.boot := by
  simp [leaveEvent]

@[simp] theorem noteEvent_boot (s : State) (n : Fin 4) (peak : Bool) : (noteEvent s n peak).boot = s.boot := by simp [noteEvent]
@[simp] theorem positionTrigger_boot (s : State) (n : Fin 4) (peak : Bool) : (positionTrigger s n peak).boot = s.boot := by simp [positionTrigger]

@[simp] theorem carrierEvent_boot (s : State) (l : Fin 4) (peak : Bool) (cmps dsfs : Nat) : (carrierEvent s l peak cmps dsfs).boot = s.boot := by
  simp [carrierEvent, -List.foldl_reverse]

theorem execCarrierReload_keepsBoot (axis : Fin 4) (peak : Bool) (cmps dsfs : Nat) (s : State) :
    KeepsBoot s (execCarrierReload axis peak cmps dsfs s) := by
  simp [execCarrierReload]

theorem execPwmWatchdog_keepsBoot (axis : Fin 4) (s : State) : KeepsBoot s (execPwmWatchdog axis s) := by simp [execPwmWatchdog]

theorem execShadowWrite_keepsBoot (axis : Fin 4) (reg : ShadowReg) (value : Nat) (s : State) : KeepsBoot s (execShadowWrite axis reg value s) := by
  simp [execShadowWrite]

@[simp] theorem takeShadow_boot (s : State) (n : Fin 4) (atReload : Bool) : (takeShadow s n atReload).boot = s.boot := by simp [takeShadow]
@[simp] theorem takeCommit_boot (s : State) (axis : Fin 4) (atReload : Bool) : (takeCommit s axis atReload).boot = s.boot := by simp [takeCommit]

@[simp] theorem leaderCommit_boot (s : State) (axis : Fin 4) (atReload : Bool) : (leaderCommit s axis atReload).boot = s.boot := by
  simp [leaderCommit]

@[simp] theorem markShadowDone_boot (s : State) (axis : Fin 4) : (markShadowDone s axis).boot = s.boot := by simp [markShadowDone]
theorem execShadowDone_keepsBoot (axis : Fin 4) (s : State) : KeepsBoot s (execShadowDone axis s) := by simp [execShadowDone]
@[simp] theorem commitAxis_boot (s : State) (axis : Fin 4) (atReload : Bool) : (commitAxis s axis atReload).boot = s.boot := by simp [commitAxis]
theorem execCommit_keepsBoot (axis : Fin 4) (atReload : Bool) (s : State) : KeepsBoot s (execCommit axis atReload s) := by simp [execCommit]
@[simp] theorem writeSafepat_boot (s : State) (n : Fin 4) (pattern : Nat) : (writeSafepat s n pattern).boot = s.boot := by simp [writeSafepat]

theorem execSafepatWrite_keepsBoot (axis : Fin 4) (pattern : Nat) (s : State) : KeepsBoot s (execSafepatWrite axis pattern s) := by
  simp [execSafepatWrite]

@[simp] theorem edgeMissing_boot (s : State) (n : Fin 4) (leg : Fin 3) (high : Bool) : (edgeMissing s n leg high).boot = s.boot := by
  simp [edgeMissing]

@[simp] theorem countEdge_boot (s : State) (n : Fin 4) (r : EdgeRecord) (opposite : Bool) : (countEdge s n r opposite).boot = s.boot := by
  simp [countEdge]

@[simp] theorem countNoisy_boot (s : State) (n : Fin 4) (r : EdgeRecord) : (countNoisy s n r).boot = s.boot := by simp [countNoisy]

@[simp] theorem deliverRecord_boot (s : State) (n : Fin 4) (r : EdgeRecord) (tref : Nat) : (deliverRecord s n r tref).boot = s.boot := by
  simp [deliverRecord]

theorem execEdgeRecord_keepsBoot (axis : Fin 4) (leg : Fin 3) (start : Bool) (toggles : List Nat) (s : State) :
    KeepsBoot s (execEdgeRecord axis leg start toggles s) := by
  unfold execEdgeRecord
  repeat' split
  all_goals simp

/-! ## Control: shadow sets and limits -/

@[simp] theorem ageSource_boot (s : State) (i : Fin 4) : (ageSource s i).boot = s.boot := by simp [ageSource]

@[simp] theorem crossCheck_boot (s : State) (n : Fin 4) (at_ : Nat) : (crossCheck s n at_).boot = s.boot := by
  unfold crossCheck
  dsimp only
  split <;> simp

@[simp] theorem sourceNone_boot (s : State) (n i : Fin 4) : (sourceNone s n i).boot = s.boot := by simp [sourceNone]

@[simp] theorem chooseSource_boot (s : State) (n : Fin 4) (at_ : Nat) : (chooseSource s n at_).boot = s.boot := by
  unfold chooseSource
  repeat' split
  all_goals simp

/-! ## Discharge -/

@[simp] theorem dischBegin_boot (s : State) (method : Nat) (n : Fin 4) : (dischBegin s method n).boot = s.boot := by simp [dischBegin]
@[simp] theorem startResistor_boot (s : State) (n : Fin 4) : (startResistor s n).boot = s.boot := by simp [startResistor]
@[simp] theorem startWindings_boot (s : State) (n : Fin 4) : (startWindings s n).boot = s.boot := by simp [startWindings]
@[simp] theorem endWindings_boot (s : State) (n : Fin 4) : (endWindings s n).boot = s.boot := by simp [endWindings]

@[simp] theorem autoDischarge_boot (s : State) : (autoDischarge s).boot = s.boot := by
  unfold autoDischarge
  dsimp only
  repeat' split
  all_goals simp

@[simp] theorem checkDischarge_boot (s : State) (n : Fin 4) : (checkDischarge s n).boot = s.boot := by simp [checkDischarge]

/-! ## Odometry -/

@[simp] theorem odoStep_boot (s : State) (n : Fin 4) : (odoStep s n).boot = s.boot := by simp [odoStep]

/-! ## Rigger: engines and placement -/

@[simp] theorem loadPlacement_boot (s : State) (p : Placement) : (loadPlacement s p).boot = s.boot := by simp [loadPlacement]
theorem unlagged_boot {f : State → State} (h : ∀ s, (f s).boot = s.boot) (s : State) : (unlagged f s).boot = s.boot := h _
@[simp] theorem adoptSchedule_boot (s : State) (p : Placement) : (adoptSchedule s p).boot = s.boot := by simp [adoptSchedule]

/-! ## Shared load -/

@[simp] theorem sendShare_boot (s : State) (n : Fin 4) : (sendShare s n).boot = s.boot := by
  unfold sendShare
  split <;> simp

@[simp] theorem shareStep_boot (s : State) (n : Fin 4) : (shareStep s n).boot = s.boot := by
  unfold shareStep
  split <;> simp

@[simp] theorem balance_boot (s : State) (n : Fin 4) (i : Q × Q) (tu : Q) : (balance s n i tu).1.boot = s.boot := by
  unfold balance
  split <;> simp

/-! ## Current loop -/

@[simp] theorem takeRun_boot (s : State) (n : Fin 4) : (takeRun s n).boot = s.boot := by
  unfold takeRun
  dsimp only
  repeat' split
  all_goals simp

@[simp] theorem takeSs1_boot (s : State) (n : Fin 4) : (takeSs1 s n).boot = s.boot := by simp [takeSs1]
@[simp] theorem checkPair_boot (s : State) (n : Fin 4) (x : Sample) : (checkPair s n x).boot = s.boot := by simp [checkPair]
@[simp] theorem sumZero_boot (s : State) (n : Fin 4) : (sumZero s n).boot = s.boot := by simp [sumZero]
@[simp] theorem takeSample_boot (s : State) (n : Fin 4) (x : Sample) : (takeSample s n x).boot = s.boot := by simp [takeSample]
@[simp] theorem stepSls_boot (s : State) (n : Fin 4) (wm : Q) : (stepSls s n wm).boot = s.boot := by simp [stepSls]
@[simp] theorem stepSdi_boot (s : State) (n : Fin 4) (th : Q) : (stepSdi s n th).boot = s.boot := by simp [stepSdi]
@[simp] theorem stepFw_boot (s : State) (n : Fin 4) (udc w lv : Q) : (stepFw s n udc w lv).boot = s.boot := by simp [stepFw]

@[simp] theorem trackingError_boot (s : State) (n : Fin 4) (ed eq : Q) (sat : Bool) : (trackingError s n ed eq sat).boot = s.boot := by
  simp [trackingError]

@[simp] theorem commitSet_boot (s : State) (n : Fin 4) : (commitSet s n).boot = s.boot := by simp [commitSet]

@[simp] theorem writeShadow_boot (s : State) (n : Fin 4) (d : Fin 3 → Q) (ratio : Q) : (writeShadow s n d ratio).boot = s.boot := by
  simp [writeShadow]

@[simp] theorem captureRecord_boot (s : State) (n : Fin 4) : (captureRecord s n).boot = s.boot := by simp [captureRecord]
@[simp] theorem conduct_boot (s : State) (n : Fin 4) : (conduct s n).boot = s.boot := by simp [conduct]

@[simp] theorem addSums_boot (s : State) (n : Fin 4) (id iq ud uq w : Q) (sat : Bool) : (addSums s n id iq ud uq w sat).boot = s.boot := by
  simp [addSums]

@[simp] theorem regulate_boot (s : State) (n : Fin 4) (udc w : Q) (im diff ref : Q × Q) : (regulate s n udc w im diff ref).boot = s.boot := by
  simp [regulate]

@[simp] theorem modulate_boot (s : State) (n : Fin 4) (udc thu : Q) : (modulate s n udc thu).1.boot = s.boot := by simp [modulate]
@[simp] theorem restLoop_boot (s : State) (n : Fin 4) : (restLoop s n).boot = s.boot := by simp [restLoop]

@[simp] theorem runStages_boot (s : State) (n : Fin 4) (x : Sample) (th w ratio : Q) : (runStages s n x th w ratio).boot = s.boot := by
  unfold runStages
  dsimp only
  rw [restLoop_boot, addSums_boot, State.setAxis_boot, commitSet_boot, writeShadow_boot, modulate_boot, ite_boot, trackingError_boot, ite_self,
    regulate_boot, ite_boot, stepFw_boot, ite_self]
  rfl

@[simp] theorem groupSource_boot (s : State) (n : Fin 4) (at_ : Nat) : (groupSource s n at_).boot = s.boot := by simp [groupSource]

@[simp] theorem currentLoop_boot (s : State) (n : Fin 4) : (currentLoop s n).boot = s.boot := by
  unfold currentLoop
  simp only [odoStep_boot, ite_boot, ite_self, sendShare_boot, conduct_boot, captureRecord_boot, runStages_boot,
    checkDischarge_boot, stepSdi_boot, stepSls_boot, State.setCtl_boot, groupSource_boot]
  rw [foldl_boot fun t r => by split <;> simp]
  simp

theorem execCurrentLoopDispatch_keepsBoot (axis : Fin 4) (s : State) : KeepsBoot s (execCurrentLoopDispatch axis s) := by
  simp [execCurrentLoopDispatch]

theorem execSampleMissing_keepsBoot (axis : Fin 4) (s : State) : KeepsBoot s (execSampleMissing axis s) := by
  unfold execSampleMissing
  repeat' split
  all_goals simp

/-! ## Tracking and monitors -/

@[simp] theorem trackRs_boot (s : State) (n : Fin 4) (id iq ud w : Q) : (trackRs s n id iq ud w).boot = s.boot := by simp [trackRs]
@[simp] theorem judgeKe_boot (s : State) (n : Fin 4) : (judgeKe s n).boot = s.boot := by simp [judgeKe]
@[simp] theorem trackKe_boot (s : State) (n : Fin 4) (id iq uq w : Q) : (trackKe s n id iq uq w).boot = s.boot := by simp [trackKe]
@[simp] theorem countEnergy_boot (s : State) (n : Fin 4) : (countEnergy s n).boot = s.boot := by simp [countEnergy]
@[simp] theorem observerGains_boot (s : State) (n : Fin 4) : (observerGains s n).boot = s.boot := by simp [observerGains]
@[simp] theorem trackingStep_boot (s : State) (n : Fin 4) : (trackingStep s n).boot = s.boot := by simp [trackingStep]
theorem execTrackingRun_keepsBoot (axis : Fin 4) (s : State) : KeepsBoot s (execTrackingRun axis s) := by simp [execTrackingRun]

@[simp] theorem motionCheck_boot (s : State) (n : Fin 4) (turned : Q) : (motionCheck s n turned).boot = s.boot := by
  unfold motionCheck
  split <;> simp

theorem execMonitorRun_keepsBoot (axis : Fin 4) (s : State) : KeepsBoot s (execMonitorRun axis s) := by simp [execMonitorRun]

/-! ## Observer and catch -/

@[simp] theorem loseRotor_boot (s : State) (n : Fin 4) : (loseRotor s n).boot = s.boot := by simp [loseRotor]
@[simp] theorem recaptured_boot (s : State) (n : Fin 4) : (recaptured s n).boot = s.boot := by simp [recaptured]
@[simp] theorem reseed_boot (s : State) (n : Fin 4) : (reseed s n).boot = s.boot := by simp [reseed]

@[simp] theorem judgeObserver_boot (s : State) (n : Fin 4) (ih : Q) : (judgeObserver s n ih).boot = s.boot := by
  unfold judgeObserver
  dsimp only
  split <;> simp

theorem execObserverDispatch_keepsBoot (axis : Fin 4) (s : State) : KeepsBoot s (execObserverDispatch axis s) := by simp [execObserverDispatch]

theorem execObserverRecaptureFailed_keepsBoot (axis : Fin 4) (s : State) : KeepsBoot s (execObserverRecaptureFailed axis s) := by
  simp [execObserverRecaptureFailed]

@[simp] theorem refuseCatch_boot (s : State) (n : Fin 4) (code data : Nat) (extra : List Byte) : (refuseCatch s n code data extra).boot = s.boot := by
  simp [refuseCatch]

@[simp] theorem overspeed_boot (s : State) (n : Fin 4) (eLine : Q) : (overspeed s n eLine).boot = s.boot := by simp [overspeed]
@[simp] theorem wrongMotorCheck_boot (s : State) (n : Fin 4) (w eLine : Q) : (wrongMotorCheck s n w eLine).boot = s.boot := by simp [wrongMotorCheck]
@[simp] theorem notArmed_boot (s : State) (n : Fin 4) : (notArmed s n).boot = s.boot := by simp [notArmed]
@[simp] theorem synchronise_boot (s : State) (n : Fin 4) : (synchronise s n).boot = s.boot := by simp [synchronise]

@[simp] theorem catchOn_boot (s : State) (n : Fin 4) (w ang eLine : Q) (still : Bool) : (catchOn s n w ang eLine still).boot = s.boot := by
  unfold catchOn
  repeat' split
  all_goals simp

theorem execCatchStep_keepsBoot (axis : Fin 4) (s : State) : KeepsBoot s (execCatchStep axis s) := by
  unfold execCatchStep
  split <;> simp

theorem execStandstillIdentification_keepsBoot (axis : Fin 4) (iPos iNeg : Q) (s : State) :
    KeepsBoot s (execStandstillIdentification axis iPos iNeg s) := by
  simp [execStandstillIdentification]

@[simp] theorem releaseBrake_boot (s : State) (n : Fin 4) : (releaseBrake s n).boot = s.boot := by simp [releaseBrake]
theorem execSettleAndRelease_keepsBoot (axis : Fin 4) (s : State) : KeepsBoot s (execSettleAndRelease axis s) := by simp [execSettleAndRelease]
theorem execCatchTimeout_keepsBoot (axis : Fin 4) (s : State) : KeepsBoot s (execCatchTimeout axis s) := by simp [execCatchTimeout]

theorem execAxisStartResponse_keepsBoot (axis : Fin 4) (s : State) : KeepsBoot s (execAxisStartResponse axis s) := by
  unfold execAxisStartResponse
  dsimp only
  repeat' split
  all_goals simp

/-! ## Axis commands -/

@[simp] theorem beginCatch_boot (s : State) (n : Fin 4) (slot : Nat) (st : AxState) (warm : Bool) (ref ramp : Q) (clamped : Bool) :
    (beginCatch s n slot st warm ref ramp clamped).boot = s.boot := by
  simp [beginCatch]

@[simp] theorem startOff_boot (s : State) (j : Job) (n : Fin 4) (st : AxState) (warm : Bool) (ref ramp : Q) :
    (startOff s j n st warm ref ramp).boot = s.boot := by
  unfold startOff
  repeat' split
  all_goals simp

@[simp] theorem startRunning_boot (s : State) (j : Job) (n : Fin 4) (st : AxState) (warm : Bool) (ref ramp : Q) :
    (startRunning s j n st warm ref ramp).boot = s.boot := by
  simp [startRunning]

theorem execAxisStart_keepsBoot (slot : Nat) (s : State) : KeepsBoot s (execAxisStart slot s) :=
  keepsBoot_command fun j => by
    repeat' split
    all_goals simp

@[simp] theorem answerStop_boot {s t : State} (h : t.boot = s.boot) (j : Job) (n : Fin 4) : (answerStop s t j n).boot = s.boot := by
  simp [answerStop, h]

@[simp] theorem stopElsewhere_boot (s : State) (n : Fin 4) : (stopElsewhere s n).boot = s.boot := by simp [stopElsewhere]

theorem execAxisStopRamp_keepsBoot (slot : Nat) (s : State) : KeepsBoot s (execAxisStopRamp slot s) :=
  keepsBoot_command fun j => by
    split <;> simp

theorem execAxisStopSs1_keepsBoot (slot : Nat) (s : State) : KeepsBoot s (execAxisStopSs1 slot s) :=
  keepsBoot_command fun j => by
    split <;> simp

theorem execAxisTorque_keepsBoot (slot : Nat) (s : State) : KeepsBoot s (execAxisTorque slot s) :=
  keepsBoot_command fun j => by
    split <;> simp

theorem execAxisSpeed_keepsBoot (slot : Nat) (s : State) : KeepsBoot s (execAxisSpeed slot s) :=
  keepsBoot_command fun j => by
    split <;> simp

@[simp] theorem beginMove_boot (s : State) (n : Fin 4) (target : Int) (vMax : Q) : (beginMove s n target vMax).boot = s.boot := by simp [beginMove]

theorem execAxisMove_keepsBoot (slot : Nat) (s : State) : KeepsBoot s (execAxisMove slot s) :=
  keepsBoot_command fun j => by
    repeat' split
    all_goals simp

theorem execAxisResume_keepsBoot (slot : Nat) (s : State) : KeepsBoot s (execAxisResume slot s) :=
  keepsBoot_command fun j => by
    repeat' split
    all_goals simp

theorem execAxisStatus_keepsBoot (slot : Nat) (s : State) : KeepsBoot s (execAxisStatus slot s) := keepsBoot_command fun j => by simp
@[simp] theorem claimFor_boot (s : State) (n : Fin 4) (resource : Nat) : (claimFor s n resource).boot = s.boot := by simp [claimFor]

@[simp] theorem referenceBody_boot (s : State) (j : Job) (n i : Fin 4) : (referenceBody s j n i).boot = s.boot := by
  unfold referenceBody
  dsimp only
  split <;> simp

theorem execAxisReference_keepsBoot (slot : Nat) (s : State) : KeepsBoot s (execAxisReference slot s) :=
  keepsBoot_command fun j => by
    repeat' split
    all_goals simp

/-! ## Position events -/

@[simp] theorem bsEdge_boot (s : State) (n : Fin 4) (d : Int) (half : Bool) : (bsEdge s n d half).boot = s.boot := by simp [bsEdge]
@[simp] theorem bsEdges_boot (s : State) (i : Fin 4) (d : Int) (half : Bool) : (bsEdges s i d half).boot = s.boot := by simp [bsEdges]
@[simp] theorem frameError_boot (s : State) (i : Fin 4) : (frameError s i).boot = s.boot := by simp [frameError]
@[simp] theorem countEdgeAt_boot (s : State) (i : Fin 4) (d : Int) (half : Bool) : (countEdgeAt s i d half).boot = s.boot := by simp [countEdgeAt]
@[simp] theorem quadError_boot (s : State) (i : Fin 4) : (quadError s i).boot = s.boot := by simp [quadError]

@[simp] theorem bsLevels_boot (s : State) (i : Fin 4) (a b half : Bool) (clocks : Nat) : (bsLevels s i a b half clocks).boot = s.boot := by
  unfold bsLevels
  repeat' split
  all_goals simp

theorem execQuadratureEdge_keepsBoot (ifc : Fin 4) (a b half : Bool) (clocks : Nat) (s : State) :
    KeepsBoot s (execQuadratureEdge ifc a b half clocks s) := by
  unfold execQuadratureEdge
  dsimp only
  repeat' split
  all_goals simp

@[simp] theorem bsIndex_boot (s : State) (i : Fin 4) (rising : Bool) (clocks : Nat) : (bsIndex s i rising clocks).boot = s.boot := by simp [bsIndex]
@[simp] theorem indexAt_boot (s : State) (i : Fin 4) : (indexAt s i).boot = s.boot := by simp [indexAt]

theorem execIndex_keepsBoot (ifc : Fin 4) (rising : Bool) (clocks : Nat) (s : State) : KeepsBoot s (execIndex ifc rising clocks s) := by
  simp [execIndex]

@[simp] theorem serialGood_boot (s : State) (i : Fin 4) (pos : Nat) : (serialGood s i pos).boot = s.boot := by
  unfold serialGood
  split <;> simp

theorem execSerialFrame_keepsBoot (ifc : Fin 4) (reply : SerialReply) (s : State) : KeepsBoot s (execSerialFrame ifc reply s) := by
  simp [execSerialFrame]

@[simp] theorem amplitudeBad_boot (s : State) (i : Fin 4) (sq : Q) : (amplitudeBad s i sq).boot = s.boot := by simp [amplitudeBad]

@[simp] theorem estimate_boot (s : State) (i : Fin 4) (trk : Q × Q × Q) (pNew : Int) (at_ : Nat) (ref : Bool) :
    (estimate s i trk pNew at_ ref).boot = s.boot := by
  simp [estimate]

@[simp] theorem sincosRun_boot (s : State) (i : Fin 4) : (sincosRun s i).boot = s.boot := by simp [sincosRun]
@[simp] theorem resolverRun_boot (s : State) (i : Fin 4) : (resolverRun s i).boot = s.boot := by simp [resolverRun]

theorem execPositionContextDispatch_keepsBoot (ifc : Fin 4) (s : State) : KeepsBoot s (execPositionContextDispatch ifc s) := by
  simp [execPositionContextDispatch]

theorem execPositionSnapshot_keepsBoot (ifc : Fin 4) (s : State) : KeepsBoot s (execPositionSnapshot ifc s) := by simp [execPositionSnapshot]

theorem execSourceDisagree_keepsBoot (axis : Fin 4) (s : State) : KeepsBoot s (execSourceDisagree axis s) := by
  unfold execSourceDisagree
  split <;> simp

/-! ## Drive safety functions -/

@[simp] theorem idleOverspeed_boot (s : State) (n : Fin 4) : (idleOverspeed s n).boot = s.boot := by simp [idleOverspeed]
@[simp] theorem safeStateStep_boot (s : State) (n : Fin 4) (e : Q) : (safeStateStep s n e).boot = s.boot := by simp [safeStateStep]

theorem execSafeStateRun_keepsBoot (axis : Fin 4) (s : State) : KeepsBoot s (execSafeStateRun axis s) := by
  unfold execSafeStateRun
  repeat' split
  all_goals simp

@[simp] theorem stopStands_boot (s : State) (n : Fin 4) : (stopStands s n).boot = s.boot := by simp [stopStands]
theorem execSs1EnvelopeCheck_keepsBoot (axis : Fin 4) (s : State) : KeepsBoot s (execSs1EnvelopeCheck axis s) := by simp [execSs1EnvelopeCheck]
theorem execStopDeadlineMissed_keepsBoot (axis : Fin 4) (s : State) : KeepsBoot s (execStopDeadlineMissed axis s) := by simp [execStopDeadlineMissed]
theorem execSlsExceeded_keepsBoot (axis : Fin 4) (s : State) : KeepsBoot s (execSlsExceeded axis s) := by simp [execSlsExceeded]
theorem execBrakeReleaseTime_keepsBoot (axis : Fin 4) (s : State) : KeepsBoot s (execBrakeReleaseTime axis s) := by simp [execBrakeReleaseTime]
theorem execBrakeEngageTime_keepsBoot (axis : Fin 4) (s : State) : KeepsBoot s (execBrakeEngageTime axis s) := by simp [execBrakeEngageTime]
@[simp] theorem dischFinished_boot (s : State) : (dischFinished s).boot = s.boot := by simp [dischFinished]
theorem execDischargeDone_keepsBoot (s : State) : KeepsBoot s (execDischargeDone s) := by simp [execDischargeDone]
theorem execDischargeTimeout_keepsBoot (s : State) : KeepsBoot s (execDischargeTimeout s) := by simp [execDischargeTimeout]

/-! ## Converters and modulators -/

@[simp] theorem startInjected_boot (s : State) (conv : Fin 8) (slots : List Nat) : (startInjected s conv slots).boot = s.boot := by
  simp [startInjected]

@[simp] theorem latchQuadrants_boot (s : State) (conv : Nat) (slots : List Nat) : (latchQuadrants s conv slots).boot = s.boot := by
  simp [latchQuadrants]

@[simp] theorem triggerConv_boot (s : State) (conv : Fin 8) (code : Nat) : (triggerConv s conv code).boot = s.boot := by
  unfold triggerConv
  repeat' split
  all_goals simp

theorem execInjectedTrigger_keepsBoot (code : Nat) (s : State) : KeepsBoot s (execInjectedTrigger code s) := by simp [execInjectedTrigger]
@[simp] theorem advanceConv_boot (s : State) (conv : Fin 8) : (advanceConv s conv).boot = s.boot := by simp [advanceConv]

@[simp] theorem storeResult_boot (s : State) (conv : Fin 8) (k : Fin 20) (ain code : Nat) : (storeResult s conv k ain code).boot = s.boot := by
  simp [storeResult]

theorem execSarResult_keepsBoot (conv : Fin 8) (code : Nat) (check : Bool) (s : State) : KeepsBoot s (execSarResult conv code check s) := by
  unfold execSarResult
  repeat' split
  all_goals simp

@[simp] theorem dsFault_boot (s : State) (ch : Fin 16) (clockBad : Bool) : (dsFault s ch clockBad).boot = s.boot := by simp [dsFault]

theorem execDeltaSigmaEvaluation_keepsBoot (ch : Fin 16) (bits : List Bool) (triggered : Bool) (s : State) :
    KeepsBoot s (execDeltaSigmaEvaluation ch bits triggered s) := by
  simp [execDeltaSigmaEvaluation]

@[simp] theorem dsGood_boot (s : State) (ch : Fin 16) (clock : Bool) : (dsGood s ch clock).boot = s.boot := by simp [dsGood]

theorem execDsModulatorFault_keepsBoot (clock : Option (Fin 4)) (ch : Fin 16) (begins : Bool) (s : State) :
    KeepsBoot s (execDsModulatorFault clock ch begins s) := by
  unfold execDsModulatorFault
  repeat' split
  all_goals simp

theorem execCurrentZeroCalibration_keepsBoot (axis : Fin 4) (leg : Fin 3) (s : State) : KeepsBoot s (execCurrentZeroCalibration axis leg s) := by
  simp [execCurrentZeroCalibration]

@[simp] theorem implausible_boot (s : State) (c : Fin 8) : (implausible s c).boot = s.boot := by simp [implausible]
@[simp] theorem unresolved_boot (s : State) (reference : Bool) : (unresolved s reference).boot = s.boot := by simp [unresolved]
@[simp] theorem judgeConverter_boot (s : State) (five : Bool) (c : Fin 8) : (judgeConverter s five c).boot = s.boot := by simp [judgeConverter]
theorem execPlausibilityEvaluation_keepsBoot (s : State) : KeepsBoot s (execPlausibilityEvaluation s) := by simp [execPlausibilityEvaluation]

/-! ## Backstay -/

theorem execLowSidePair_keepsBoot (axis : Fin 4) (codeU codeV : Nat) (s : State) : KeepsBoot s (execLowSidePair axis codeU codeV s) := by
  unfold execLowSidePair
  dsimp only
  repeat' split
  all_goals simp

@[simp] theorem bsRemove_boot (s : State) (n : Fin 4) : (bsRemove s n).boot = s.boot := by simp [bsRemove]
@[simp] theorem bsSafeAll_boot (s : State) : (bsSafeAll s).boot = s.boot := by simp [bsSafeAll]

theorem execBackstayGateRelease_keepsBoot (axis : Fin 4) (s : State) : KeepsBoot s (execBackstayGateRelease axis s) := by
  simp [execBackstayGateRelease]

theorem execBackstayPattern_keepsBoot (axis : Fin 4) (balls : Nat) (s : State) : KeepsBoot s (execBackstayPattern axis balls s) := by
  simp [execBackstayPattern]

@[simp] theorem loseLiveness_boot (s : State) : (loseLiveness s).boot = s.boot := by simp [loseLiveness]
theorem execLivenessLoss_keepsBoot (s : State) : KeepsBoot s (execLivenessLoss s) := by simp [execLivenessLoss]
theorem execBackstayFeedLost_keepsBoot (s : State) : KeepsBoot s (execBackstayFeedLost s) := by simp [execBackstayFeedLost]
@[simp] theorem bsEvaluate_boot (s : State) (n : Fin 4) : (bsEvaluate s n).boot = s.boot := by simp [bsEvaluate]
theorem execBackstayEvaluation_keepsBoot (s : State) : KeepsBoot s (execBackstayEvaluation s) := by simp [execBackstayEvaluation]
@[simp] theorem takeEntry_boot (s : State) (f : List Byte) (n : Fin 4) : (takeEntry s f n).boot = s.boot := by simp [takeEntry]
@[simp] theorem bsCopy_boot (s : State) : (bsCopy s).boot = s.boot := by simp [bsCopy]
@[simp] theorem rejectFrame_boot (s : State) : (rejectFrame s).boot = s.boot := by simp [rejectFrame]
@[simp] theorem acceptFrame_boot (s : State) (f : List Byte) : (acceptFrame s f).boot = s.boot := by simp [acceptFrame]
theorem execWindowFrame_keepsBoot (bytes : List Byte) (s : State) : KeepsBoot s (execWindowFrame bytes s) := by simp [execWindowFrame]

/-! ## CAN controllers -/

@[simp] theorem intakeTag_boot (s : State) (frame : List Byte) : (intakeTag s frame).boot = s.boot := by
  unfold intakeTag
  split <;> simp

@[simp] theorem segment_boot (s : State) (data : List Byte) : (segment s data).boot = s.boot := by
  unfold segment
  split <;> simp

@[simp] theorem hostFrame_boot (s : State) (n : Fin 4) (f : CanFrame) : (hostFrame s n f).boot = s.boot := by simp [hostFrame]

theorem execSegmentTimeout_keepsBoot (s : State) : KeepsBoot s (execSegmentTimeout s) := by
  unfold execSegmentTimeout
  split <;> simp

theorem hostTx_boot {s t : State} {n : Fin 4} {b : Nat} {x : HostTx} (h : hostTx s n b = some (x, t)) : t.boot = s.boot := by
  unfold hostTx at h
  repeat' split at h
  all_goals cases h
  rfl

@[simp] theorem hostExpire_boot (t : State) (n : Fin 4) : (hostExpire t n).boot = t.boot := by simp [hostExpire]

theorem execCanRxFrame_keepsBoot (ctl : Fin 4) (received : CanFrame) (taken : Nat) (s : State) :
    KeepsBoot s (execCanRxFrame ctl received taken s) := by
  unfold execCanRxFrame
  dsimp only
  repeat' split
  all_goals simp

theorem execRxLock_keepsBoot (ctl : Fin 4) (write : DescWrite) (lock : Bool) (s : State) : KeepsBoot s (execRxLock ctl write lock s) := by
  simp [execRxLock]

@[simp] theorem txFill_boot (s : State) (n : Fin 4) (d : CanDesc) : (txFill s n d).boot = s.boot := by simp [txFill]

theorem execTxreq_keepsBoot (ctl : Fin 4) (write : DescWrite) (s : State) : KeepsBoot s (execTxreq ctl write s) := by
  unfold execTxreq
  dsimp only
  repeat' split
  all_goals simp

theorem execCancelReq_keepsBoot (ctl : Fin 4) (write : DescWrite) (sending : Bool) (s : State) : KeepsBoot s (execCancelReq ctl write sending s) := by
  simp [execCancelReq]

theorem execCanTxComplete_keepsBoot (ctl : Fin 4) (buf stamp sof : Nat) (s : State) : KeepsBoot s (execCanTxComplete ctl buf stamp sof s) := by
  unfold execCanTxComplete
  dsimp only
  split
  · simp
  · split
    next _ _ _ h => simp [hostTx_boot h]
    next =>
      repeat' split
      all_goals simp

theorem execTxExpired_keepsBoot (ctl : Fin 4) (buf : Nat) (sending : Bool) (s : State) : KeepsBoot s (execTxExpired ctl buf sending s) := by
  unfold execTxExpired
  split
  next _ _ _ h => simp [hostTx_boot h]
  next => split <;> simp

theorem execCanBusError_keepsBoot (ctl : Fin 4) (transmitter first : Bool) (kind buf : Nat) (s : State) :
    KeepsBoot s (execCanBusError ctl transmitter first kind buf s) := by
  unfold execCanBusError
  dsimp only
  split
  · simp
  · rw [keepsBoot_finish]
    split
    next _ _ _ _ h => simp [hostTx_boot h]
    all_goals simp

theorem execCanRecovered_keepsBoot (ctl : Fin 4) (s : State) : KeepsBoot s (execCanRecovered ctl s) := by simp [execCanRecovered]
theorem execBusIntegration_keepsBoot (ctl : Fin 4) (s : State) : KeepsBoot s (execBusIntegration ctl s) := by simp [execBusIntegration]

theorem execE2eTimeout_keepsBoot (ctl : Fin 4) (buf : Nat) (s : State) : KeepsBoot s (execE2eTimeout ctl buf s) := by
  unfold execE2eTimeout
  split <;> simp

@[simp] theorem canJob_boot {s : State} {f : Fin 4 → State} (h : ∀ n, (f n).boot = s.boot) (j : Job) : (canJob s j f).boot = s.boot := by
  simp [canJob, h]

theorem execCanStatus_keepsBoot (slot : Nat) (s : State) : KeepsBoot s (execCanStatus slot s) := keepsBoot_command fun j => by simp
theorem execCanRecover_keepsBoot (slot : Nat) (s : State) : KeepsBoot s (execCanRecover slot s) := keepsBoot_command fun j => by simp

@[simp] theorem canSelftest_boot (s : State) (n : Fin 4) (kind : Nat) (good : Bool) (j : Job) : (canSelftest s n kind good j).boot = s.boot := by
  simp [canSelftest]

theorem execCanSelftestInternal_keepsBoot (slot : Nat) (good : Bool) (s : State) : KeepsBoot s (execCanSelftestInternal slot good s) :=
  keepsBoot_command fun j => by simp

theorem execCanSelftestExternal_keepsBoot (slot : Nat) (good : Bool) (s : State) : KeepsBoot s (execCanSelftestExternal slot good s) :=
  keepsBoot_command fun j => by
    split
    · rfl
    · exact canJob_boot (fun n => by split <;> simp) j

/-! ## Load failures -/

@[simp] theorem holdShadow_boot (s : State) (img : List Byte) (slot : Bool) : (holdShadow s img slot).boot = s.boot := by simp [holdShadow]
@[simp] theorem raiseLoad_boot (s : State) (f : LoadFailure) : (raiseLoad s f).boot = s.boot := by simp [raiseLoad]

/-! ## Differences between sets -/

@[simp] theorem swapInstant_boot (s : State) : (swapInstant s).2.boot = s.boot := by
  unfold swapInstant
  split <;> simp

/-! ## Configuration slots -/

theorem execCfgWriteBegin_keepsBoot (slot : Nat) (s : State) : KeepsBoot s (execCfgWriteBegin slot s) := keepsBoot_command fun j => by simp
@[simp] theorem finishWriteBegin_boot (s : State) (j : Job) : (finishWriteBegin s j).boot = s.boot := by simp [finishWriteBegin]

theorem execCfgWriteData_keepsBoot (slot : Nat) (s : State) : KeepsBoot s (execCfgWriteData slot s) :=
  keepsBoot_command fun j => by
    split <;> simp

theorem execCfgWriteEnd_keepsBoot (slot : Nat) (s : State) : KeepsBoot s (execCfgWriteEnd slot s) :=
  keepsBoot_command fun j => by
    split <;> simp

@[simp] theorem finishWriteEnd_boot (s : State) (j : Job) : (finishWriteEnd s j).boot = s.boot := by
  unfold finishWriteEnd
  dsimp only
  split <;> simp

theorem execCfgDigest_keepsBoot (slot : Nat) (s : State) : KeepsBoot s (execCfgDigest slot s) :=
  keepsBoot_command fun j => by
    dsimp only
    repeat' split
    all_goals simp

theorem execCfgStage_keepsBoot (slot : Nat) (s : State) : KeepsBoot s (execCfgStage slot s) := keepsBoot_command fun j => by simp

@[simp] theorem finishStage_boot (s : State) (j : Job) : (finishStage s j).boot = s.boot := by
  unfold finishStage
  dsimp only
  split <;> simp

theorem execCfgDiscard_keepsBoot (slot : Nat) (s : State) : KeepsBoot s (execCfgDiscard slot s) := keepsBoot_command fun j => by simp

theorem execTwinCopyDone_keepsBoot (s : State) : KeepsBoot s (execTwinCopyDone s) := by
  unfold execTwinCopyDone
  split <;> simp

theorem execCfgTack_keepsBoot (slot : Nat) (s : State) : KeepsBoot s (execCfgTack slot s) :=
  keepsBoot_command fun j => by
    split <;> simp

@[simp] theorem swapFn_boot (d : SecDiff) (s : State) (f : Fin 8) : (swapFn d s f).boot = s.boot := by simp [swapFn]
@[simp] theorem swapSafeIn_boot (s : State) (d : SecDiff) : (swapSafeIn s d).boot = s.boot := by simp [swapSafeIn]
@[simp] theorem swapInterface_boot (old s : State) (d : SecDiff) : (swapInterface old s d).boot = s.boot := by simp [swapInterface]
@[simp] theorem swapProfile_boot (s : State) (d : SecDiff) : (swapProfile s d).boot = s.boot := by simp [swapProfile]
@[simp] theorem swapSets_boot (s : State) (a b : List Byte) : (swapSets s a b).boot = s.boot := by simp [swapSets, unlagged_boot]

theorem execTackSwap_keepsBoot (s : State) : KeepsBoot s (execTackSwap s) := by
  unfold execTackSwap
  split <;> simp

theorem execLongCommandComplete_keepsBoot (slot : Nat) (s : State) : KeepsBoot s (execLongCommandComplete slot s) := by
  unfold execLongCommandComplete
  split <;> simp

/-! ## Tamper, erasure and lock -/

@[simp] theorem applyLock_boot (s : State) : (applyLock s).boot = s.boot := by simp [applyLock]
@[simp] theorem applyErase_boot (s : State) : (applyErase s).boot = s.boot := by simp [applyErase]
@[simp] theorem securityRecord_boot (s : State) (src rtc : Nat) : (securityRecord s src rtc).boot = s.boot := by simp [securityRecord]
@[simp] theorem eraseReport_boot (s : State) (src : Nat) : (eraseReport s src).boot = s.boot := by simp [eraseReport]
@[simp] theorem tamperReport_boot (s : State) (src rtc : Nat) : (tamperReport s src rtc).boot = s.boot := by simp [tamperReport]
@[simp] theorem tamper_boot (s : State) (src held : Nat) : (tamper s src held).boot = s.boot := by simp [tamper]
@[simp] theorem tamperFlush_boot (s : State) : (tamperFlush s).boot = s.boot := by simp [tamperFlush]
@[simp] theorem authFailed_boot (s : State) : (authFailed s).boot = s.boot := by simp [authFailed]
@[simp] theorem useNonce_boot (s : State) (k : Fin 3) : (useNonce s k).boot = s.boot := by simp [useNonce]
@[simp] theorem makeLogKey_boot (s : State) : (makeLogKey s).boot = s.boot := by simp [makeLogKey]

@[simp] theorem publishLogKey_boot (s : State) : (publishLogKey s).boot = s.boot := by
  unfold publishLogKey
  split <;> simp

/-! ## Drive log -/

@[simp] theorem gapRecord_boot (s : State) (first last : Nat) : (gapRecord s first last).boot = s.boot := by simp [gapRecord]

@[simp] theorem eraseSector_boot (s : State) (index : Nat) : (eraseSector s index).boot = s.boot := by
  unfold eraseSector
  dsimp only
  repeat' split
  all_goals simp

@[simp] theorem reportDropped_boot (s : State) : (reportDropped s).boot = s.boot := by simp [reportDropped]

theorem execLogFlush_keepsBoot (erase program : Q) (s : State) : KeepsBoot s (execLogFlush erase program s) := by
  unfold execLogFlush
  split <;> simp

@[simp] theorem flushAll_boot (s : State) : (flushAll s).boot = s.boot := by simp [flushAll]
theorem execLogStall_keepsBoot (s : State) : KeepsBoot s (execLogStall s) := by simp [execLogStall]
theorem execCheckpointSigned_keepsBoot (s : State) : KeepsBoot s (execCheckpointSigned s) := by simp [execCheckpointSigned]
theorem execCountersRecord_keepsBoot (s : State) : KeepsBoot s (execCountersRecord s) := by simp [execCountersRecord]
@[simp] theorem reloadCounters_boot (s : State) : (reloadCounters s).boot = s.boot := by simp [reloadCounters]
theorem execLogInfo_keepsBoot (slot : Nat) (s : State) : KeepsBoot s (execLogInfo slot s) := keepsBoot_command fun j => by simp
theorem execLogRead_keepsBoot (slot : Nat) (s : State) : KeepsBoot s (execLogRead slot s) := keepsBoot_command fun j => by simp
theorem execLogExported_keepsBoot (slot : Nat) (s : State) : KeepsBoot s (execLogExported slot s) := keepsBoot_command fun j => by simp

theorem execLogCheckpoint_keepsBoot (slot : Nat) (s : State) : KeepsBoot s (execLogCheckpoint slot s) :=
  keepsBoot_command fun j => by
    dsimp only
    repeat' split
    all_goals simp

theorem execLogCounters_keepsBoot (slot : Nat) (s : State) : KeepsBoot s (execLogCounters slot s) := keepsBoot_command fun j => by simp
theorem execExportTimeout_keepsBoot (s : State) : KeepsBoot s (execExportTimeout s) := by simp [execExportTimeout]
@[simp] theorem stagingLost_boot (s : State) : (stagingLost s).boot = s.boot := by simp [stagingLost]

/-! ## Halyard frames -/

theorem execLinkTraining_keepsBoot (port : Fin 2) (s : State) : KeepsBoot s (execLinkTraining port s) := by simp [execLinkTraining]
theorem execLinkUp_keepsBoot (port : Fin 2) (s : State) : KeepsBoot s (execLinkUp port s) := by simp [execLinkUp]
@[simp] theorem beginElection_boot (s : State) : (beginElection s).boot = s.boot := (beginElection_steady s).boot
@[simp] theorem splitRing_boot (s : State) (reach : Nat) : (splitRing s reach).boot = s.boot := (splitRing_steady s reach).boot
@[simp] theorem dropPort_boot (s : State) (port : Fin 2) (reach : Nat) : (dropPort s port reach).boot = s.boot := by simp [dropPort]
theorem execLinkDown_keepsBoot (port : Fin 2) (reach : Nat) (s : State) : KeepsBoot s (execLinkDown port reach s) := by simp [execLinkDown]
@[simp] theorem dropPorts_boot (s : State) (gone : List (Fin 2)) : (dropPorts s gone).boot = s.boot := by simp [dropPorts]
@[simp] theorem halyardClockLost_boot (s : State) : (halyardClockLost s).boot = s.boot := by simp [halyardClockLost]
theorem execDelayReq_keepsBoot (port : Fin 2) (head : FrameHead) (s : State) : KeepsBoot s (execDelayReq port head s) := by simp [execDelayReq]

theorem execDelayRsp_keepsBoot (port : Fin 2) (head : FrameHead) (delay : Nat) (s : State) : KeepsBoot s (execDelayRsp port head delay s) := by
  simp [execDelayRsp]

theorem execTripOrderedSet_keepsBoot (port : Fin 2) (source mask : Nat) (s : State) : KeepsBoot s (execTripOrderedSet port source mask s) := by
  unfold execTripOrderedSet
  split
  · simp
  · rw [keepsBoot_finish, foldl_boot]
    · simp
    · intro t g
      repeat' split
      all_goals simp

@[simp] theorem refuseJoin_boot (s : State) (reason : Nat) : (refuseJoin s reason).boot = s.boot := (refuseJoin_steady s reason).boot

@[simp] theorem completeJoin_boot (s : State) (old : Nat) : (completeJoin s old).boot = s.boot := by
  unfold completeJoin
  dsimp only
  split <;> simp

@[simp] theorem noteHops_boot (s : State) (p : Fin 2) (h : FrameHead) : (noteHops s p h).boot = s.boot := by simp [noteHops]
@[simp] theorem noteMaster_boot (s : State) (f : SyncFrame) : (noteMaster s f).boot = s.boot := by simp [noteMaster]

theorem joinBySync_boot {s near : State} {take : State → State} (hn : near.boot = s.boot) (ht : (take near).boot = s.boot) (f : SyncFrame) :
    (joinBySync s near f take).boot = s.boot := by
  simp [joinBySync, hn, ht]

theorem execSync_keepsBoot (port : Fin 2) (head : FrameHead) (frame : SyncFrame) (s : State) : KeepsBoot s (execSync port head frame s) := by
  unfold execSync
  rw [keepsBoot_finish, ringTake_boot, noteHops_boot]
  intro t
  split
  · rfl
  · split
    · simp
    · simp [joinBySync_boot]
    · simp

@[simp] theorem exchange_boot (s : State) (digest : List Byte) : (exchange s digest).boot = s.boot := by simp [exchange]
@[simp] theorem noteChange_boot (s : State) (h : FrameHead) (digest : List Byte) : (noteChange s h digest).boot = s.boot := by simp [noteChange]

theorem execDigest_keepsBoot (port : Fin 2) (head : FrameHead) (generation : Nat) (digest : List Byte) (divergent : Bool) (s : State) :
    KeepsBoot s (execDigest port head generation digest divergent s) := by
  simp [execDigest]

theorem execShare_keepsBoot (port : Fin 2) (head : FrameHead) (frame : ShareFrame) (s : State) : KeepsBoot s (execShare port head frame s) := by
  unfold execShare
  split <;> simp

theorem execShareStale_keepsBoot (s : State) : KeepsBoot s (execShareStale s) := by simp [execShareStale]

@[simp] theorem becomeMaster_boot (s : State) : (becomeMaster s).boot = s.boot := by
  unfold becomeMaster
  dsimp only
  split <;> simp

theorem execElect_keepsBoot (port : Fin 2) (head : FrameHead) (priority uid : Nat) (ended : Bool) (s : State) :
    KeepsBoot s (execElect port head priority uid ended s) := by
  simp [execElect]

theorem execJoin_keepsBoot (port : Fin 2) (head : FrameHead) (uid : Nat) (s : State) : KeepsBoot s (execJoin port head uid s) := by simp [execJoin]
theorem execLeave_keepsBoot (port : Fin 2) (head : FrameHead) (s : State) : KeepsBoot s (execLeave port head s) := by simp [execLeave]

theorem execServiceFrame_keepsBoot (port : Fin 2) (head : FrameHead) (payload : List Byte) (s : State) :
    KeepsBoot s (execServiceFrame port head payload s) := by
  simp [execServiceFrame]

@[simp] theorem tickMembers_boot (s : State) : (tickMembers s).boot = s.boot := (tickMembers_steady s).boot
theorem execLinkStatus_keepsBoot (slot : Nat) (s : State) : KeepsBoot s (execLinkStatus slot s) := keepsBoot_command fun j => by simp
@[simp] theorem beginJoin_boot (s : State) : (beginJoin s).boot = s.boot := by simp [beginJoin]

theorem execLinkJoin_keepsBoot (slot : Nat) (s : State) : KeepsBoot s (execLinkJoin slot s) :=
  keepsBoot_command fun j => by
    split <;> simp

theorem execLinkLeave_keepsBoot (slot : Nat) (s : State) : KeepsBoot s (execLinkLeave slot s) := keepsBoot_command fun j => by simp

/-! ## Lockstep pairs -/

@[simp] theorem noteClass_boot (s : State) (b : Bool) (cls group stage : Nat) : (noteClass s b cls group stage).boot = s.boot := by simp [noteClass]
@[simp] theorem failPairA_boot (s : State) : (failPairA s).boot = s.boot := by simp [failPairA]
@[simp] theorem failPairB_boot (s : State) : (failPairB s).boot = s.boot := by simp [failPairB]

@[simp] theorem lockFailure_boot (s : State) (b : Bool) (code cls group stage : Nat) : (lockFailure s b code cls group stage).boot = s.boot := by
  simp [lockFailure]

theorem execCoreMismatch_keepsBoot (pairB : Bool) (cycle : LockCycle) (s : State) : KeepsBoot s (execCoreMismatch pairB cycle s) := by
  unfold execCoreMismatch
  split <;> simp

theorem execDelayParity_keepsBoot (pairB : Bool) (cycle : LockCycle) (s : State) : KeepsBoot s (execDelayParity pairB cycle s) := by
  unfold execDelayParity
  split <;> simp

@[simp] theorem lockDoubt_boot (s : State) (b : Bool) (code cls group : Nat) : (lockDoubt s b code cls group).boot = s.boot := by simp [lockDoubt]

theorem execComparatorDisagree_keepsBoot (pairB : Bool) (cycle : LockCycle) (s : State) : KeepsBoot s (execComparatorDisagree pairB cycle s) := by
  unfold execComparatorDisagree
  split <;> simp

theorem execRunInjection_keepsBoot (reports : List (Fin 4 × Fin 4)) (s : State) : KeepsBoot s (execRunInjection reports s) := by
  unfold execRunInjection
  repeat' split
  all_goals simp

theorem execRegisterSignature_keepsBoot (pairB : Bool) (s : State) : KeepsBoot s (execRegisterSignature pairB s) := by simp [execRegisterSignature]
theorem execRegsigLate_keepsBoot (pairB : Bool) (s : State) : KeepsBoot s (execRegsigLate pairB s) := by simp [execRegsigLate]
@[simp] theorem acceptSplit_boot (s : State) : (acceptSplit s).boot = s.boot := by simp [acceptSplit]
@[simp] theorem breakPair_boot (s : State) (b : Bool) : (breakPair s b).boot = s.boot := by simp [breakPair]
theorem execPairBSplit_keepsBoot (s : State) : KeepsBoot s (execPairBSplit s) := by simp [execPairBSplit]

theorem execRejoinPartL_keepsBoot (failed : Option (Fin 32)) (s : State) : KeepsBoot s (execRejoinPartL failed s) := by
  unfold execRejoinPartL
  repeat' split
  all_goals simp

theorem execPairBRejoined_keepsBoot (s : State) : KeepsBoot s (execPairBRejoined s) := by simp [execPairBRejoined]

theorem execDiagPairBSplit_keepsBoot (slot load : Nat) (s : State) : KeepsBoot s (execDiagPairBSplit slot load s) :=
  keepsBoot_command fun j => by simp

theorem execDiagPairBRejoin_keepsBoot (slot : Nat) (s : State) : KeepsBoot s (execDiagPairBRejoin slot s) := keepsBoot_command fun j => by simp
@[simp] theorem holdHalt_boot (s : State) (b : Bool) : (holdHalt s b).boot = s.boot := by simp [holdHalt]

theorem execDebugHalt_keepsBoot (pairB : Bool) (load : Nat) (s : State) : KeepsBoot s (execDebugHalt pairB load s) := by
  unfold execDebugHalt
  repeat' split
  all_goals simp

theorem execDbgSplit_keepsBoot (pairB : Bool) (s : State) : KeepsBoot s (execDbgSplit pairB s) := by simp [execDbgSplit]
theorem execDebugRelease_keepsBoot (pairB : Bool) (s : State) : KeepsBoot s (execDebugRelease pairB s) := by simp [execDebugRelease]

theorem execSupplyOutOfRange_keepsBoot (supply : Nat) (volts : Q) (s : State) : KeepsBoot s (execSupplyOutOfRange supply volts s) := by
  simp [execSupplyOutOfRange]

theorem execVbatLow_keepsBoot (volts : Q) (s : State) : KeepsBoot s (execVbatLow volts s) := by simp [execVbatLow]

/-! ## Safe inputs and outputs: events -/

@[simp] theorem resetEdge_boot (old s : State) (f : Fin 8) (input : Nat) : (resetEdge old s f input).boot = s.boot := by simp [resetEdge]
@[simp] theorem safeInFault_boot (s : State) (input : Nat) : (safeInFault s input).boot = s.boot := by simp [safeInFault]

theorem execSafeInputSample_keepsBoot (a b : Nat) (s : State) : KeepsBoot s (execSafeInputSample a b s) := by
  unfold execSafeInputSample
  dsimp only
  repeat' split
  all_goals simp

theorem execSiDiscrepancy_keepsBoot (fn : Fin 8) (button2 : Bool) (s : State) : KeepsBoot s (execSiDiscrepancy fn button2 s) := by
  simp [execSiDiscrepancy]

@[simp] theorem testInput_boot (s : State) (pulse input : Nat) (stuck crossed : Bool) : (testInput s pulse input stuck crossed).boot = s.boot := by
  unfold testInput
  split <;> simp

theorem execTestPulse_keepsBoot (pulse : Fin 4) (ends : Bool) (s : State) : KeepsBoot s (execTestPulse pulse ends s) := by
  unfold execTestPulse
  repeat' split
  all_goals simp

theorem execTwoHandSync_keepsBoot (fn : Fin 8) (s : State) : KeepsBoot s (execTwoHandSync fn s) := by
  unfold execTwoHandSync
  dsimp only
  split <;> simp

theorem execSafeInCrossCheck_keepsBoot (agree : Bool) (s : State) : KeepsBoot s (execSafeInCrossCheck agree s) := by simp [execSafeInCrossCheck]
theorem execSafeInputs_keepsBoot (slot : Nat) (s : State) : KeepsBoot s (execSafeInputs slot s) := keepsBoot_command fun j => by simp
theorem execSafeRestart_keepsBoot (slot : Nat) (s : State) : KeepsBoot s (execSafeRestart slot s) := keepsBoot_command fun j => by simp
theorem execSoPulse_keepsBoot (out : Fin 4) (ends : Bool) (s : State) : KeepsBoot s (execSoPulse out ends s) := by simp [execSoPulse]
@[simp] theorem soFail_boot (s : State) (out : Fin 4) (reason : Nat) : (soFail s out reason).boot = s.boot := by simp [soFail]

theorem execSoReadbackFail_keepsBoot (out : Fin 4) (level : Bool) (s : State) : KeepsBoot s (execSoReadbackFail out level s) := by
  unfold execSoReadbackFail
  dsimp only
  repeat' split
  all_goals simp

/-! ## Parts of cast-on that keep its record -/

@[simp] theorem markSlot_boot (s : State) (b : Bool) (f : Option LoadFailure) : (markSlot s b f).boot = s.boot := by
  unfold markSlot
  split <;> simp

@[simp] theorem castOnTack_boot (s : State) (img : List Byte) (other : Option (List Byte)) : (castOnTack s img other).boot = s.boot := by
  unfold castOnTack
  dsimp only
  repeat' split
  all_goals simp

@[simp] theorem settleOther_boot (s : State) (b : Bool) (img : List Byte) (otherOk : Bool) : (settleOther s b img otherOk).boot = s.boot := by
  simp [settleOther]

@[simp] theorem adoptCert_boot (s : State) (img : List Byte) : (adoptCert s img).boot = s.boot := by
  unfold adoptCert
  split <;> simp

@[simp] theorem resumeLog_boot (s : State) : (resumeLog s).boot = s.boot := by simp [resumeLog]
@[simp] theorem raiseFloor_boot (s : State) : (raiseFloor s).boot = s.boot := by simp [raiseFloor]

/-! ## Clock loss -/

@[simp] theorem clockTrips_boot (s : State) (p : State → Fin 4 → Bool) (d : Nat) : (clockTrips s p d).boot = s.boot := by simp [clockTrips]
@[simp] theorem portsSilent_boot (s : State) : (portsSilent s).boot = s.boot := by simp [portsSilent]

@[simp] theorem clockReaction_boot (s : State) (x : ClockDomain) : (clockReaction s x).boot = s.boot := by
  unfold clockReaction
  split <;> simp

theorem execClockLoss_keepsBoot (domain : ClockDomain) (s : State) : KeepsBoot s (execClockLoss domain s) := by simp [execClockLoss]

/-! ## Safety commands -/

@[simp] theorem clearSafe_boot (s : State) : (clearSafe s).boot = s.boot := by simp [clearSafe]

theorem execSafeClear_keepsBoot (slot : Nat) (s : State) : KeepsBoot s (execSafeClear slot s) :=
  keepsBoot_command fun j => by
    split <;> simp

@[simp] theorem reportGood_boot (s : State) (clocks supplies : Nat) : (reportGood s clocks supplies).boot = s.boot := by simp [reportGood]
@[simp] theorem clearTripOne_boot (s : State) (n : Fin 4) : (clearTripOne s n).boot = s.boot := by simp [clearTripOne]

theorem execSafeClearTrip_keepsBoot (slot clocksGood suppliesGood : Nat) (s : State) :
    KeepsBoot s (execSafeClearTrip slot clocksGood suppliesGood s) :=
  keepsBoot_command fun j => by simp

theorem execSafeStatus_keepsBoot (slot : Nat) (s : State) : KeepsBoot s (execSafeStatus slot s) := keepsBoot_command fun j => by simp

@[simp] theorem dischargeBody_boot {s : State} {start : State → State} (h : (start s).boot = s.boot) (j : Job) (windings ok : Bool) :
    (dischargeBody s j windings ok start).boot = s.boot := by
  simp [dischargeBody, h]

theorem execSafeDischargeResistor_keepsBoot (slot : Nat) (s : State) : KeepsBoot s (execSafeDischargeResistor slot s) :=
  keepsBoot_command fun j => by simp

theorem execSafeDischargeWindings_keepsBoot (slot : Nat) (s : State) : KeepsBoot s (execSafeDischargeWindings slot s) :=
  keepsBoot_command fun j => by simp

/-! ## Writes of DIAG maps -/

@[simp] theorem fabricLook_boot (s : State) (map : Nat) : (fabricLook s map).boot = s.boot := by simp [fabricLook]

/-! ## Rigger events -/

@[simp] theorem restage_boot (s : State) : (restage s).boot = s.boot := by
  unfold restage
  repeat' split
  all_goals simp

@[simp] theorem failEngine_boot (s : State) (e : Fin 4) : (failEngine s e).boot = s.boot := by simp [failEngine]
@[simp] theorem checkEngine_boot (bad : Nat) (s : State) (e : Fin 4) : (checkEngine bad s e).boot = s.boot := by simp [checkEngine]
theorem execEngineSelftestCheck_keepsBoot (bad : Nat) (s : State) : KeepsBoot s (execEngineSelftestCheck bad s) := by simp [execEngineSelftestCheck]

theorem execContextOverrun_keepsBoot (eng : Fin 4) (ctx : Nat) (s : State) : KeepsBoot s (execContextOverrun eng ctx s) := by
  simp [execContextOverrun]

theorem execReservationNotStarted_keepsBoot (eng : Fin 4) (s : State) : KeepsBoot s (execReservationNotStarted eng s) := by
  simp [execReservationNotStarted]

@[simp] theorem denyStarts_boot (s : State) (n : Fin 4) : (denyStarts s n).boot = s.boot := by simp [denyStarts]
@[simp] theorem shedAxis_boot (s : State) (n : Fin 4) : (shedAxis s n).boot = s.boot := by simp [shedAxis]

theorem execContextMigrated_keepsBoot (badMirrors : Nat) (s : State) : KeepsBoot s (execContextMigrated badMirrors s) := by
  unfold execContextMigrated
  split
  · simp
  · simp [unlagged_boot]

theorem execFabricStarved_keepsBoot (requester cycles : Nat) (s : State) : KeepsBoot s (execFabricStarved requester cycles s) := by
  simp [execFabricStarved]

theorem execFabricAccessFault_keepsBoot (requester address : Nat) (s : State) : KeepsBoot s (execFabricAccessFault requester address s) := by
  simp [execFabricAccessFault]

/-! ## Memory errors -/

theorem execCaptureFrozen_keepsBoot (axis : Fin 4) (s : State) : KeepsBoot s (execCaptureFrozen axis s) := by simp [execCaptureFrozen]
@[simp] theorem capInvalid_boot (s : State) (n : Fin 4) : (capInvalid s n).boot = s.boot := by simp [capInvalid]

@[simp] theorem eccCorrected_boot (s : State) (mem : Memory) (k : Nat) : (eccCorrected s mem k).boot = s.boot := by
  unfold eccCorrected
  repeat' split
  all_goals simp

@[simp] theorem eccBad_boot (s : State) (mem : Memory) : (eccBad s mem).boot = s.boot := by
  unfold eccBad
  split <;> simp

@[simp] theorem poolBad_boot (s : State) (word : Nat) (ctxs : List Nat) : (poolBad s word ctxs).boot = s.boot := by simp [poolBad]

@[simp] theorem stagingBad_boot (s : State) (word : Nat) : (stagingBad s word).boot = s.boot := by
  unfold stagingBad
  dsimp only
  repeat' split
  all_goals simp

@[simp] theorem eccReaction_boot (s : State) (mem : Memory) (address : Nat) (ctxs : List Nat) : (eccReaction s mem address ctxs).boot = s.boot := by
  unfold eccReaction
  split <;> simp

theorem execEccUncorrectable_keepsBoot (mem : Memory) (address : Nat) (ctxs : List Nat) (single : Bool) (s : State) :
    KeepsBoot s (execEccUncorrectable mem address ctxs single s) := by
  simp [execEccUncorrectable]

theorem execScrubPass_keepsBoot (corrected stillBad : List Nat) (s : State) : KeepsBoot s (execScrubPass corrected stillBad s) := by
  simp [execScrubPass]

/-! ## DIAG commands -/

theorem execDiagSelftest_keepsBoot (slot : Nat) (s : State) : KeepsBoot s (execDiagSelftest slot s) := keepsBoot_command fun j => by simp

theorem execDiagMapRead_keepsBoot (slot : Nat) (s : State) : KeepsBoot s (execDiagMapRead slot s) :=
  keepsBoot_command fun j => by
    repeat' split
    all_goals simp

@[simp] theorem setPwmOf_boot (s : State) (n : Fin 4) (f : Pwm → Pwm) : (setPwmOf s n f).boot = s.boot := by simp [setPwmOf]
@[simp] theorem clearPwm_boot (s : State) (n : Fin 4) (v : Nat) : (clearPwm s n v).boot = s.boot := by simp [clearPwm]
@[simp] theorem armCompare_boot (s : State) (i : Fin 4) (v : Nat) : (armCompare s i v).boot = s.boot := by simp [armCompare]
@[simp] theorem writePos_boot (s : State) (i : Fin 4) (off v : Nat) : (writePos s i off v).boot = s.boot := by simp [writePos]
@[simp] theorem clearCan_boot (s : State) (n : Fin 4) : (clearCan s n).boot = s.boot := by simp [clearCan]
@[simp] theorem clearPair_boot (s : State) (b : Bool) : (clearPair s b).boot = s.boot := by simp [clearPair]

theorem forall_mem_ite {α : Type} {p : Prop} [Decidable p] {a b : Option α} {q : α → Prop} (ha : ∀ x ∈ a, q x) (hb : ∀ x ∈ b, q x) :
    ∀ x ∈ (if p then a else b), q x := by
  split <;> assumption

theorem countsWord_boot {s t : State} {map w : Nat} (h : countsWord s map = some (w, t)) : t.boot = s.boot := by
  have key : ∀ x ∈ countsWord s map, x.2.boot = s.boot := by
    unfold countsWord
    repeat' refine forall_mem_ite ?_ ?_
    all_goals simp
  exact key _ h

theorem mapWrite_boot {s t : State} {map off v : Nat} (h : mapWrite s map off v = some t) : t.boot = s.boot := by
  have key : ∀ x ∈ mapWrite s map off v, x.boot = s.boot := by
    unfold mapWrite
    refine forall_mem_ite (forall_mem_ite (by simp) (by simp)) (forall_mem_ite (forall_mem_ite (by simp) (by simp)) ?_)
    split
    next _ _ h => exact forall_mem_ite (by simp [countsWord_boot h]) (by simp)
    next => simp
  exact key _ h

theorem execDiagMapWrite_keepsBoot (slot : Nat) (s : State) : KeepsBoot s (execDiagMapWrite slot s) :=
  keepsBoot_command fun j => by
    split
    next _ h => simp [mapWrite_boot h]
    next => simp

theorem execDiagCapture_keepsBoot (slot : Nat) (s : State) : KeepsBoot s (execDiagCapture slot s) := keepsBoot_command fun j => by simp

/-! ## Register file and doorbells -/

@[simp] theorem storeFaultsum_boot (s : State) (mask setNow : Nat) : (storeFaultsum s mask setNow).boot = s.boot := by simp [storeFaultsum]
@[simp] theorem storeDone_boot (s : State) (mask setNow : Nat) : (storeDone s mask setNow).boot = s.boot := by simp [storeDone]
@[simp] theorem storeDoorbellOut_boot (s : State) (mask setNow : Nat) : (storeDoorbellOut s mask setNow).boot = s.boot := by simp [storeDoorbellOut]
@[simp] theorem ringSlot_boot (s : State) (n : Nat) : (ringSlot s n).boot = s.boot := by simp [ringSlot]
@[simp] theorem storeDoorbellIn_boot (s : State) (mask : Nat) : (storeDoorbellIn s mask).boot = s.boot := by simp [storeDoorbellIn]
@[simp] theorem storeAttnMask_boot (s : State) (value : Nat) : (storeAttnMask s value).boot = s.boot := by simp [storeAttnMask]

@[simp] theorem storeWord_boot (s : State) (word value : Nat) : (storeWord s word value).boot = s.boot := by
  unfold storeWord
  split <;> simp

@[simp] theorem storeSlot_boot (s : State) (address : Nat) (data : List Byte) (n : Nat) : (storeSlot s address data n).boot = s.boot := by
  simp [storeSlot]

@[simp] theorem storeMailbox_boot (s : State) (address : Nat) (data : List Byte) : (storeMailbox s address data).boot = s.boot := by
  simp [storeMailbox]

@[simp] theorem storeWindow_boot (s : State) (address : Nat) (data : List Byte) : (storeWindow s address data).boot = s.boot := by simp [storeWindow]
@[simp] theorem shiftOut_boot (s : State) (reads : Bool) (address len : Nat) : (shiftOut s reads address len).boot = s.boot := by simp [shiftOut]

theorem execRegisterWrite_keepsBoot (opcode address : Nat) (data : List Byte) (s : State) :
    KeepsBoot s (execRegisterWrite opcode address data s) := by
  simp [execRegisterWrite]

theorem execMailboxWrite_keepsBoot (address : Nat) (data : List Byte) (s : State) : KeepsBoot s (execMailboxWrite address data s) := by
  simp [execMailboxWrite]

theorem execDoorbellRing_keepsBoot (mask : Nat) (s : State) : KeepsBoot s (execDoorbellRing mask s) := by simp [execDoorbellRing]
theorem execDoneClear_keepsBoot (mask : Nat) (s : State) : KeepsBoot s (execDoneClear mask s) := by simp [execDoneClear]
theorem execFaultsumClear_keepsBoot (mask setNow : Nat) (s : State) : KeepsBoot s (execFaultsumClear mask setNow s) := by simp [execFaultsumClear]

theorem execDoorbellOutClear_keepsBoot (mask setNow : Nat) (s : State) : KeepsBoot s (execDoorbellOutClear mask setNow s) := by
  simp [execDoorbellOutClear]

theorem execRateLimitWindowEnd_keepsBoot (code inst : Nat) (s : State) : KeepsBoot s (execRateLimitWindowEnd code inst s) := by
  unfold execRateLimitWindowEnd
  split <;> simp

theorem execHostHeartbeatLost_keepsBoot (s : State) : KeepsBoot s (execHostHeartbeatLost s) := by
  unfold execHostHeartbeatLost
  split <;> simp

@[simp] theorem beat_boot (s : State) (spi : Bool) : (beat s spi).boot = s.boot := by simp [beat]

theorem execSysStatus_keepsBoot (slot : Nat) (s : State) : KeepsBoot s (execSysStatus slot s) :=
  keepsBoot_command fun j => by
    dsimp only
    split <;> simp

theorem execSysVersion_keepsBoot (slot : Nat) (s : State) : KeepsBoot s (execSysVersion slot s) := keepsBoot_command fun j => by simp
theorem execSysTime_keepsBoot (slot : Nat) (s : State) : KeepsBoot s (execSysTime slot s) := keepsBoot_command fun j => by simp
theorem execSysEvents_keepsBoot (slot : Nat) (s : State) : KeepsBoot s (execSysEvents slot s) := keepsBoot_command fun j => by simp
theorem execSysHeartbeat_keepsBoot (slot : Nat) (s : State) : KeepsBoot s (execSysHeartbeat slot s) := keepsBoot_command fun j => by simp

/-! ## Supplies, bind-off and wake -/

theorem execEarlyNQualified_keepsBoot (s : State) : KeepsBoot s (execEarlyNQualified s) := by simp [execEarlyNQualified]

theorem execEarlyRemoval_keepsBoot (s : State) : KeepsBoot s (execEarlyRemoval s) := by
  unfold execEarlyRemoval
  repeat' split
  all_goals simp

theorem execSysReset_keepsBoot (slot : Nat) (s : State) : KeepsBoot s (execSysReset slot s) := keepsBoot_command fun j => by simp

theorem execSysServiceEnter_keepsBoot (slot : Nat) (s : State) : KeepsBoot s (execSysServiceEnter slot s) :=
  keepsBoot_command fun j => by
    split <;> simp

@[simp] theorem discardTx_boot (s : State) (n : Fin 4) : (discardTx s n).boot = s.boot := by simp [discardTx]
@[simp] theorem bindOffStart_boot (s : State) : (bindOffStart s).boot = s.boot := by simp [bindOffStart]
@[simp] theorem bindOffDiscard_boot (s : State) : (bindOffDiscard s).boot = s.boot := by simp [bindOffDiscard]
theorem execSysBindOff_keepsBoot (slot : Nat) (s : State) : KeepsBoot s (execSysBindOff slot s) := keepsBoot_command fun j => by simp
theorem execWake_keepsBoot (can : Bool) (s : State) : KeepsBoot s (execWake can s) := by simp [execWake]
theorem execWakeLatchedReassert_keepsBoot (s : State) : KeepsBoot s (execWakeLatchedReassert s) := by simp [execWakeLatchedReassert]
theorem execSysLoaderBegin_keepsBoot (slot : Nat) (s : State) : KeepsBoot s (execSysLoaderBegin slot s) := keepsBoot_command fun j => by simp

theorem execSysLoaderData_keepsBoot (slot : Nat) (s : State) : KeepsBoot s (execSysLoaderData slot s) :=
  keepsBoot_command fun j => by
    split <;> simp

theorem execSysLoaderEnd_keepsBoot (slot : Nat) (s : State) : KeepsBoot s (execSysLoaderEnd slot s) := keepsBoot_command fun j => by simp

/-! ## Profiles -/

@[simp] theorem replanMove_boot (s : State) (n : Fin 4) : (replanMove s n).boot = s.boot := by
  unfold replanMove
  split <;> simp

@[simp] theorem stepPlan_boot (s : State) (n : Fin 4) : (stepPlan s n).boot = s.boot := by
  unfold stepPlan
  split <;> simp

@[simp] theorem speedReg_boot (s : State) (n : Fin 4) (wRef aRef wm : Q) : (speedReg s n wRef aRef wm).boot = s.boot := by simp [speedReg]
@[simp] theorem shapeSpeed_boot (s : State) (n : Fin 4) (src lim : Q) : (shapeSpeed s n src lim).boot = s.boot := by simp [shapeSpeed]
@[simp] theorem positionReg_boot (s : State) (n : Fin 4) (wm : Q) : (positionReg s n wm).boot = s.boot := by simp [positionReg]

@[simp] theorem profileStep_boot (s : State) (n : Fin 4) : (profileStep s n).boot = s.boot := by
  unfold profileStep
  dsimp only
  split <;> simp

theorem execProfileDispatch_keepsBoot (axis : Fin 4) (s : State) : KeepsBoot s (execProfileDispatch axis s) := by simp [execProfileDispatch]

theorem execMoveDone_keepsBoot (axis : Fin 4) (s : State) : KeepsBoot s (execMoveDone axis s) := by
  unfold execMoveDone
  dsimp only
  split <;> simp

/-! ## Tack over the ring -/

theorem execTackPrepare_keepsBoot (port : Fin 2) (head : FrameHead) (generation : Nat) (digest : List Byte) (s : State) :
    KeepsBoot s (execTackPrepare port head generation digest s) := by
  simp [execTackPrepare]

@[simp] theorem abortRing_boot (s : State) (position reason : Nat) : (abortRing s position reason).boot = s.boot := by
  unfold abortRing
  dsimp only
  split <;> simp

@[simp] theorem commitRing_boot (s : State) : (commitRing s).boot = s.boot := by simp [commitRing]

theorem execTackAck_keepsBoot (port : Fin 2) (head : FrameHead) (reason : Nat) (s : State) : KeepsBoot s (execTackAck port head reason s) := by
  simp [execTackAck]

theorem execTackCommit_keepsBoot (port : Fin 2) (head : FrameHead) (carrier : Nat) (s : State) :
    KeepsBoot s (execTackCommit port head carrier s) := by
  simp [execTackCommit]

theorem execTackAbort_keepsBoot (port : Fin 2) (head : FrameHead) (s : State) : KeepsBoot s (execTackAbort port head s) := by simp [execTackAbort]

theorem execRingTackTimeout_keepsBoot (s : State) : KeepsBoot s (execRingTackTimeout s) := by
  unfold execRingTackTimeout
  repeat' split
  all_goals simp

theorem execFollowerTackDrop_keepsBoot (s : State) : KeepsBoot s (execFollowerTackDrop s) := by
  unfold execFollowerTackDrop
  split <;> simp

/-! ## Security commands -/

theorem execTamperMesh_keepsBoot (mesh1 differs : Bool) (s : State) : KeepsBoot s (execTamperMesh mesh1 differs s) := by simp [execTamperMesh]
theorem execTamperLight_keepsBoot (s : State) : KeepsBoot s (execTamperLight s) := by simp [execTamperLight]

theorem execTamperEnclosure_keepsBoot (enc1 level : Bool) (s : State) : KeepsBoot s (execTamperEnclosure enc1 level s) := by
  simp [execTamperEnclosure]

theorem execTamperTemperature_keepsBoot (celsius : Q) (s : State) : KeepsBoot s (execTamperTemperature celsius s) := by simp [execTamperTemperature]
theorem execTamperGlitch_keepsBoot (clock : Bool) (s : State) : KeepsBoot s (execTamperGlitch clock s) := by simp [execTamperGlitch]
theorem execSecChallenge_keepsBoot (slot : Nat) (s : State) : KeepsBoot s (execSecChallenge slot s) := keepsBoot_command fun j => by simp
@[simp] theorem authFail_boot (s : State) (j : Job) : (authFail s j).boot = s.boot := by simp [authFail]
@[simp] theorem advanceLife_boot (s : State) (l : Life) : (advanceLife s l).boot = s.boot := by simp [advanceLife]

theorem execSecUnlock_keepsBoot (slot : Nat) (s : State) : KeepsBoot s (execSecUnlock slot s) :=
  keepsBoot_command fun j => by
    split <;> simp

@[simp] theorem clearLock_boot (s : State) : (clearLock s).boot = s.boot := by simp [clearLock]

theorem execSecClearLock_keepsBoot (slot : Nat) (s : State) : KeepsBoot s (execSecClearLock slot s) :=
  keepsBoot_command fun j => by
    split <;> simp

@[simp] theorem installCert_boot (s : State) (c : List Byte) : (installCert s c).boot = s.boot := by simp [installCert]

theorem execSecCert_keepsBoot (slot : Nat) (s : State) : KeepsBoot s (execSecCert slot s) :=
  keepsBoot_command fun j => by
    dsimp only
    repeat' split
    all_goals simp

theorem execSecStatus_keepsBoot (slot : Nat) (s : State) : KeepsBoot s (execSecStatus slot s) := keepsBoot_command fun j => by simp

theorem execLifecycleFuseWrite_keepsBoot (scrapped : Bool) (s : State) : KeepsBoot s (execLifecycleFuseWrite scrapped s) := by
  simp [execLifecycleFuseWrite]

theorem execX32CrystalSwitch_keepsBoot (s : State) : KeepsBoot s (execX32CrystalSwitch s) := by simp [execX32CrystalSwitch]
theorem execVbatLoss_keepsBoot (s : State) : KeepsBoot s (execVbatLoss s) := by simp [execVbatLoss]

/-! ## Thermal step -/

@[simp] theorem overtempCheck_boot (s : State) (n : Fin 4) : (overtempCheck s n).boot = s.boot := by simp [overtempCheck]
theorem execThermalStep_keepsBoot (axis : Fin 4) (leg : Fin 3) (s : State) : KeepsBoot s (execThermalStep axis leg s) := by simp [execThermalStep]

theorem execSensorRestored_keepsBoot (axis : Fin 4) (entry : Fin 3) (s : State) : KeepsBoot s (execSensorRestored axis entry s) := by
  unfold execSensorRestored
  dsimp only
  split <;> simp

@[simp] theorem reefLevel_boot (s : State) (n : Fin 4) : (reefLevel s n).boot = s.boot := by simp [reefLevel]
@[simp] theorem lowTempCheck_boot (s : State) (n : Fin 4) : (lowTempCheck s n).boot = s.boot := by simp [lowTempCheck]
@[simp] theorem warmupStep_boot (s : State) (n : Fin 4) : (warmupStep s n).boot = s.boot := by simp [warmupStep]
theorem execReefEvaluation_keepsBoot (axis : Fin 4) (s : State) : KeepsBoot s (execReefEvaluation axis s) := by simp [execReefEvaluation]

/-! ## Parts of a tick -/

@[simp] theorem tickClocks_boot (s : State) : (tickClocks s).boot = s.boot := by simp [tickClocks]
@[simp] theorem tickRing_boot (s : State) : (tickRing s).boot = s.boot := by simp [tickRing]

/-! ## Time -/

@[simp] theorem idleTick_boot (s : State) : (idleTick s).boot = s.boot := by
  simp [idleTick]

/-! ## Halts -/

/-- A cast-on in which HALT_CODE holds one of the six codes while HALT is set, and 0 otherwise (R584). -/
def LegalHalt (b : Boot) : Prop := if b.halt then b.haltCode ∈ haltCodes else b.haltCode = 0

theorem haltCodeLegal_iff (s : State) : HaltCodeLegal s ↔ LegalHalt s.boot := Iff.rfl

/-- From a legal halt the outcome is one, where it is a next state. -/
def KeepsLegalHalt (s : State) (r : Result) : Prop := LegalHalt s.boot → ∀ t, r = .next t → LegalHalt t.boot

theorem KeepsBoot.keepsLegalHalt {s : State} {r : Result} (k : KeepsBoot s r) : KeepsLegalHalt s r :=
  fun h t e => k t e ▸ h

theorem keepsLegalHalt_next {s t : State} (k : LegalHalt s.boot → LegalHalt t.boot) : KeepsLegalHalt s (.next t) := by
  rintro h u ⟨⟩
  exact k h

theorem keepsLegalHalt_finish {s old t : State} (k : LegalHalt s.boot → LegalHalt t.boot) : KeepsLegalHalt s (finish old t) :=
  keepsLegalHalt_next fun h => (settle_boot old t).symm ▸ k h

theorem keepsLegalHalt_ite {s : State} {p : Prop} [Decidable p] {a b : Result} (ha : KeepsLegalHalt s a) (hb : KeepsLegalHalt s b) :
    KeepsLegalHalt s (if p then a else b) := by
  split <;> assumption

theorem legalHalt_halt (s : State) {code : Nat} (h : code ∈ haltCodes) : LegalHalt (halt s code).boot := h

/-! ## Entries into reset -/

theorem legalHalt_enterReset (s : State) (cause : Nat) : LegalHalt (enterReset s cause).boot := rfl

@[simp] theorem legalHalt_startCastOn (s : State) : LegalHalt (startCastOn s).boot ↔ LegalHalt s.boot := Iff.rfl

theorem legalHalt_internalReset (s : State) (cause : Nat) : LegalHalt (internalReset s cause).boot := by
  simpa [internalReset] using legalHalt_enterReset s cause

theorem execPorstNRelease_keepsLegalHalt (s : State) : KeepsLegalHalt s (execPorstNRelease s) :=
  keepsLegalHalt_ite (keepsLegalHalt_next id) (keepsLegalHalt_finish id)

theorem execPorstNLow_keepsLegalHalt (s : State) : KeepsLegalHalt s (execPorstNLow s) :=
  keepsLegalHalt_ite (keepsLegalHalt_next id) (keepsLegalHalt_finish fun _ => legalHalt_enterReset _ _)

theorem execSupplyBelowReset_keepsLegalHalt (supply : Nat) (volts : Q) (s : State) : KeepsLegalHalt s (execSupplyBelowReset supply volts s) :=
  keepsLegalHalt_ite (keepsLegalHalt_next id) (keepsLegalHalt_finish fun _ => legalHalt_enterReset _ _)

theorem execResetFollows_keepsLegalHalt (s : State) : KeepsLegalHalt s (execResetFollows s) := by
  unfold execResetFollows
  split
  · exact keepsLegalHalt_ite (keepsLegalHalt_finish id) (keepsLegalHalt_finish fun _ => legalHalt_internalReset _ _)
  · exact keepsLegalHalt_next id

theorem keepsLegalHalt_command {s : State} {slot code : Nat} {body : State → Job → State}
    (k : ∀ j, LegalHalt s.boot → LegalHalt (body s j).boot) : KeepsLegalHalt s (command s slot code body) := by
  unfold command
  split
  · refine keepsLegalHalt_ite (keepsLegalHalt_finish fun h => ?_) (keepsLegalHalt_next id)
    unfold gate
    repeat' split
    all_goals simp [h, k]
  · exact keepsLegalHalt_next id

theorem execSysServiceExit_keepsLegalHalt (slot : Nat) (s : State) : KeepsLegalHalt s (execSysServiceExit slot s) :=
  keepsLegalHalt_command fun j h => by
    repeat' split
    all_goals simp [h, legalHalt_internalReset]

theorem execBindOffDone_keepsLegalHalt (s : State) : KeepsLegalHalt s (execBindOffDone s) := by
  refine keepsLegalHalt_ite (keepsLegalHalt_next id) (keepsLegalHalt_ite ?_ (keepsLegalHalt_next fun _ => legalHalt_enterReset _ _))
  exact keepsLegalHalt_finish fun h => by simpa using h

theorem execGlitchReset_keepsLegalHalt (s : State) : KeepsLegalHalt s (execGlitchReset s) :=
  keepsLegalHalt_ite (keepsLegalHalt_finish fun _ => legalHalt_internalReset _ _) (keepsLegalHalt_next id)

/-! ## Cast-on -/

@[simp] theorem legalHalt_nextPhase (s : State) : LegalHalt (nextPhase s).boot ↔ LegalHalt s.boot := Iff.rfl

@[simp] theorem legalHalt_noteTests (s : State) (units : List Nat) (bad : Nat → Bool) :
    LegalHalt (noteTests s units bad).boot ↔ LegalHalt s.boot := Iff.rfl

@[simp] theorem legalHalt_runFirmware (s : State) (b fallback : Bool) : LegalHalt (runFirmware s b fallback).boot ↔ LegalHalt s.boot := Iff.rfl

@[simp] theorem legalHalt_defer (s : State) (code unit data : Nat) : LegalHalt (defer s code unit data).boot ↔ LegalHalt s.boot := by
  unfold defer
  split
  · rw [raise_boot]
  · rfl

@[simp] theorem legalHalt_injectionFails (s : State) (b : Bool) (group : Nat) : LegalHalt (injectionFails s b group).boot ↔ LegalHalt s.boot :=
  legalHalt_defer _ _ _ _

@[simp] theorem legalHalt_firmwareStarts (s : State) : LegalHalt (firmwareStarts s).boot ↔ LegalHalt s.boot := by
  simp [firmwareStarts, LegalHalt]

@[simp] theorem legalHalt_noteMotion (s : State) (speeds : Vector Q 4) : LegalHalt (noteMotion s speeds).boot ↔ LegalHalt s.boot := by
  simp [noteMotion, LegalHalt]

theorem stepClocks_legalHalt {s : State} (h : LegalHalt s.boot) : LegalHalt (stepClocks s).boot := by
  unfold stepClocks
  split <;> exact h

theorem stepCanary_legalHalt {s : State} (h : LegalHalt s.boot) : LegalHalt (stepCanary s).boot := by
  unfold stepCanary
  repeat' split
  all_goals simp [h]

theorem stepBist_legalHalt {s : State} (good : Bool) (h : LegalHalt s.boot) : LegalHalt (stepBist s good).boot := by
  unfold stepBist
  repeat' split
  · exact legalHalt_halt s (by decide)
  all_goals exact h

theorem stepInjection_legalHalt {s : State} (found : CastOnFindings) (h : LegalHalt s.boot) : LegalHalt (stepInjection s found).boot := by
  unfold stepInjection
  dsimp only
  rw [legalHalt_nextPhase]
  repeat' split
  all_goals simp [h]

theorem stepFirmware_legalHalt {s : State} (h : LegalHalt s.boot) : LegalHalt (stepFirmware s).boot := by
  unfold stepFirmware
  dsimp only
  repeat' split
  · simp [h]
  · simp [h]
  · rw [serve_boot]
    exact legalHalt_halt s (by decide)

theorem noConfig_legalHalt (s : State) : LegalHalt (noConfig s).boot := by
  rw [noConfig, serve_boot]
  exact legalHalt_halt _ (by decide)

theorem stepRead_legalHalt {s : State} (h : LegalHalt s.boot) : LegalHalt (stepRead s).boot := by
  unfold stepRead
  dsimp only
  split
  · rw [legalHalt_nextPhase]
    simpa [LegalHalt] using h
  · exact noConfig_legalHalt _

@[simp] theorem legalHalt_adoptSet (s : State) (b otherOk : Bool) : LegalHalt (adoptSet s b otherOk).boot ↔ LegalHalt s.boot := by
  simp [adoptSet, LegalHalt]

theorem stepCheck_legalHalt {s : State} (h : LegalHalt s.boot) : LegalHalt (stepCheck s).boot := by
  unfold stepCheck
  dsimp only
  split
  · simpa using h
  · exact noConfig_legalHalt _

theorem stepSchedule_legalHalt {s : State} (h : LegalHalt s.boot) : LegalHalt (stepSchedule s).boot := by
  unfold stepSchedule
  split
  · simpa using h
  · rw [serve_boot]
    exact legalHalt_halt _ (by decide)

theorem stepUnits_legalHalt {s : State} (found : CastOnFindings) (h : LegalHalt s.boot) : LegalHalt (stepUnits s found).boot := by
  unfold stepUnits
  dsimp only
  rw [legalHalt_nextPhase, legalHalt_noteMotion, legalHalt_noteTests]
  split
  all_goals simpa using h

theorem legalHalt_foldl {α : Type} {f : State → α → State} (k : ∀ s a, LegalHalt (f s a).boot ↔ LegalHalt s.boot) (l : List α) (s : State) :
    LegalHalt (l.foldl f s).boot ↔ LegalHalt s.boot := by
  induction l generalizing s with
  | nil => rfl
  | cons a l ih => rw [List.foldl_cons, ih, k]

@[simp] theorem legalHalt_startCan (s : State) (found : CastOnFindings) : LegalHalt (startCan s found).boot ↔ LegalHalt s.boot := by
  refine legalHalt_foldl (fun t n => ?_) _ s
  dsimp only
  repeat' split
  all_goals simp

theorem stepOnline_legalHalt {s : State} (found : CastOnFindings) (h : LegalHalt s.boot) : LegalHalt (stepOnline s found).boot := by
  have k (t : State) : LegalHalt { t.boot with step14 := true } ↔ LegalHalt t.boot := Iff.rfl
  simpa [stepOnline, k] using h

/-- Each step of cast-on halts with a code of its own, or leaves HALT as it is. -/
theorem castOnStep_legalHalt {s : State} (found : CastOnFindings) (h : LegalHalt s.boot) : LegalHalt (castOnStep s found).boot := by
  unfold castOnStep
  split
  · exact stepClocks_legalHalt h
  · exact stepClocks_legalHalt h
  · exact stepClocks_legalHalt h
  · exact stepCanary_legalHalt h
  · exact stepBist_legalHalt _ h
  · exact stepBist_legalHalt _ h
  · exact stepInjection_legalHalt found h
  · exact stepFirmware_legalHalt h
  · exact h
  · exact stepRead_legalHalt h
  · exact stepCheck_legalHalt h
  · exact stepSchedule_legalHalt h
  · exact stepUnits_legalHalt found h
  · exact stepOnline_legalHalt found h

theorem execCastOnStepDone_keepsLegalHalt (found : CastOnFindings) (s : State) : KeepsLegalHalt s (execCastOnStepDone found s) :=
  keepsLegalHalt_ite (keepsLegalHalt_finish (castOnStep_legalHalt found)) (keepsLegalHalt_next id)

theorem execCastOnDone_keepsLegalHalt (s : State) : KeepsLegalHalt s (execCastOnDone s) :=
  keepsLegalHalt_ite (keepsLegalHalt_next id) (keepsLegalHalt_finish fun h => by simpa [LegalHalt] using h)

theorem execXinStartFail_keepsLegalHalt (s : State) : KeepsLegalHalt s (execXinStartFail s) :=
  keepsLegalHalt_ite (keepsLegalHalt_finish fun _ => legalHalt_halt s (by decide)) (keepsLegalHalt_next id)

theorem execPllLockTimeout_keepsLegalHalt (s : State) : KeepsLegalHalt s (execPllLockTimeout s) :=
  keepsLegalHalt_ite (keepsLegalHalt_finish fun _ => legalHalt_halt s (by decide)) (keepsLegalHalt_next id)

/-! ## Every command, and every step -/

/-- A command that is not named for the boot part leaves cast-on as it is. -/
theorem exec_keepsBoot (c : Instr) (h : mayChange .boot c = false) (s : State) : KeepsBoot s (exec c s) :=
  match c, h with
  | .supplyOutOfRange supply volts, _ => execSupplyOutOfRange_keepsBoot supply volts s
  | .vbatLow volts, _ => execVbatLow_keepsBoot volts s
  | .earlyNQualified, _ => execEarlyNQualified_keepsBoot s
  | .earlyRemoval, _ => execEarlyRemoval_keepsBoot s
  | .stoEngaged src ticks, _ => execStoEngaged_keepsBoot src ticks s
  | .stoReleased src, _ => execStoReleased_keepsBoot src s
  | .stoDiscrepancy, _ => execStoDiscrepancy_keepsBoot s
  | .driverFault axis leg, _ => execDriverFault_keepsBoot axis leg s
  | .cmpTrip cmp volts, _ => execCmpTrip_keepsBoot cmp volts s
  | .dsfTrip ch value, _ => execDsfTrip_keepsBoot ch value s
  | .handover axis cmps dsfs flts, _ => execHandover_keepsBoot axis cmps dsfs flts s
  | .pwmClockLoss, _ => execPwmClockLoss_keepsBoot s
  | .clockLoss domain, _ => execClockLoss_keepsBoot domain s
  | .livenessLoss, _ => execLivenessLoss_keepsBoot s
  | .carrierReload axis peak cmps dsfs, _ => execCarrierReload_keepsBoot axis peak cmps dsfs s
  | .pwmWatchdog axis, _ => execPwmWatchdog_keepsBoot axis s
  | .commit axis atReload, _ => execCommit_keepsBoot axis atReload s
  | .shadowWrite axis reg value, _ => execShadowWrite_keepsBoot axis reg value s
  | .shadowDone axis, _ => execShadowDone_keepsBoot axis s
  | .safepatWrite axis pattern, _ => execSafepatWrite_keepsBoot axis pattern s
  | .firmwareTripRequest axis cause, _ => execFirmwareTripRequest_keepsBoot axis cause s
  | .edgeRecord axis leg start toggles, _ => execEdgeRecord_keepsBoot axis leg start toggles s
  | .injectedTrigger code, _ => execInjectedTrigger_keepsBoot code s
  | .sarResult conv code check, _ => execSarResult_keepsBoot conv code check s
  | .deltaSigmaEvaluation ch bits triggered, _ => execDeltaSigmaEvaluation_keepsBoot ch bits triggered s
  | .dsModulatorFault clock ch begins, _ => execDsModulatorFault_keepsBoot clock ch begins s
  | .currentLoopDispatch axis, _ => execCurrentLoopDispatch_keepsBoot axis s
  | .sampleMissing axis, _ => execSampleMissing_keepsBoot axis s
  | .currentZeroCalibration axis leg, _ => execCurrentZeroCalibration_keepsBoot axis leg s
  | .lowSidePair axis codeU codeV, _ => execLowSidePair_keepsBoot axis codeU codeV s
  | .plausibilityEvaluation, _ => execPlausibilityEvaluation_keepsBoot s
  | .quadratureEdge ifc a b half clocks, _ => execQuadratureEdge_keepsBoot ifc a b half clocks s
  | .index ifc rising clocks, _ => execIndex_keepsBoot ifc rising clocks s
  | .refswLatch sw rising held, _ => execRefswLatch_keepsBoot sw rising held s
  | .serialFrame ifc reply, _ => execSerialFrame_keepsBoot ifc reply s
  | .positionContextDispatch ifc, _ => execPositionContextDispatch_keepsBoot ifc s
  | .positionSnapshot ifc, _ => execPositionSnapshot_keepsBoot ifc s
  | .sourceDisagree axis, _ => execSourceDisagree_keepsBoot axis s
  | .monitorRun axis, _ => execMonitorRun_keepsBoot axis s
  | .observerDispatch axis, _ => execObserverDispatch_keepsBoot axis s
  | .observerRecaptureFailed axis, _ => execObserverRecaptureFailed_keepsBoot axis s
  | .trackingRun axis, _ => execTrackingRun_keepsBoot axis s
  | .catchStep axis, _ => execCatchStep_keepsBoot axis s
  | .standstillIdentification axis iPos iNeg, _ => execStandstillIdentification_keepsBoot axis iPos iNeg s
  | .settleAndRelease axis, _ => execSettleAndRelease_keepsBoot axis s
  | .catchTimeout axis, _ => execCatchTimeout_keepsBoot axis s
  | .axisStartResponse axis, _ => execAxisStartResponse_keepsBoot axis s
  | .safeStateRun axis, _ => execSafeStateRun_keepsBoot axis s
  | .ss1EnvelopeCheck axis, _ => execSs1EnvelopeCheck_keepsBoot axis s
  | .stopDeadlineMissed axis, _ => execStopDeadlineMissed_keepsBoot axis s
  | .slsExceeded axis, _ => execSlsExceeded_keepsBoot axis s
  | .brakeReleaseTime axis, _ => execBrakeReleaseTime_keepsBoot axis s
  | .brakeEngageTime axis, _ => execBrakeEngageTime_keepsBoot axis s
  | .backstayEvaluation, _ => execBackstayEvaluation_keepsBoot s
  | .backstayGateRelease axis, _ => execBackstayGateRelease_keepsBoot axis s
  | .backstayPattern axis balls, _ => execBackstayPattern_keepsBoot axis balls s
  | .windowFrame bytes, _ => execWindowFrame_keepsBoot bytes s
  | .backstayFeedLost, _ => execBackstayFeedLost_keepsBoot s
  | .dischargeDone, _ => execDischargeDone_keepsBoot s
  | .dischargeTimeout, _ => execDischargeTimeout_keepsBoot s
  | .thermalStep axis leg, _ => execThermalStep_keepsBoot axis leg s
  | .sensorRestored axis entry, _ => execSensorRestored_keepsBoot axis entry s
  | .reefEvaluation axis, _ => execReefEvaluation_keepsBoot axis s
  | .profileDispatch axis, _ => execProfileDispatch_keepsBoot axis s
  | .moveDone axis, _ => execMoveDone_keepsBoot axis s
  | .chopperCrossing bridge volts, _ => execChopperCrossing_keepsBoot bridge volts s
  | .auxOpenLoad bridge, _ => execAuxOpenLoad_keepsBoot bridge s
  | .auxMicrostep, _ => execAuxMicrostep_keepsBoot s
  | .holdDelay, _ => execHoldDelay_keepsBoot s
  | .idleOff, _ => execIdleOff_keepsBoot s
  | .auxParkIncomplete, _ => execAuxParkIncomplete_keepsBoot s
  | .captureFrozen axis, _ => execCaptureFrozen_keepsBoot axis s
  | .coreMismatch pairB cycle, _ => execCoreMismatch_keepsBoot pairB cycle s
  | .delayParity pairB cycle, _ => execDelayParity_keepsBoot pairB cycle s
  | .comparatorDisagree pairB cycle, _ => execComparatorDisagree_keepsBoot pairB cycle s
  | .runInjection reports, _ => execRunInjection_keepsBoot reports s
  | .registerSignature pairB, _ => execRegisterSignature_keepsBoot pairB s
  | .regsigLate pairB, _ => execRegsigLate_keepsBoot pairB s
  | .pairBSplit, _ => execPairBSplit_keepsBoot s
  | .pairBRejoined, _ => execPairBRejoined_keepsBoot s
  | .dbgSplit pairB, _ => execDbgSplit_keepsBoot pairB s
  | .eccUncorrectable mem address ctxs single, _ => execEccUncorrectable_keepsBoot mem address ctxs single s
  | .scrubPass corrected stillBad, _ => execScrubPass_keepsBoot corrected stillBad s
  | .engineSelftestCheck bad, _ => execEngineSelftestCheck_keepsBoot bad s
  | .contextOverrun eng ctx, _ => execContextOverrun_keepsBoot eng ctx s
  | .contextMigrated badMirrors, _ => execContextMigrated_keepsBoot badMirrors s
  | .fabricStarved requester cycles, _ => execFabricStarved_keepsBoot requester cycles s
  | .fabricAccessFault requester address, _ => execFabricAccessFault_keepsBoot requester address s
  | .tackSwap, _ => execTackSwap_keepsBoot s
  | .twinCopyDone, _ => execTwinCopyDone_keepsBoot s
  | .hostHeartbeatLost, _ => execHostHeartbeatLost_keepsBoot s
  | .registerWrite opcode address data, _ => execRegisterWrite_keepsBoot opcode address data s
  | .mailboxWrite address data, _ => execMailboxWrite_keepsBoot address data s
  | .doorbellRing mask, _ => execDoorbellRing_keepsBoot mask s
  | .doneClear mask, _ => execDoneClear_keepsBoot mask s
  | .faultsumClear mask setNow, _ => execFaultsumClear_keepsBoot mask setNow s
  | .doorbellOutClear mask setNow, _ => execDoorbellOutClear_keepsBoot mask setNow s
  | .segmentTimeout, _ => execSegmentTimeout_keepsBoot s
  | .rateLimitWindowEnd code inst, _ => execRateLimitWindowEnd_keepsBoot code inst s
  | .sysStatus slot, _ => execSysStatus_keepsBoot slot s
  | .sysVersion slot, _ => execSysVersion_keepsBoot slot s
  | .sysReset slot, _ => execSysReset_keepsBoot slot s
  | .sysServiceEnter slot, _ => execSysServiceEnter_keepsBoot slot s
  | .sysBindOff slot, _ => execSysBindOff_keepsBoot slot s
  | .wake can, _ => execWake_keepsBoot can s
  | .wakeLatchedReassert, _ => execWakeLatchedReassert_keepsBoot s
  | .sysTime slot, _ => execSysTime_keepsBoot slot s
  | .sysEvents slot, _ => execSysEvents_keepsBoot slot s
  | .sysHeartbeat slot, _ => execSysHeartbeat_keepsBoot slot s
  | .cfgWriteBegin slot, _ => execCfgWriteBegin_keepsBoot slot s
  | .cfgWriteData slot, _ => execCfgWriteData_keepsBoot slot s
  | .cfgWriteEnd slot, _ => execCfgWriteEnd_keepsBoot slot s
  | .cfgDigest slot, _ => execCfgDigest_keepsBoot slot s
  | .cfgStage slot, _ => execCfgStage_keepsBoot slot s
  | .cfgTack slot, _ => execCfgTack_keepsBoot slot s
  | .cfgDiscard slot, _ => execCfgDiscard_keepsBoot slot s
  | .axisStart slot, _ => execAxisStart_keepsBoot slot s
  | .axisStopRamp slot, _ => execAxisStopRamp_keepsBoot slot s
  | .axisStopSs1 slot, _ => execAxisStopSs1_keepsBoot slot s
  | .axisTorque slot, _ => execAxisTorque_keepsBoot slot s
  | .axisSpeed slot, _ => execAxisSpeed_keepsBoot slot s
  | .axisMove slot, _ => execAxisMove_keepsBoot slot s
  | .axisResume slot, _ => execAxisResume_keepsBoot slot s
  | .axisStatus slot, _ => execAxisStatus_keepsBoot slot s
  | .axisReference slot, _ => execAxisReference_keepsBoot slot s
  | .auxMove slot overActive, _ => execAuxMove_keepsBoot slot overActive s
  | .auxStop slot, _ => execAuxStop_keepsBoot slot s
  | .auxResume slot overActive, _ => execAuxResume_keepsBoot slot overActive s
  | .auxStatus slot, _ => execAuxStatus_keepsBoot slot s
  | .safeClear slot, _ => execSafeClear_keepsBoot slot s
  | .safeClearTrip slot clocksGood suppliesGood, _ => execSafeClearTrip_keepsBoot slot clocksGood suppliesGood s
  | .safeStatus slot, _ => execSafeStatus_keepsBoot slot s
  | .safeInputs slot, _ => execSafeInputs_keepsBoot slot s
  | .safeRestart slot, _ => execSafeRestart_keepsBoot slot s
  | .safeDischargeResistor slot, _ => execSafeDischargeResistor_keepsBoot slot s
  | .safeDischargeWindings slot, _ => execSafeDischargeWindings_keepsBoot slot s
  | .logInfo slot, _ => execLogInfo_keepsBoot slot s
  | .logRead slot, _ => execLogRead_keepsBoot slot s
  | .logExported slot, _ => execLogExported_keepsBoot slot s
  | .logCheckpoint slot, _ => execLogCheckpoint_keepsBoot slot s
  | .logCounters slot, _ => execLogCounters_keepsBoot slot s
  | .canStatus slot, _ => execCanStatus_keepsBoot slot s
  | .canRecover slot, _ => execCanRecover_keepsBoot slot s
  | .canSelftestInternal slot good, _ => execCanSelftestInternal_keepsBoot slot good s
  | .canSelftestExternal slot good, _ => execCanSelftestExternal_keepsBoot slot good s
  | .linkStatus slot, _ => execLinkStatus_keepsBoot slot s
  | .linkJoin slot, _ => execLinkJoin_keepsBoot slot s
  | .linkLeave slot, _ => execLinkLeave_keepsBoot slot s
  | .diagSelftest slot, _ => execDiagSelftest_keepsBoot slot s
  | .diagMapRead slot, _ => execDiagMapRead_keepsBoot slot s
  | .diagMapWrite slot, _ => execDiagMapWrite_keepsBoot slot s
  | .diagCapture slot, _ => execDiagCapture_keepsBoot slot s
  | .diagPairBSplit slot load, _ => execDiagPairBSplit_keepsBoot slot load s
  | .diagPairBRejoin slot, _ => execDiagPairBRejoin_keepsBoot slot s
  | .secChallenge slot, _ => execSecChallenge_keepsBoot slot s
  | .secUnlock slot, _ => execSecUnlock_keepsBoot slot s
  | .secClearLock slot, _ => execSecClearLock_keepsBoot slot s
  | .secCert slot, _ => execSecCert_keepsBoot slot s
  | .secStatus slot, _ => execSecStatus_keepsBoot slot s
  | .sysLoaderBegin slot, _ => execSysLoaderBegin_keepsBoot slot s
  | .sysLoaderData slot, _ => execSysLoaderData_keepsBoot slot s
  | .sysLoaderEnd slot, _ => execSysLoaderEnd_keepsBoot slot s
  | .canRxFrame ctl frame taken, _ => execCanRxFrame_keepsBoot ctl frame taken s
  | .txreq ctl write, _ => execTxreq_keepsBoot ctl write s
  | .cancelReq ctl write sending, _ => execCancelReq_keepsBoot ctl write sending s
  | .rxLock ctl write lock, _ => execRxLock_keepsBoot ctl write lock s
  | .canTxComplete ctl buf stamp sof, _ => execCanTxComplete_keepsBoot ctl buf stamp sof s
  | .canBusError ctl transmitter first kind buf, _ => execCanBusError_keepsBoot ctl transmitter first kind buf s
  | .canRecovered ctl, _ => execCanRecovered_keepsBoot ctl s
  | .txExpired ctl buf sending, _ => execTxExpired_keepsBoot ctl buf sending s
  | .e2eTimeout ctl buf, _ => execE2eTimeout_keepsBoot ctl buf s
  | .linkUp port, _ => execLinkUp_keepsBoot port s
  | .linkDown port reach, _ => execLinkDown_keepsBoot port reach s
  | .tripOrderedSet port source mask, _ => execTripOrderedSet_keepsBoot port source mask s
  | .sync port head frame, _ => execSync_keepsBoot port head frame s
  | .delayReq port head, _ => execDelayReq_keepsBoot port head s
  | .delayRsp port head delay, _ => execDelayRsp_keepsBoot port head delay s
  | .digest port head generation digest divergent, _ => execDigest_keepsBoot port head generation digest divergent s
  | .share port head frame, _ => execShare_keepsBoot port head frame s
  | .shareStale, _ => execShareStale_keepsBoot s
  | .tackPrepare port head generation digest, _ => execTackPrepare_keepsBoot port head generation digest s
  | .tackAck port head reason, _ => execTackAck_keepsBoot port head reason s
  | .tackCommit port head carrier, _ => execTackCommit_keepsBoot port head carrier s
  | .tackAbort port head, _ => execTackAbort_keepsBoot port head s
  | .ringTackTimeout, _ => execRingTackTimeout_keepsBoot s
  | .followerTackDrop, _ => execFollowerTackDrop_keepsBoot s
  | .elect port head priority uid ended, _ => execElect_keepsBoot port head priority uid ended s
  | .join port head uid, _ => execJoin_keepsBoot port head uid s
  | .leave port head, _ => execLeave_keepsBoot port head s
  | .serviceFrame port head payload, _ => execServiceFrame_keepsBoot port head payload s
  | .safeInputSample a b, _ => execSafeInputSample_keepsBoot a b s
  | .siDiscrepancy fn button2, _ => execSiDiscrepancy_keepsBoot fn button2 s
  | .testPulse pulse ends, _ => execTestPulse_keepsBoot pulse ends s
  | .twoHandSync fn, _ => execTwoHandSync_keepsBoot fn s
  | .safeInCrossCheck agree, _ => execSafeInCrossCheck_keepsBoot agree s
  | .soPulse out ends, _ => execSoPulse_keepsBoot out ends s
  | .soReadbackFail out level, _ => execSoReadbackFail_keepsBoot out level s
  | .logFlush erase program, _ => execLogFlush_keepsBoot erase program s
  | .logStall, _ => execLogStall_keepsBoot s
  | .checkpointSigned, _ => execCheckpointSigned_keepsBoot s
  | .countersRecord, _ => execCountersRecord_keepsBoot s
  | .exportTimeout, _ => execExportTimeout_keepsBoot s
  | .tamperMesh mesh1 differs, _ => execTamperMesh_keepsBoot mesh1 differs s
  | .tamperLight, _ => execTamperLight_keepsBoot s
  | .tamperEnclosure enc1 level, _ => execTamperEnclosure_keepsBoot enc1 level s
  | .tamperTemperature celsius, _ => execTamperTemperature_keepsBoot celsius s
  | .tamperGlitch clock, _ => execTamperGlitch_keepsBoot clock s
  | .debugHalt pairB load, _ => execDebugHalt_keepsBoot pairB load s
  | .stoQualifying src, _ => execStoQualifying_keepsBoot src s
  | .faultNHigh axis leg, _ => execFaultNHigh_keepsBoot axis leg s
  | .linkTraining port, _ => execLinkTraining_keepsBoot port s
  | .busIntegration ctl, _ => execBusIntegration_keepsBoot ctl s
  | .reservationNotStarted eng, _ => execReservationNotStarted_keepsBoot eng s
  | .rejoinPartL failed, _ => execRejoinPartL_keepsBoot failed s
  | .debugRelease pairB, _ => execDebugRelease_keepsBoot pairB s
  | .blankEnd bridge volts, _ => execBlankEnd_keepsBoot bridge volts s
  | .toffEnd bridge, _ => execToffEnd_keepsBoot bridge s
  | .auxRunTimeEnd, _ => execAuxRunTimeEnd_keepsBoot s
  | .tPullElapsed solenoid, _ => execTPullElapsed_keepsBoot solenoid s
  | .longCommandComplete slot, _ => execLongCommandComplete_keepsBoot slot s
  | .x32CrystalSwitch, _ => execX32CrystalSwitch_keepsBoot s
  | .vbatLoss, _ => execVbatLoss_keepsBoot s
  | .lifecycleFuseWrite scrapped, _ => execLifecycleFuseWrite_keepsBoot scrapped s

/-- The commands named for the boot part are those of cast-on and the entries into reset. -/
theorem exec_keepsLegalHalt_of_mayChange (c : Instr) (h : mayChange .boot c = true) (s : State) : KeepsLegalHalt s (exec c s) :=
  match c, h with
  | .porstNRelease, _ => execPorstNRelease_keepsLegalHalt s
  | .porstNLow, _ => execPorstNLow_keepsLegalHalt s
  | .supplyBelowReset supply volts, _ => execSupplyBelowReset_keepsLegalHalt supply volts s
  | .xinStartFail, _ => execXinStartFail_keepsLegalHalt s
  | .castOnStepDone found, _ => execCastOnStepDone_keepsLegalHalt found s
  | .castOnDone, _ => execCastOnDone_keepsLegalHalt s
  | .resetFollows, _ => execResetFollows_keepsLegalHalt s
  | .sysServiceExit slot, _ => execSysServiceExit_keepsLegalHalt slot s
  | .bindOffDone, _ => execBindOffDone_keepsLegalHalt s
  | .glitchReset, _ => execGlitchReset_keepsLegalHalt s
  | .pllLockTimeout, _ => execPllLockTimeout_keepsLegalHalt s

theorem exec_keepsLegalHalt (c : Instr) (s : State) : KeepsLegalHalt s (exec c s) := by
  cases h : mayChange .boot c with
  | false => exact (exec_keepsBoot c h s).keepsLegalHalt
  | true => exact exec_keepsLegalHalt_of_mayChange c h s

theorem step_keepsLegalHalt (s : State) : KeepsLegalHalt s (step s) := by
  unfold step
  split
  next => exact (keepsBoot_next.mpr (idleTick_boot s)).keepsLegalHalt
  next c cs _ => exact exec_keepsLegalHalt c { s with pending := cs }

/-- Settles O58: a command either leaves cast-on as it is, or enters reset, where HALT is clear, or takes a step of cast-on, which halts
with one of the six codes. -/
theorem haltCodeHoldsOnlyItsSixCodes : Obligations.HaltCodeHoldsOnlyItsSixCodes :=
  ⟨fun s t h e => (haltCodeLegal_iff t).mpr (step_keepsLegalHalt s ((haltCodeLegal_iff s).mp h) t e), fun c => by simp [haltCodes]⟩

end Sys2Proof.Machine
